-- ==== Sys2Proof/Word.lean ====
section
/-!
DEFINITION. The words of the part: a register is 32 bits wide (R6), memory is addressed by the byte.
-/

namespace Sys2Proof

/-- A register, a core register or a stored word. -/
abbrev Word := BitVec 32

/-- A byte of memory, of a message or of a two-wire transfer. -/
abbrev Byte := BitVec 8

end Sys2Proof
end

