-- ==== Sys2Proof/Syntax.lean ====
section
/-!
DEFINITION. The commands of the part: one constructor for each row of the table of operations and events.
A row that is a register write carries its writer; a row that is an event in the analog or the outside world
carries what the part measures or receives at that instant.
-/

namespace Sys2Proof

/-- CH0-CH31 (Table 0.2). -/
abbrev Chan := Fin 32
/-- L0-L11 (Table 0.2); L8-L11 are the loops of ports P0-P3. -/
abbrev Loop := Fin 12
/-- P0-P3 and VLK0-VLK3 (Table 0.3). -/
abbrev Port := Fin 4
/-- S0-S35 (Table 0.3). -/
abbrev Rail := Fin 36
/-- C0-C3 (Table 0.3). -/
abbrev Core := Fin 4
/-- H0-H2 on TW0-TW2 (Table 0.3). -/
abbrev HostId := Fin 3
/-- D0-D11 (Table 1.6). -/
abbrev Dom := Fin 12

/-- Who writes or reads a register (R9, R13). -/
inductive Writer where
  | core (k : Core)
  | host (h : HostId)
  deriving DecidableEq, Repr

/-- The supply monitors of Table 1.4 other than the house input. -/
inductive Monitor where
  | vinHv
  | vbus (p : Port)
  | vddCore
  | vdda
  | vddioA
  | vddioB
  | vconnIn
  deriving DecidableEq, Repr

/-- The supplies whose loss ends full operation (R30). -/
inductive FullSupply where
  | vddCore | vdda | vddioA | vddioB
  deriving DecidableEq, Repr

/-- The wake sources of Table 1.13. -/
inductive WakeSrc where
  | cc (p : Port)
  | vbus (p : Port)
  | tw (k : HostId)
  | sync
  | timer
  | vin
  | resetn
  deriving DecidableEq, Repr

/-- A read command of the flash: its opcode and dummy clocks (R58). -/
structure FlashRead where
  opcode : Byte
  dummy : Nat
  deriving DecidableEq, Repr

/-- What the Basic Flash Parameter Table tells the boot ROM (R58): the 1-1-4 fast read, if it offers one; whether the flash
accepts only 4-byte addresses, and the table's 4-byte opcode for the read used; and the commands by which the table
prescribes setting the quad-enable bit, each an opcode with the bytes that follow it. -/
structure Sfdp where
  quad : Option FlashRead
  only4 : Bool
  op4 : Byte
  enable : List (Byte × List Byte)
  deriving DecidableEq, Repr

/-- The halves of the pulse engine: D7 and D8 (Table 1.6). -/
inductive Half where
  | west | east
  deriving DecidableEq, Repr

/-- A link frame's fields other than CMD and CRC, and whether an identical frame was first received at least the set
delay before, which a busy port asks for (R159, R164). -/
structure LinkFrame where
  sel : BitVec 2
  tag : BitVec 2
  payload : BitVec 16
  waited : Bool
  deriving DecidableEq, Repr

/-- The PEC byte of a transaction (R308). -/
inductive Pec where
  | absent | good | bad
  deriving DecidableEq, Repr

/-- How the controller of a transaction won the bus from this port's Host Notify, if it did (R311, R312). -/
inductive Arb where
  | free | wonInAddress | wonLater
  deriving DecidableEq, Repr

/-- A two-wire transaction: its address, the bytes written after the command code (none: a read), its PEC. -/
structure Txn where
  addr : BitVec 7
  write : Option (List Byte)
  pec : Pec
  arb : Arb
  deriving DecidableEq, Repr

/-- How a Host Notify ends (R311, R313). -/
inductive NotifyEnd where
  | sent | nacked | lost
  deriving DecidableEq, Repr


/-- The USB PD messages of Table 7.5, and those the port answers with Not_Supported (R222). -/
inductive PdType where
  | goodCrc | accept | reject | wait | psRdy | ping | softReset | getSourceCap | getSinkCap | drSwap | prSwap
  | vconnSwap | frSwap | getSourceCapExt | getStatus | getPpsStatus | getRevision | getManufacturerInfo
  | notSupported
  | sourceCapabilities | request | sinkCapabilities | vendorDefined | batteryStatus | alert | eprRequest
  | eprModeEnter | eprModeAck | eprModeExit | revision | bist | getBatteryCap | getBatteryStatus
  | sourceCapabilitiesExt | status | ppsStatus | batteryCapabilities | manufacturerInfo | eprSourceCapabilities
  | eprSinkCapabilities | eprGetSourceCap | eprGetSinkCap | eprKeepAlive | eprKeepAliveAck
  | securityRequest | firmwareUpdateRequest
  | unlisted (code : Byte)
  deriving DecidableEq, Repr

/-- SOP, SOP' and SOP'' (R216). -/
inductive Sop where
  | sop | prime | double
  deriving DecidableEq, Repr

/-- A message on the CC line: its type, MessageID, data objects and specification revision (R216). The objects of an
extended message are its words on the line, the extended header first (R222; log 97). -/
structure PdMsg where
  sop : Sop
  type : PdType
  id : Fin 8
  objs : List Word
  rev : Fin 4 := 2
  deriving DecidableEq, Repr

/-- What a CC pin carries, as its comparators see it (R209): nothing, Ra, Rd, or Rp of a level. -/
inductive CcTerm where
  | vacant
  | ra
  | rd
  | rp (level : Fin 3)
  deriving DecidableEq, Repr

/-- R179: a crossing lasting 10 ns or longer: of which comparator, and the voltage reached at the sense pins. -/
structure OvCrossing where
  tracking : Bool
  uv : Int
  deriving DecidableEq, Repr

/-- What a comparator or filter of a port's power path sees: microvolts of the converter node (R248-R252, R261), of the
inductor shunt (R261), or codes of 31.25 uV of the bus shunt (R245). -/
structure PortSense where
  port : Port
  val : Int
  deriving DecidableEq, Repr

/-- R282: a rail, and what its sense reads, in microvolts. -/
structure RailSense where
  rail : Rail
  uv : Int
  deriving DecidableEq, Repr

/-- R181, R261: the sensed output of a loop, and VSYS_IN, in microvolts. -/
structure OvSense where
  uv : Int
  vsys : Int
  deriving DecidableEq, Repr

/-- R353: a loop, and whether its fallback comparator reads V_s below FB_DAC. -/
structure CrossSense where
  loop : Loop
  below : Bool
  deriving DecidableEq, Repr

/-- R182: the voltage reached at IMONm, in microvolts, and the coarse counts since the rising edge. -/
structure ScCrossing where
  chan : Fin 24
  since : Nat
  uv : Nat
  deriving DecidableEq, Repr

/-- R145: the residual in 0.01% of the captured error's energy, the predicted crossover in Hz, and the predicted phase and
gain margins in 0.01 degree and 0.01 dB. -/
structure Fit where
  residual : Nat
  crossover : Nat
  phase : Int
  gain : Int
  deriving DecidableEq, Repr

/-- One constructor for each row of the table of operations and events. -/
inductive Instr where
  -- Package, supplies, clocks and power domains
  /-- R29: the highest house input, by its HOUSE_SRC code, is good. -/
  | houseInputGood (src : Fin 5)
  /-- R31, R395: whether it fell faster than 50 mV/us. -/
  | houseInputFail (fast : Bool)
  | d0Reset
  /-- R29: a monitor changes; `hi` is the level of an IO bank, `src` the highest house input after the change. -/
  | supplyMonitorChange (m : Monitor) (good hi : Bool) (src : Fin 5)
  | vddCoreQualified
  | supplyLoss (m : FullSupply)
  | vconnInBad
  | lfSrcWrite (who : Writer) (crystal : Bool)
  | crystalQualified
  | xtalFail
  /-- R34, R108: SYNC_IN has been seen at this frequency in Hz. -/
  | syncSeenRise (hz : Nat)
  | syncLost
  | pllLock
  | clockMonitorTrip
  | pwrDomReqWrite (who : Writer) (v : BitVec 12)
  | domainPowerUp (d : Dom)
  | dormantEnter (who : Writer)
  | attachWatchDetect (p : Port)
  | wake (src : WakeSrc)
  | wakeTimer
  -- Starting from power, the configuration image and seedling mode
  | resetnLow
  | resetnRise
  | keeperRead
  | startAttemptBegin
  /-- R57, R58: what the SFDP read returned, or none. -/
  | flashProbeDone (sfdp : Option Sfdp)
  /-- R62, R63: slot B or A, its bytes, and the GENERATION of the other slot if its MAGIC matches. -/
  | candidateReadDone (slotB : Bool) (img : List Byte) (other : Option Nat)
  | startTimeout
  | retryDelayEnd
  | healthy (k : Core)
  | restartOrderly (who : Writer) (key : Byte)
  | restartNow (who : Writer) (key : Byte)
  | clearFails (who : Writer) (key : Byte)
  | flashXferGo (who : Writer) (ctrl : BitVec 22)
  /-- R83: the bytes the flash returned, for a read. -/
  | flashXferDone (data : List Byte)
  -- The pulse engine
  | loadAll (who : Writer)
  /-- R103, R106, R115: how many of the newest shadow writes came less than 40 coarse counts before this valley,
  whether LOAD_ALL did, and whether FAULTn is high. -/
  | masterValley (late : Nat) (loadLate faultnHigh : Bool)
  | valley (n : Chan)
  | peak (n : Chan)
  /-- R101, R102: what is captured: the current ADC's code, or V_s in microvolts where the window sample is marked. -/
  | triggerFire (n : Chan) (k : Fin 4) (x : Int)
  | currentConversionDone (adc : Fin 4)
  | delayLineCalDone (h : Half) (code : BitVec 10)
  /-- R112: a write of GO_W or GO_E by `who`, or the PERIOD timer, and the code that the replica line gives. -/
  | recalibration (who : Option Writer) (h : Half) (code : BitVec 10)
  | engineEnClear (who : Writer)
  | engineFreeze
  | faultnLow
  | clrTrgDrop (who : Writer)
  | peCntClr (who : Writer) (mask : Word)
  -- Rail loops: regulation, carding, fulling and blocking
  /-- R123, R124, R130, R245: the update for a turning point of channel n, with V_s at the last eight window samples,
  newest first, in microvolts, and for a port loop the voltage across the bus shunt in codes of 31.25 uV. -/
  | compensatorUpdate (n : Chan) (vs : Vector Int 8) (shunt : Int)
  | vrefWrite (who : Writer) (l : Fin 8) (code : BitVec 11)
  | referenceStep (l : Loop)
  | cardingStep (l : Fin 8)
  | fullingEnd (l : Fin 8)
  | noticedInstant (l : Fin 8)
  /-- R138, R354: the mean output in microvolts at the node sensed, and whether every comparator tripped. -/
  | prebiasDone (l : Loop) (uv : Nat) (selfTest : Bool)
  | rampStart (l : Loop)
  | stopLowEnd (l : Fin 8)
  | stgEnFall (l : Fin 8)
  | settledRise (l : Fin 8)
  | swap (who : Writer) (l : Loop)
  | blkGo (who : Writer) (l : Fin 8)
  | injectionEnd (l : Fin 8)
  /-- R145: what C1's fit gives, and the set it computed: B0, B1, B2, C1, C2, GSHIFT. -/
  | verdict (l : Fin 8) (fit : Fit) (set : Vector (BitVec 20) 6)
  | fbForce (who : Writer) (l : Loop)
  /-- R147, R192: V_s in microvolts, and the voltage in microvolts that shows the next channel's current: at IMONm, or
  across the inductor shunt of a port. -/
  | fallbackPulseStart (l : Loop) (vs : Int) (imon : Int)
  | fallbackPulseEnd (l : Loop)
  | foldingQuiet (l : Loop)
  | fbRet (who : Writer) (l : Loop)
  | retiredClear (who : Writer) (n : Fin 24)
  -- The load voltage link
  | setTarget (v : Port) (f : LinkFrame)
  | setSlew (v : Port) (f : LinkFrame)
  | stepNotice (v : Port) (f : LinkFrame)
  | setState (v : Port) (f : LinkFrame)
  | getTelemetry (v : Port) (f : LinkFrame)
  | getStatus (v : Port) (f : LinkFrame)
  | clearAlert (v : Port) (f : LinkFrame)
  /-- R162: the 32 bits received, and `waited` as in LinkFrame. -/
  | linkFrameRefused (v : Port) (frame : Word) (waited : Bool)
  /-- R158: whether E32 had passed. -/
  | linkAbort (v : Port) (received : Bool)
  /-- R175: a repeat after ATTN_REP, or the first pulse of a cause. -/
  | attentionPulse (v : Port) (again : Bool)
  | attentionPulseEnd (v : Port)
  | vlkMapWrite (who : Writer) (v : Port) (w : Word)
  | vlkCntClr (who : Writer) (v : Port)
  -- Rail protection and the fault ladder
  /-- R179: a crossing at the absolute or the tracking comparator. -/
  | ovTrip (l : Fin 8) (x : OvCrossing)
  /-- R181: what the comparators then read. -/
  | ovClr (who : Writer) (l : Loop) (x : OvSense)
  | loffClr (who : Writer) (l : Loop)
  /-- R182: a crossing at a channel's comparator. -/
  | scTrip (x : ScCrossing)
  | overloadBlockEnd (l : Fin 8)
  | uv (l : Fin 8)
  | startShort (l : Fin 8)
  | hiccupRestart (l : Fin 8)
  | hiccupClean (l : Fin 8)
  -- Type-C ports: attach, contracts and roles
  /-- R213: the terminations on CC1 and CC2 have held for the debounce time of the transition they call for. -/
  | tcDebounceExpiry (p : Port) (cc1 cc2 : CcTerm)
  | drpToggle (p : Port)
  | errorRecoveryEnd (p : Port)
  /-- R213: tDRPTry has passed; whether the partner's termination was seen. -/
  | tdrptry (p : Port) (seen : Bool)
  /-- R214: the span ends with the loss still present. -/
  | detachExceptionEnd (p : Port)
  | apply (who : Writer) (p : Port)
  /-- R216: a message, or a frame with a bad CRC-32. -/
  | pdMessageRx (p : Port) (m : PdMsg) (crcOk : Bool)
  | sourceCapabilities (p : Port)
  | request (p : Port)
  | drSwap (p : Port)
  | prSwap (p : Port)
  | vconnSwap (p : Port)
  | eprMode (p : Port)
  | eprKeepalive (p : Port)
  | frSwap (p : Port)
  | psRdy (p : Port)
  | treceive (p : Port)
  | hardResetRx (p : Port)
  | hardResetTx (p : Port)
  | cableReset (p : Port)
  | tsenderresponse (p : Port)
  | ttypecsendsourcecap (p : Port)
  | tsinkwaitcap (p : Port)
  | tpstransition (p : Port)
  | thardreset (p : Port)
  | tnoresponse (p : Port)
  | tenterepr (p : Port)
  | tsinkeprkeepalive (p : Port)
  | tsourceeprkeepalive (p : Port)
  | tppsrequest (p : Port)
  | tppstimeout (p : Port)
  | tpssourceon (p : Port)
  | vconnOc (p : Port)
  | cableDiscoveryRetry (p : Port)
  | frsSignal (p : Port)
  /-- R254: VBUS is below 4.75 V at 150 us or before PS_RDY. -/
  | frsFail (p : Port)
  | reqDr (who : Writer) (p : Port)
  | reqPr (who : Writer) (p : Port)
  | enter (who : Writer) (p : Port) (idx : Fin 16)
  | exit (who : Writer) (p : Port) (idx : Fin 16)
  | vdmTxGo (who : Writer) (p : Port) (count : Fin 16) (sop : Fin 4)
  | vdmRxRelease (who : Writer) (p : Port)
  | pmemWrite (p : Port)
  | pmemRead (who : Writer) (idx : Fin 1024)
  | pmemPin (who : Writer) (idx : Fin 1024)
  | pmemUnpin (who : Writer) (idx : Fin 1024)
  | pmemForget (who : Writer) (idx : Fin 1024)
  | pmemForgetAllUnpinned (who : Writer)
  -- Port power path and the shared power budget
  | converterNodeQualified (x : PortSense)
  | vreached (x : PortSense)
  | gateClosed (p : Port)
  | gateFail (p : Port)
  | dschgDone (p : Port)
  | dschgTmo (p : Port)
  | portOc (x : PortSense)
  | sinkUv (x : PortSense)
  | sinkRestart (x : PortSense)
  | reverseCurrentEnd (p : Port)
  | vsysShed
  | portOv (x : PortSense)
  | vsysOv
  | peakTrip (x : PortSense)
  | revCur (x : PortSense)
  | dbOc (x : PortSense)
  | dbRetry (p : Port)
  /-- R225: C2 asks for this power, in 0.25 W. -/
  | grantRequest (p : Port) (want : Fin 1024)
  | budgetRecompute
  -- Sequencing, supervision and resets
  | targetWrite (who : Writer) (k : BitVec 6)
  | railOn (n : Rail)
  | railOff (n : Rail)
  /-- R276, R277, R286: what the sense reads now, in microvolts. -/
  | seqWindowCrossing (n : Rail) (uv : Int)
  | railGood (n : Rail)
  | railBad (n : Rail)
  | railReadsOff (x : RailSense)
  /-- R280, G8.15: whether more than half of UP_TMO had passed. -/
  | seqPowerUpStepComplete (late : Bool)
  | seqPowerDownStepComplete
  | pgTimeout
  | disTimeout
  | syncReleaseQualified
  | syncHoldEnd
  | syncTimeout
  | rstoutRelease (m : Fin 4)
  | seqStateWrite (who : Writer) (n : Rail) (k : BitVec 6)
  | seqFaultClr (who : Writer)
  -- Host ports, sharing and mailboxes
  | page (h : HostId) (t : Txn)
  | operation (h : HostId) (t : Txn)
  | onOffConfig (h : HostId) (t : Txn)
  | clearFaults (h : HostId) (t : Txn)
  | voutCommand (h : HostId) (t : Txn)
  | voutMax (h : HostId) (t : Txn)
  | voutTransitionRate (h : HostId) (t : Txn)
  | ioutOcFaultLimit (h : HostId) (t : Txn)
  | statusByte (h : HostId) (t : Txn)
  | statusWord (h : HostId) (t : Txn)
  | statusVout (h : HostId) (t : Txn)
  | statusIout (h : HostId) (t : Txn)
  | statusTemperature (h : HostId) (t : Txn)
  | statusCml (h : HostId) (t : Txn)
  /-- R316: VSYS_IN in millivolts. -/
  | readVin (h : HostId) (t : Txn) (mv : Nat)
  /-- R316: V_s, or the converter-node voltage of a port's page, in microvolts; so for READ_POUT. -/
  | readVout (h : HostId) (t : Txn) (uv : Nat)
  | readIout (h : HostId) (t : Txn)
  | readTemperature1 (h : HostId) (t : Txn)
  | readPout (h : HostId) (t : Txn) (uv : Nat)
  | mfrId (h : HostId) (t : Txn)
  | mfrModel (h : HostId) (t : Txn)
  | mfrRevision (h : HostId) (t : Txn)
  | regWrite (h : HostId) (t : Txn)
  | regPtr (h : HostId) (t : Txn)
  | regRead (h : HostId) (t : Txn)
  | regMaskwrite (h : HostId) (t : Txn)
  | regResult (h : HostId) (t : Txn)
  | unsupportedCommand (h : HostId) (t : Txn) (code : Byte)
  | abandoned (h : HostId)
  | sclLowTimeout (h : HostId)
  | stretchTimeout (h : HostId) (read : Bool)
  | hostNotify (h : HostId) (e : NotifyEnd)
  | notifyRetry (h : HostId) (e : NotifyEnd)
  | hpCntClr (who : Writer) (h : HostId)
  /-- R324: C0 takes the word that waits in MBh (secure) or MB(64 + h). -/
  | claim (h : HostId) (secure : Bool)
  | release (h : HostId) (secure : Bool)
  | give (h : HostId) (secure : Bool)
  | mbxDataWrite (who : Writer) (n : Fin 256) (w : Word)
  | mbxAckWrite (who : Writer) (n : Fin 256) (code : BitVec 16)
  -- The crown tree and single-fault containment
  | irqCauseWrite (who : Writer) (g : Fin 16) (v : BitVec 16)
  | irqEnWrite (who : Writer) (h : HostId) (g : Fin 16) (v : BitVec 16)
  | checkMismatch (l : Loop)
  | checkerSelfTest (pass : Bool)
  /-- R353: what the comparator has read for 1 µs. -/
  | senseXcheck (x : CrossSense)
  | clkFrc
  | clkSlow
  /-- R358: the word read, by its number in SRAM. -/
  | scrubRead (word : Fin 0x80000)
  | regParitySweep
  -- Telemetry and thermal sensing
  | tcvStart (who : Writer)
  | tcvStop (who : Writer)
  /-- R362, R363, R368: mean of the input over the reference; an excursion beyond -10% to +110%; the master timebase
  stopped within the window. -/
  | conversionDone (mean : Rat) (wild stopped : Bool)
  | urgent (who : Writer) (n : Fin 32)
  | refSelWrite (who : Writer) (v : Fin 4)
  | refSettled
  | avgClr (who : Writer) (n : Fin 32)
  | syscalZero (who : Writer) (n : Fin 32)
  | syscalFullScale (who : Writer) (n : Fin 32)
  | syscalCommit (who : Writer) (n : Fin 32) (key : Byte)
  | thmGo (who : Writer)
  | thmDemandTimer
  | shutHoldMeasure
  /-- R377: the nine ring counts. -/
  | thDone (counts : Vector (BitVec 16) 9)
  -- The keeper store and the event recorder
  | write (who : Writer) (key : Byte)
  | startClr (who : Writer) (key : Byte)
  | keyset (who : Writer) (key : Byte)
  /-- R393: for the last hash group of a KEYSET, whether the hash reads back as written. -/
  | keeperGroupDone (same : Bool)
  | keeperOperationDone
  | opminPersist
  | kprRdataRead (who : Writer)
  | holdupUsedClear (who : Writer)
  | protLock (who : Writer)
  | recorderPersist
  | flush (who : Writer)
  | snap (who : Writer)
  /-- R404: |VBUS x I_BUS| of each port in 0.25 W, and VIN_HV and VSYS_IN in mV. -/
  | statisticsSample (power : Vector Nat 4) (vin vsys : Nat)
  -- Cores and the Pletra instruction set: core k executes the instruction at its PC
  | add (k : Core) (rd ra rb : Fin 16)
  | sub (k : Core) (rd ra rb : Fin 16)
  | and_ (k : Core) (rd ra rb : Fin 16)
  | or_ (k : Core) (rd ra rb : Fin 16)
  | xor (k : Core) (rd ra rb : Fin 16)
  | shl (k : Core) (rd ra rb : Fin 16)
  | shr (k : Core) (rd ra rb : Fin 16)
  | sar (k : Core) (rd ra rb : Fin 16)
  | ror (k : Core) (rd ra rb : Fin 16)
  | cmp (k : Core) (ra rb : Fin 16)
  | tst (k : Core) (ra rb : Fin 16)
  | addi (k : Core) (rd ra : Fin 16) (imm : BitVec 18)
  | andi (k : Core) (rd ra : Fin 16) (imm : BitVec 18)
  | ori (k : Core) (rd ra : Fin 16) (imm : BitVec 18)
  | xori (k : Core) (rd ra : Fin 16) (imm : BitVec 18)
  | shli (k : Core) (rd ra : Fin 16) (n : Fin 32)
  | shri (k : Core) (rd ra : Fin 16) (n : Fin 32)
  | sari (k : Core) (rd ra : Fin 16) (n : Fin 32)
  | rori (k : Core) (rd ra : Fin 16) (n : Fin 32)
  | cmpi (k : Core) (ra : Fin 16) (imm : BitVec 18)
  | lui (k : Core) (rd : Fin 16) (imm : BitVec 22)
  | clz (k : Core) (rd ra : Fin 16)
  | popc (k : Core) (rd ra : Fin 16)
  | bfx (k : Core) (rd ra : Fin 16) (pos lm1 : Fin 32)
  | bfxs (k : Core) (rd ra : Fin 16) (pos lm1 : Fin 32)
  | bfi (k : Core) (rd ra : Fin 16) (pos lm1 : Fin 32)
  | perm (k : Core) (rd ra : Fin 16) (sel : Byte)
  | sel (k : Core) (rd ra rb : Fin 16) (cond : Fin 15)
  | macq (k : Core) (ra rb : Fin 16)
  /-- `glitch`: the first read of the word fails parity though the stored word is sound (R356, R357). -/
  | ldw (k : Core) (rd ra : Fin 16) (imm : BitVec 18) (glitch : Bool)
  | ldh (k : Core) (rd ra : Fin 16) (imm : BitVec 18) (glitch : Bool)
  | ldhs (k : Core) (rd ra : Fin 16) (imm : BitVec 18) (glitch : Bool)
  | ldb (k : Core) (rd ra : Fin 16) (imm : BitVec 18) (glitch : Bool)
  | ldbs (k : Core) (rd ra : Fin 16) (imm : BitVec 18) (glitch : Bool)
  | stw (k : Core) (rd ra : Fin 16) (imm : BitVec 18)
  | sth (k : Core) (rd ra : Fin 16) (imm : BitVec 18)
  | stb (k : Core) (rd ra : Fin 16) (imm : BitVec 18)
  | bset (k : Core) (bit : BitVec 13)
  | bclr (k : Core) (bit : BitVec 13)
  | btgl (k : Core) (bit : BitVec 13)
  | btst (k : Core) (bit : BitVec 13)
  | bbs (k : Core) (bit off : BitVec 13)
  | bbc (k : Core) (bit off : BitVec 13)
  | boprSet (k : Core) (ra : Fin 16)
  | boprClear (k : Core) (ra : Fin 16)
  | boprToggle (k : Core) (ra : Fin 16)
  | boprTest (k : Core) (ra : Fin 16)
  | boprRead (k : Core) (rd ra : Fin 16)
  | bcond (k : Core) (cond : Fin 15) (off : BitVec 22)
  | call (k : Core) (off : BitVec 26)
  | jr (k : Core) (ra : Fin 16)
  | jlr (k : Core) (rd ra : Fin 16)
  | mulu (k : Core) (ra rb : Fin 16)
  | muls (k : Core) (ra rb : Fin 16)
  | macs (k : Core) (ra rb : Fin 16)
  | mulq (k : Core) (ra rb : Fin 16)
  | multiplierResult (k : Core)
  | mfc (k : Core) (rd : Fin 16) (creg : BitVec 6)
  | mtc (k : Core) (ra : Fin 16) (creg : BitVec 6)
  | svc (k : Core) (imm : BitVec 16)
  | eret (k : Core)
  | wfe (k : Core)
  | fence (k : Core)
  | event (k : Core)
  | budget (k : Core)
  | watchdogExpiry (k : Core)
  | kick (who : Writer) (k : Core) (v : Byte)
  | coreTimerExpiry (k : Core)
  | ring (who : Writer) (k : Core)
  /-- R433: applet n of the table is due for an event (0-3) with its port, step or channel; its entry offset and
  budget, as the table gives them. -/
  | appletInvocation (n : Fin 8) (event : Fin 4) (arg : Word) (entry : BitVec 16) (budget : BitVec 24)
  -- Service in operation and perturbation testing
  | liveStageData (who : Writer) (w : Word)
  | verify (who : Writer)
  | handoverReq (who : Writer) (k : Core)
  | ready (who : Writer) (k : Core)
  | handoverTimeout (k : Core)
  | handoverCopyDone (k : Core)
  | alive (who : Writer) (k : Core)
  | notAlive (k : Core)
  | liveRetire (who : Writer) (ch : Fin 32)
  | retrimGo (who : Writer) (l : Fin 16)
  /-- R446: the mean codes agree within 4 codes. -/
  | retrimTwinSettled (agree : Bool)
  /-- R446: the trims computed, and whether the reconnected ADC agrees with the twin. -/
  | retrimTrimsComputed (trims : BitVec 24) (agree : Bool)
  | retrimTimeout
  | retrimAbort
  | commit (who : Writer) (l : Fin 16) (key : Byte)
  | tstKey (who : Writer) (v : Byte)
  | tstKeyLockoutEnd
  | tstUnlockTimeout
  | relock (who : Writer)
  | logClr (who : Writer)
  /-- R450: a perturbation register, by its offset from 0xF_0000, and the word written. -/
  | perturbationWrite (who : Writer) (off : BitVec 7) (w : Word)
  | parityInjection (who : Writer) (addr : BitVec 21) (space : Bool)
  | registerWrite (who : Writer) (addr : BitVec 20) (w : Word)
  | illegalInstruction (k : Core) (w : Word)
  | freezeEnd
  | coreHalt (k : Core)
  | coreResume (k : Core)
  | testEnChange (high : Bool)
  | tpshardreset (p : Port)
  | tsrcrecover (p : Port)
  | prSwapSourceOff (p : Port)
  | frsSignalEnd (p : Port)
  deriving DecidableEq, Repr

end Sys2Proof
end

