-- ==== Sys2Proof/Decode.lean ====
section
/-!
DEFINITION. What a word spells. The table of commands gives no row any bits, so no word spells a command; and the
decoding of Pletra instructions (R422-R424, Tables 14.5 and 14.7), which the cores fetch, with their encoding.
-/

namespace Sys2Proof

/-- No row of the table has bits of its own. -/
def decodeTableWord (_nbits _w : Nat) : Option Instr := none

namespace Pletra

/-- The Pletra instructions (Table 14.7), by the operands their words carry. -/
inductive Ins where
  | add (rd ra rb : Fin 16)
  | sub (rd ra rb : Fin 16)
  | and_ (rd ra rb : Fin 16)
  | or_ (rd ra rb : Fin 16)
  | xor (rd ra rb : Fin 16)
  | shl (rd ra rb : Fin 16)
  | shr (rd ra rb : Fin 16)
  | sar (rd ra rb : Fin 16)
  | ror (rd ra rb : Fin 16)
  | cmp (ra rb : Fin 16)
  | tst (ra rb : Fin 16)
  | addi (rd ra : Fin 16) (imm : BitVec 18)
  | andi (rd ra : Fin 16) (imm : BitVec 18)
  | ori (rd ra : Fin 16) (imm : BitVec 18)
  | xori (rd ra : Fin 16) (imm : BitVec 18)
  | shli (rd ra : Fin 16) (n : Fin 32)
  | shri (rd ra : Fin 16) (n : Fin 32)
  | sari (rd ra : Fin 16) (n : Fin 32)
  | rori (rd ra : Fin 16) (n : Fin 32)
  | cmpi (ra : Fin 16) (imm : BitVec 18)
  | lui (rd : Fin 16) (imm : BitVec 22)
  | clz (rd ra : Fin 16)
  | popc (rd ra : Fin 16)
  | bfx (rd ra : Fin 16) (pos lm1 : Fin 32)
  | bfxs (rd ra : Fin 16) (pos lm1 : Fin 32)
  | bfi (rd ra : Fin 16) (pos lm1 : Fin 32)
  | perm (rd ra : Fin 16) (sel : Byte)
  | sel (rd ra rb : Fin 16) (cond : Fin 15)
  | macq (ra rb : Fin 16)
  | ldw (rd ra : Fin 16) (imm : BitVec 18)
  | ldh (rd ra : Fin 16) (imm : BitVec 18)
  | ldhs (rd ra : Fin 16) (imm : BitVec 18)
  | ldb (rd ra : Fin 16) (imm : BitVec 18)
  | ldbs (rd ra : Fin 16) (imm : BitVec 18)
  | stw (rd ra : Fin 16) (imm : BitVec 18)
  | sth (rd ra : Fin 16) (imm : BitVec 18)
  | stb (rd ra : Fin 16) (imm : BitVec 18)
  | bset (bit : BitVec 13)
  | bclr (bit : BitVec 13)
  | btgl (bit : BitVec 13)
  | btst (bit : BitVec 13)
  | bbs (bit off : BitVec 13)
  | bbc (bit off : BitVec 13)
  | boprSet (ra : Fin 16)
  | boprClear (ra : Fin 16)
  | boprToggle (ra : Fin 16)
  | boprTest (ra : Fin 16)
  | boprRead (rd ra : Fin 16)
  | bcond (cond : Fin 15) (off : BitVec 22)
  | call (off : BitVec 26)
  | jr (ra : Fin 16)
  | jlr (rd ra : Fin 16)
  | mulu (ra rb : Fin 16)
  | muls (ra rb : Fin 16)
  | macs (ra rb : Fin 16)
  | mulq (ra rb : Fin 16)
  | mfc (rd : Fin 16) (creg : BitVec 6)
  | mtc (ra : Fin 16) (creg : BitVec 6)
  | svc (imm : BitVec 16)
  | eret
  | wfe
  | fence
  deriving DecidableEq, Repr

/-! ### Fields of the formats (Table 14.5) -/

def op (w : Word) : Nat := (w.extractLsb' 26 6).toNat
def rd (w : Word) : Fin 16 := (w.extractLsb' 22 4).toFin
def ra (w : Word) : Fin 16 := (w.extractLsb' 18 4).toFin
def rb (w : Word) : Fin 16 := (w.extractLsb' 14 4).toFin
def fn (w : Word) : BitVec 14 := w.extractLsb' 0 14
def imm18 (w : Word) : BitVec 18 := w.extractLsb' 0 18
def imm22 (w : Word) : BitVec 22 := w.extractLsb' 0 22
def off26 (w : Word) : BitVec 26 := w.extractLsb' 0 26
def bitNo (w : Word) : BitVec 13 := w.extractLsb' 13 13
def off13 (w : Word) : BitVec 13 := w.extractLsb' 0 13
def pos (w : Word) : Fin 32 := (w.extractLsb' 13 5).toFin
def lm1 (w : Word) : Fin 32 := (w.extractLsb' 8 5).toFin

/-- A shift amount n, with imm18[17:5] = 0 (R423). -/
def amount (w : Word) : Option (Fin 32) := if w.extractLsb' 5 13 = 0 then some (w.extractLsb' 0 5).toFin else none

/-- A condition; 15 is none (Table 14.6). -/
def cond (c : Fin 16) : Option (Fin 15) := if h : c.val < 15 then some ⟨c.val, h⟩ else none

/-- The instruction if its unused fields are 0 (R422). -/
def strict (bad : Bool) (i : Ins) : Option Ins := if bad then none else some i

/-- The register-to-register formats. -/
def decodeR (w : Word) : Option Ins :=
  let z := fn w == 0
  match op w with
  | 0x01 => strict (!z) (.add (rd w) (ra w) (rb w))
  | 0x02 => strict (!z) (.sub (rd w) (ra w) (rb w))
  | 0x03 => strict (!z) (.and_ (rd w) (ra w) (rb w))
  | 0x04 => strict (!z) (.or_ (rd w) (ra w) (rb w))
  | 0x05 => strict (!z) (.xor (rd w) (ra w) (rb w))
  | 0x06 => strict (!z) (.shl (rd w) (ra w) (rb w))
  | 0x07 => strict (!z) (.shr (rd w) (ra w) (rb w))
  | 0x08 => strict (!z) (.sar (rd w) (ra w) (rb w))
  | 0x09 => strict (!z) (.ror (rd w) (ra w) (rb w))
  | 0x0A => strict (!z || rd w != 0) (.cmp (ra w) (rb w))
  | 0x0B => strict (!z || rd w != 0) (.tst (ra w) (rb w))
  | 0x16 => strict (!z || rb w != 0) (.clz (rd w) (ra w))
  | 0x17 => strict (!z || rb w != 0) (.popc (rd w) (ra w))
  | 0x1C =>
    if w.extractLsb' 4 10 = 0 then (cond (w.extractLsb' 0 4).toFin).map fun c => .sel (rd w) (ra w) (rb w) c else none
  | 0x1D => strict (!z || rd w != 0) (.macq (ra w) (rb w))
  | 0x36 => strict (!z || rd w != 0 || rb w != 0) (.jr (ra w))
  | 0x37 => strict (!z || rb w != 0) (.jlr (rd w) (ra w))
  | 0x38 => strict (!z || rd w != 0) (.mulu (ra w) (rb w))
  | 0x39 => strict (!z || rd w != 0) (.muls (ra w) (rb w))
  | 0x3A => strict (!z || rd w != 0) (.macs (ra w) (rb w))
  | 0x3B => strict (!z || rd w != 0) (.mulq (ra w) (rb w))
  | _ => none

/-- BOPR: rb 0, and for a form that writes no register rd 0 (R422; log 47). -/
def decodeBopr (w : Word) : Option Ins :=
  if rb w ≠ 0 then none else
  match (fn w).toNat with
  | 0 => strict (rd w != 0) (.boprSet (ra w))
  | 1 => strict (rd w != 0) (.boprClear (ra w))
  | 2 => strict (rd w != 0) (.boprToggle (ra w))
  | 3 => strict (rd w != 0) (.boprTest (ra w))
  | 4 => some (.boprRead (rd w) (ra w))
  | _ => none

/-- The immediate, load and store, and field formats. -/
def decodeI (w : Word) : Option Ins :=
  match op w with
  | 0x0C => some (.addi (rd w) (ra w) (imm18 w))
  | 0x0D => some (.andi (rd w) (ra w) (imm18 w))
  | 0x0E => some (.ori (rd w) (ra w) (imm18 w))
  | 0x0F => some (.xori (rd w) (ra w) (imm18 w))
  | 0x10 => (amount w).map fun n => .shli (rd w) (ra w) n
  | 0x11 => (amount w).map fun n => .shri (rd w) (ra w) n
  | 0x12 => (amount w).map fun n => .sari (rd w) (ra w) n
  | 0x13 => (amount w).map fun n => .rori (rd w) (ra w) n
  | 0x14 => strict (rd w != 0) (.cmpi (ra w) (imm18 w))
  | 0x15 => some (.lui (rd w) (imm22 w))
  | 0x18 => strict (w.extractLsb' 0 8 != 0) (.bfx (rd w) (ra w) (pos w) (lm1 w))
  | 0x19 => strict (w.extractLsb' 0 8 != 0) (.bfxs (rd w) (ra w) (pos w) (lm1 w))
  | 0x1A => strict (w.extractLsb' 0 8 != 0) (.bfi (rd w) (ra w) (pos w) (lm1 w))
  | 0x1B => strict (w.extractLsb' 8 10 != 0) (.perm (rd w) (ra w) (w.extractLsb' 0 8))
  | 0x20 => some (.ldw (rd w) (ra w) (imm18 w))
  | 0x21 => some (.ldh (rd w) (ra w) (imm18 w))
  | 0x22 => some (.ldhs (rd w) (ra w) (imm18 w))
  | 0x23 => some (.ldb (rd w) (ra w) (imm18 w))
  | 0x24 => some (.ldbs (rd w) (ra w) (imm18 w))
  | 0x25 => some (.stw (rd w) (ra w) (imm18 w))
  | 0x26 => some (.sth (rd w) (ra w) (imm18 w))
  | 0x27 => some (.stb (rd w) (ra w) (imm18 w))
  | _ => none

/-- The bit, branch, control-register and system formats. -/
def decodeX (w : Word) : Option Ins :=
  match op w with
  | 0x2C => strict (off13 w != 0) (.bset (bitNo w))
  | 0x2D => strict (off13 w != 0) (.bclr (bitNo w))
  | 0x2E => strict (off13 w != 0) (.btgl (bitNo w))
  | 0x2F => strict (off13 w != 0) (.btst (bitNo w))
  | 0x30 => some (.bbs (bitNo w) (off13 w))
  | 0x31 => some (.bbc (bitNo w) (off13 w))
  | 0x33 => decodeBopr w
  | 0x34 => (cond (rd w)).map fun c => .bcond c (imm22 w)
  | 0x35 => some (.call (off26 w))
  | 0x3C => strict (ra w != 0 || w.extractLsb' 6 12 != 0) (.mfc (rd w) (w.extractLsb' 0 6))
  | 0x3D => strict (rd w != 0 || w.extractLsb' 6 12 != 0) (.mtc (ra w) (w.extractLsb' 0 6))
  | 0x3E =>
    if w.extractLsb' 16 6 ≠ 0 then none
    else
      let imm : BitVec 16 := w.extractLsb' 0 16
      match (rd w).val with
      | 0 => some (.svc imm)
      | 1 => strict (imm != 0) .eret
      | 2 => strict (imm != 0) .wfe
      | 3 => strict (imm != 0) .fence
      | _ => none
  | _ => none

/-- R423, R424: the instruction a word is; none raises ILLEGAL. -/
def decode (w : Word) : Option Ins :=
  match decodeR w with
  | some i => some i
  | none =>
    match decodeI w with
    | some i => some i
    | none => decodeX w

/-! ### Encoding (Table 14.5) -/

def encR (o : Nat) (d a b : Fin 16) (f : Nat) : Word :=
  BitVec.ofNat 32 (o * 2 ^ 26 + d.val * 2 ^ 22 + a.val * 2 ^ 18 + b.val * 2 ^ 14 + f)

def encI (o : Nat) (d a : Fin 16) (imm : Nat) : Word := BitVec.ofNat 32 (o * 2 ^ 26 + d.val * 2 ^ 22 + a.val * 2 ^ 18 + imm)

def encX (o : Nat) (bit off : BitVec 13) : Word := BitVec.ofNat 32 (o * 2 ^ 26 + bit.toNat * 2 ^ 13 + off.toNat)

/-- The word of an instruction. -/
def encode (i : Ins) : Word :=
  match i with
  | .add d a b => encR 0x01 d a b 0
  | .sub d a b => encR 0x02 d a b 0
  | .and_ d a b => encR 0x03 d a b 0
  | .or_ d a b => encR 0x04 d a b 0
  | .xor d a b => encR 0x05 d a b 0
  | .shl d a b => encR 0x06 d a b 0
  | .shr d a b => encR 0x07 d a b 0
  | .sar d a b => encR 0x08 d a b 0
  | .ror d a b => encR 0x09 d a b 0
  | .cmp a b => encR 0x0A 0 a b 0
  | .tst a b => encR 0x0B 0 a b 0
  | .addi d a v => encI 0x0C d a v.toNat
  | .andi d a v => encI 0x0D d a v.toNat
  | .ori d a v => encI 0x0E d a v.toNat
  | .xori d a v => encI 0x0F d a v.toNat
  | .shli d a n => encI 0x10 d a n.val
  | .shri d a n => encI 0x11 d a n.val
  | .sari d a n => encI 0x12 d a n.val
  | .rori d a n => encI 0x13 d a n.val
  | .cmpi a v => encI 0x14 0 a v.toNat
  | .lui d v => BitVec.ofNat 32 (0x15 * 2 ^ 26 + d.val * 2 ^ 22 + v.toNat)
  | .clz d a => encR 0x16 d a 0 0
  | .popc d a => encR 0x17 d a 0 0
  | .bfx d a p l => encI 0x18 d a (p.val * 2 ^ 13 + l.val * 2 ^ 8)
  | .bfxs d a p l => encI 0x19 d a (p.val * 2 ^ 13 + l.val * 2 ^ 8)
  | .bfi d a p l => encI 0x1A d a (p.val * 2 ^ 13 + l.val * 2 ^ 8)
  | .perm d a x => encI 0x1B d a x.toNat
  | .sel d a b c => encR 0x1C d a b c.val
  | .macq a b => encR 0x1D 0 a b 0
  | .ldw d a v => encI 0x20 d a v.toNat
  | .ldh d a v => encI 0x21 d a v.toNat
  | .ldhs d a v => encI 0x22 d a v.toNat
  | .ldb d a v => encI 0x23 d a v.toNat
  | .ldbs d a v => encI 0x24 d a v.toNat
  | .stw d a v => encI 0x25 d a v.toNat
  | .sth d a v => encI 0x26 d a v.toNat
  | .stb d a v => encI 0x27 d a v.toNat
  | .bset n => encX 0x2C n 0
  | .bclr n => encX 0x2D n 0
  | .btgl n => encX 0x2E n 0
  | .btst n => encX 0x2F n 0
  | .bbs n o => encX 0x30 n o
  | .bbc n o => encX 0x31 n o
  | .boprSet a => encR 0x33 0 a 0 0
  | .boprClear a => encR 0x33 0 a 0 1
  | .boprToggle a => encR 0x33 0 a 0 2
  | .boprTest a => encR 0x33 0 a 0 3
  | .boprRead d a => encR 0x33 d a 0 4
  | .bcond c o => BitVec.ofNat 32 (0x34 * 2 ^ 26 + c.val * 2 ^ 22 + o.toNat)
  | .call o => BitVec.ofNat 32 (0x35 * 2 ^ 26 + o.toNat)
  | .jr a => encR 0x36 0 a 0 0
  | .jlr d a => encR 0x37 d a 0 0
  | .mulu a b => encR 0x38 0 a b 0
  | .muls a b => encR 0x39 0 a b 0
  | .macs a b => encR 0x3A 0 a b 0
  | .mulq a b => encR 0x3B 0 a b 0
  | .mfc d c => encI 0x3C d 0 c.toNat
  | .mtc a c => encI 0x3D 0 a c.toNat
  | .svc v => encI 0x3E 0 0 v.toNat
  | .eret => encI 0x3E 1 0 0
  | .wfe => encI 0x3E 2 0 0
  | .fence => encI 0x3E 3 0 0

end Pletra
end Sys2Proof
end

