-- ==== Sys2Proof/Machine/Memory.lean ====
section
/-!
DEFINITION. Sparse memories in one canonical form: the SRAM, the keeper array, the bit spaces, the register
file and the recorder's images are lists of (address, value) pairs with strictly rising addresses, no pair
holding what an unlisted address reads as.
-/

namespace Sys2Proof.Machine

/-- A sparse memory of `w`-bit cells; `Mem 8` is a list of `Host.Cell`. -/
abbrev Mem (w : Nat) := List (Nat × BitVec w)

/-- What an address reads as: its listed value, or what `d` gives for an unlisted address. -/
def Mem.get {w : Nat} (d : Nat → BitVec w) : Mem w → Nat → BitVec w
  | [], a => d a
  | (b, v) :: m, a => if a = b then v else Mem.get d m a

/-- Take an address out of the list. -/
def Mem.erase {w : Nat} : Mem w → Nat → Mem w
  | [], _ => []
  | (b, v) :: m, a => if a = b then Mem.erase m a else (b, v) :: Mem.erase m a

/-- Put a pair before the first listed address above it. -/
def Mem.insert {w : Nat} : Mem w → Nat → BitVec w → Mem w
  | [], a, x => [(a, x)]
  | (b, v) :: m, a, x => if a < b then (a, x) :: (b, v) :: m else (b, v) :: Mem.insert m a x

/-- Write one cell, keeping the canonical form. -/
def Mem.set {w : Nat} (d : Nat → BitVec w) (m : Mem w) (a : Nat) (x : BitVec w) : Mem w :=
  if x = d a then Mem.erase m a else Mem.insert (Mem.erase m a) a x

/-- Every listed address is at or above `lo`, addresses rise strictly, and no value is the unlisted one. -/
def Mem.wfFrom {w : Nat} (d : Nat → BitVec w) : Nat → Mem w → Bool
  | _, [] => true
  | lo, (b, v) :: m => decide (lo ≤ b) && decide (v ≠ d b) && Mem.wfFrom d (b + 1) m

/-- The canonical form of a memory whose unlisted addresses read as `d`. -/
def Mem.wf {w : Nat} (d : Nat → BitVec w) (m : Mem w) : Bool := Mem.wfFrom d 0 m

/-- The little-endian word at a byte address (R16). -/
def Mem.word (d : Nat → Byte) (m : Mem 8) (a : Nat) : Word :=
  (m.get d (a + 3)) ++ (m.get d (a + 2)) ++ (m.get d (a + 1)) ++ (m.get d a)

/-- The little-endian halfword at a byte address (R16). -/
def Mem.half (d : Nat → Byte) (m : Mem 8) (a : Nat) : BitVec 16 :=
  (m.get d (a + 1)) ++ (m.get d a)

/-- Write bytes at rising addresses. -/
def Mem.setBytes (d : Nat → Byte) : Mem 8 → Nat → List Byte → Mem 8
  | m, _, [] => m
  | m, a, b :: bs => Mem.setBytes d (m.set d a b) (a + 1) bs

/-- The bytes of a word, lowest address first (R16). -/
def wordBytes (x : Word) : List Byte :=
  [x.extractLsb' 0 8, x.extractLsb' 8 8, x.extractLsb' 16 8, x.extractLsb' 24 8]

/-- Write a little-endian word. -/
def Mem.setWord (d : Nat → Byte) (m : Mem 8) (a : Nat) (x : Word) : Mem 8 :=
  m.setBytes d a (wordBytes x)

end Sys2Proof.Machine
end

