-- ==== Sys2Proof/Config.lean ====
section
/-!
DEFINITION. What one part of the family fixes, and the values the manual leaves open.
Every constant here is opaque: no proof can see what it is.
-/

namespace Sys2Proof.Config

/-- The `n`-th free value, `w` bits wide (log 1): what a rule calls undefined, or does not state. -/
opaque freeValue (w n : Nat) : BitVec w

/-- Identity bytes of the factory block (Table 13.3), offsets 0-31: silicon revision, lot, wafer, die. -/
opaque identity (offset : Nat) : Byte

/-- The calibration set as delivered (Table 13.5), offsets 0-0xBFF from 0x0_4000. -/
opaque calibration (offset : Nat) : Byte

/-- A boot ROM word, by byte offset from the ROM's base: the manual prints no ROM contents. -/
opaque bootRom (offset : Nat) : Byte

/-- How a quotient whose rounding the manual does not state is rounded: the number added to the floor. -/
opaque openRound (num den : Int) : Bool

/-- What a live field of `w` bits shows of a value that does not fit it (log 44). -/
opaque outOfField (w v : Nat) : BitVec w

/-- The mean of `i_sum` while fewer master valleys than R135 averages have passed: of the samples there are (log 12). -/
opaque partialMean (samples : List Int) : Rat

/-- The mean current of a channel without a sample in a carding period (R134), and the IAVG before it (log 12). -/
opaque emptyMean (channel : Nat) (last : Int) : Int

/-- The value, and the slot, of a spread counter of which no group is readable, by its base (R396; log 9). -/
opaque unreadable (base : Nat) : BitVec 32
opaque unreadableSlot (base : Nat) : Nat

/-- R434: the mailbox channels that the applet table grants each applet; the table's words are firmware's. -/
opaque appletChannel (applet channel : Nat) : Bool

/-- R237: the entries of the partner seed table in the CONST sections of an image, whose place and form are not stated
(log 23). -/
opaque partnerSeeds (sections : List (List Byte)) : List (List Byte)

end Sys2Proof.Config
end

