-- ==== Sys2Proof/Machine/RegName.lean ====
section
/-!
DEFINITION. The register space of Tables 1.7 to 15.6: the names of the registers.
Every class is one register of the manual; its instances are reached through two strides (R8).
-/

namespace Sys2Proof.Machine

/-- One constructor per register of the manual, named as the manual names it. -/
inductive RegName where
  | SUPPLY_STATUS
  | CLK_CFG
  | CLK_STATUS
  | PWR_DOM_REQ
  | PWR_DOM_STATUS
  | DORMANT_CFG
  | WAKE_CFG
  | WAKE_CAUSE
  | WAKE_TIMER
  | START_STATUS
  | START_CFG
  | START_REASON
  | START_HEALTH
  | START_CTRL
  | IMG_STATUS
  | IMG_GEN
  | IMG_LEN
  | FLASH_XFER_CTRL
  | FLASH_XFER_ADDR
  | FLASH_XFER_BUFk
  | PE_CHn_CTRL
  | PE_CHn_TOP
  | PE_CHn_PHASE
  | PE_CHn_CMP_DN
  | PE_CHn_CMP_UP
  | PE_CHn_TRIM
  | PE_CHn_MIN
  | PE_CHn_DT
  | PE_CHn_TRGk
  | PE_CHn_STATUS
  | PE_CHn_MINP_CNT
  | PE_CHn_POS
  | PE_CTRL
  | PE_LOAD_SEL
  | PE_STATUS
  | PE_SYNC_CFG
  | PE_CAL_CTRL
  | PE_CAL_CODE
  | PE_FAULT_MASK
  | PE_FAULT_STATUS
  | PE_ROTk
  | PE_CNT_CLR
  | PE_TRG_DROP
  | LP_Ln_CTRL
  | LP_Ln_MEMBERS
  | LP_Ln_VREF
  | LP_Ln_SLEW
  | LP_Ln_LL
  | LP_Ln_DUTY
  | LP_Ln_SENSE
  | LP_Ln_IMON
  | LP_Ln_CARD
  | LP_Ln_PHCFG
  | LP_Ln_FULL
  | LP_Ln_FF
  | LP_Ln_SETTLE
  | LP_Ln_FB
  | LP_Ln_PHTBLe
  | LP_Ln_BLK_CFG
  | LP_Ln_BLK_ACC
  | LP_Ln_BLK_CTRL
  | LP_Ln_STATUS
  | LP_Ln_VNOW
  | LP_Ln_IRAIL
  | LP_Ln_COEF
  | LP_CHn_I
  | LP_CHn_CARD
  | LP_BLK_USER
  | LP_BLK_BUF
  | VLK_n_CFG
  | VLK_n_MAP
  | VLK_n_LIMs
  | VLK_n_ALERTs
  | VLK_n_STATUS
  | VLK_n_ERR
  | VLK_n_LAST
  | VLK_n_LRESP
  | PROT_Ln_OV
  | PROT_Ln_SC
  | PROT_Ln_OL
  | PROT_Ln_OLCAP
  | PROT_Ln_UV
  | PROT_Ln_TRK
  | PROT_Ln_HIC
  | PROT_Ln_FB
  | PROT_Ln_RET
  | PROT_Ln_STATUS
  | PROT_Ln_LADDER
  | PROT_Ln_CLR
  | PROT_Ln_CNT
  | PD_Pp_CFG
  | PD_Pp_STATUS
  | PD_Pp_VI
  | PD_Pp_RDO
  | PD_Pp_PDO
  | PD_Pp_EVENT
  | PD_Pp_CTRL
  | PD_Pp_MODES
  | PD_Pp_CNT
  | PD_Pp_BATTk
  | PD_Pp_VDM_RXk
  | PD_Pp_VDM_RXCTL
  | PD_Pp_VDM_TXk
  | PD_Pp_VDM_TXCTL
  | PD_POLICY
  | PD_PMEM_CFG
  | PD_PMEM_STATUS
  | PD_PMEM_STAMP
  | PD_PMEM_CTRL
  | PD_PMEM_DATAk
  | PP_Pp_CFG
  | PP_Pp_FSW
  | PP_Pp_DUTY
  | PP_Pp_SRC
  | PP_Pp_PROT
  | PP_Pp_GATE
  | PP_Pp_BUD
  | PP_Pp_RUN
  | PP_Pp_STATUS
  | PP_Pp_MEAS
  | PP_VSYS
  | PP_VSYS_PROT
  | PP_BUDGET
  | PP_EFF
  | PP_RAILk
  | PP_BUD_STATUS
  | PP_DB
  | SEQ_Sn_CFG
  | SEQ_Sn_DLY
  | SEQ_Sn_WIN
  | SEQ_Sn_FILT
  | SEQ_Sn_STAT
  | SEQ_STk
  | SEQ_RSTm
  | SEQ_CTRL
  | SEQ_STATUS
  | SEQ_CFG
  | SEQ_FAULT
  | HP_TWk_CFG
  | HP_TWk_ADDR
  | HP_TWk_TIME
  | HP_TWk_STATUS
  | HP_TWk_CNT
  | HP_TWk_NOTIFY
  | HP_OWNERr
  | HP_PGn_VMAX
  | HP_PGn_STATh
  | MBX_CHn_DATA
  | MBX_CHn_ACK
  | MBX_CHn_CFG
  | MBX_FULLj
  | IRQ_CROWN
  | IRQ_VIEWk
  | IRQ_STATUS
  | IRQ_CAUSEg
  | IRQ_ENk_g
  | IRQ_CONT_STATUS
  | IRQ_CONT_CNT
  | IRQ_CONT_ADDR
  | TCV_INn_CFG
  | TCV_INn_AVG
  | TCV_INn_RES
  | TCV_INn_AVGRES
  | TCV_INn_OFS
  | TCV_INn_GAIN
  | TCV_CFG
  | TCV_CTRL
  | TCV_SCAN
  | TCV_STATUS
  | TCV_URGENT
  | TCV_URG_RES
  | TCV_AVG_NEW
  | TCV_AVG_OVR
  | TCV_SYSCAL
  | TCV_SYSCAL_FS
  | TCV_SYSCAL_ZERO
  | THM_CTRL
  | THM_THRESH
  | THM_HYST
  | THM_STATUS
  | THM_Ti
  | THM_MAX
  | THM_CALi
  | KPR_STATUS
  | KPR_CMD
  | KPR_WADDR
  | KPR_WLEN
  | KPR_RADDR
  | KPR_RDATA
  | KPR_RSTAT
  | KPR_PROT
  | KPR_WEARq
  | KPR_OPMIN
  | KPR_PCYC
  | KPR_ECC_CNT
  | KPR_WBUFk
  | REC_CFG
  | REC_CTRL
  | REC_STATUS
  | REC_SEQ
  | REC_GENr
  | REC_LOSTs
  | REC_SNAP
  | REC_EXTR
  | REC_FIRST
  | REC_LAST
  | REC_QUEUE
  | CORE_Ck_STATUS
  | CORE_Ck_FAULT
  | CORE_Ck_FPC
  | CORE_Ck_WDOG
  | CORE_Ck_TIMER
  | CORE_Ck_EVT_EN
  | CORE_Ck_EVT_PEND
  | CORE_Ck_RING
  | CORE_Ck_ENTRY
  | CORE_SBX_CFG
  | CORE_SBX_LEFT
  | CORE_SBX_FAULTS
  | LIVE_STAGE_CFG
  | LIVE_STAGE_PTR
  | LIVE_STAGE_DATA
  | LIVE_STAGE_CTRL
  | LIVE_HOk
  | LIVE_HO_CFG
  | LIVE_RETIRE
  | LIVE_RETRIM
  | LIVE_FLASH
  | LIVE_WTRIMn
  | LIVE_TTRIMn
  | TST_CFG
  | TST_KEY
  | TST_CTRL
  | TST_VLK
  | TST_MBXk
  | TST_JIT_SEL
  | TST_JIT
  | TST_TRG_SEL
  | TST_TRG
  | TST_TW
  | TST_KPR
  | TST_PAR
  | TST_LOG_IDX
  | TST_LOGi_MS
  | TST_LOGi_OFF
  | TST_LOGi_VAL
  deriving DecidableEq, Repr

end Sys2Proof.Machine
end

