-- ==== Sys2Proof/Machine/RegFields.lean ====
section
/-!
DEFINITION. The register space of Tables 1.7 to 15.6: where each register and each of its fields lies.
Every class is one register of the manual; its instances are reached through two strides (R8).
-/

namespace Sys2Proof.Machine

/-- A field: the address of its register, its lowest bit and its width. -/
structure Fld where
  addr : Nat
  lo : Nat
  width : Nat
  deriving DecidableEq, Repr

/-! ### System block, 0x0_0000 -/

/-- R46: SUPPLY_STATUS. -/
def A.SUPPLY_STATUS : Nat := 0x100
def F.SUPPLY_STATUS_HOUSE_OK : Fld := ⟨A.SUPPLY_STATUS, 0, 1⟩
def F.SUPPLY_STATUS_HOUSE_SRC : Fld := ⟨A.SUPPLY_STATUS, 1, 3⟩
def F.SUPPLY_STATUS_VIN_HV_OK : Fld := ⟨A.SUPPLY_STATUS, 4, 1⟩
def F.SUPPLY_STATUS_VBUS_OK : Fld := ⟨A.SUPPLY_STATUS, 5, 4⟩
def F.SUPPLY_STATUS_VDD_CORE_OK : Fld := ⟨A.SUPPLY_STATUS, 9, 1⟩
def F.SUPPLY_STATUS_VDDA_OK : Fld := ⟨A.SUPPLY_STATUS, 10, 1⟩
def F.SUPPLY_STATUS_VDDIO_A_OK : Fld := ⟨A.SUPPLY_STATUS, 11, 1⟩
def F.SUPPLY_STATUS_VDDIO_A_HI : Fld := ⟨A.SUPPLY_STATUS, 12, 1⟩
def F.SUPPLY_STATUS_VDDIO_B_OK : Fld := ⟨A.SUPPLY_STATUS, 13, 1⟩
def F.SUPPLY_STATUS_VDDIO_B_HI : Fld := ⟨A.SUPPLY_STATUS, 14, 1⟩
def F.SUPPLY_STATUS_VCONN_IN_OK : Fld := ⟨A.SUPPLY_STATUS, 15, 1⟩
def F.SUPPLY_STATUS_HOUSE_OP : Fld := ⟨A.SUPPLY_STATUS, 16, 1⟩

/-- R47: CLK_CFG. -/
def A.CLK_CFG : Nat := 0x104
def F.CLK_CFG_LF_SRC : Fld := ⟨A.CLK_CFG, 0, 1⟩
def F.CLK_CFG_XTAL_CL : Fld := ⟨A.CLK_CFG, 1, 4⟩
def F.CLK_CFG_SYNC_EN : Fld := ⟨A.CLK_CFG, 5, 1⟩
def F.CLK_CFG_PLL_FORCE : Fld := ⟨A.CLK_CFG, 6, 1⟩

/-- R48: CLK_STATUS. -/
def A.CLK_STATUS : Nat := 0x108
def F.CLK_STATUS_XTAL_RUN : Fld := ⟨A.CLK_STATUS, 0, 1⟩
def F.CLK_STATUS_XTAL_FAIL : Fld := ⟨A.CLK_STATUS, 1, 1⟩
def F.CLK_STATUS_FRC_RUN : Fld := ⟨A.CLK_STATUS, 2, 1⟩
def F.CLK_STATUS_PLL_LOCK : Fld := ⟨A.CLK_STATUS, 3, 1⟩
def F.CLK_STATUS_PLL_REF : Fld := ⟨A.CLK_STATUS, 4, 1⟩
def F.CLK_STATUS_SYNC_SEEN : Fld := ⟨A.CLK_STATUS, 5, 1⟩
def F.CLK_STATUS_PLL_LOST : Fld := ⟨A.CLK_STATUS, 6, 1⟩
def F.CLK_STATUS_CORE_CLK : Fld := ⟨A.CLK_STATUS, 7, 2⟩

/-- R49: PWR_DOM_REQ. -/
def A.PWR_DOM_REQ : Nat := 0x110
def F.PWR_DOM_REQ_REQ_D1 : Fld := ⟨A.PWR_DOM_REQ, 1, 1⟩
def F.PWR_DOM_REQ_REQ_D3_REQ_D5 : Fld := ⟨A.PWR_DOM_REQ, 3, 3⟩
def F.PWR_DOM_REQ_REQ_D7_REQ_D11 : Fld := ⟨A.PWR_DOM_REQ, 7, 5⟩

/-- R50: PWR_DOM_STATUS. -/
def A.PWR_DOM_STATUS : Nat := 0x114
def F.PWR_DOM_STATUS_ON : Fld := ⟨A.PWR_DOM_STATUS, 0, 12⟩

/-- R51: DORMANT_CFG. -/
def A.DORMANT_CFG : Nat := 0x118
def F.DORMANT_CFG_WATCH_Pp : Fld := ⟨A.DORMANT_CFG, 0, 8⟩
def F.DORMANT_CFG_DRP_SRC : Fld := ⟨A.DORMANT_CFG, 8, 3⟩
def F.DORMANT_CFG_RP_SEL : Fld := ⟨A.DORMANT_CFG, 11, 2⟩
def F.DORMANT_CFG_ENTER : Fld := ⟨A.DORMANT_CFG, 16, 1⟩
def F.DORMANT_CFG_REFUSED : Fld := ⟨A.DORMANT_CFG, 17, 1⟩
def F.DORMANT_CFG_REFUSE_WHY : Fld := ⟨A.DORMANT_CFG, 18, 3⟩

/-- R52: WAKE_CFG. -/
def A.WAKE_CFG : Nat := 0x11C
def F.WAKE_CFG_CC_P : Fld := ⟨A.WAKE_CFG, 0, 4⟩
def F.WAKE_CFG_VBUS_P : Fld := ⟨A.WAKE_CFG, 4, 4⟩
def F.WAKE_CFG_TW_P : Fld := ⟨A.WAKE_CFG, 8, 3⟩
def F.WAKE_CFG_SYNC : Fld := ⟨A.WAKE_CFG, 11, 1⟩
def F.WAKE_CFG_TIMER : Fld := ⟨A.WAKE_CFG, 12, 1⟩
def F.WAKE_CFG_VIN : Fld := ⟨A.WAKE_CFG, 13, 1⟩

/-- R52: WAKE_CAUSE. -/
def A.WAKE_CAUSE : Nat := 0x120
def F.WAKE_CAUSE_CC_P : Fld := ⟨A.WAKE_CAUSE, 0, 4⟩
def F.WAKE_CAUSE_VBUS_P : Fld := ⟨A.WAKE_CAUSE, 4, 4⟩
def F.WAKE_CAUSE_TW_P : Fld := ⟨A.WAKE_CAUSE, 8, 3⟩
def F.WAKE_CAUSE_SYNC : Fld := ⟨A.WAKE_CAUSE, 11, 1⟩
def F.WAKE_CAUSE_TIMER : Fld := ⟨A.WAKE_CAUSE, 12, 1⟩
def F.WAKE_CAUSE_VIN : Fld := ⟨A.WAKE_CAUSE, 13, 1⟩
def F.WAKE_CAUSE_RESETN : Fld := ⟨A.WAKE_CAUSE, 14, 1⟩

/-- R53: WAKE_TIMER. -/
def A.WAKE_TIMER : Nat := 0x124
def F.WAKE_TIMER_COUNT : Fld := ⟨A.WAKE_TIMER, 0, 24⟩

/-- R77: START_STATUS. -/
def A.START_STATUS : Nat := 0x200
def F.START_STATUS_PHASE : Fld := ⟨A.START_STATUS, 0, 4⟩
def F.START_STATUS_FAILS : Fld := ⟨A.START_STATUS, 4, 4⟩
def F.START_STATUS_COMPLETE : Fld := ⟨A.START_STATUS, 8, 1⟩
def F.START_STATUS_SEEDLING : Fld := ⟨A.START_STATUS, 9, 1⟩

/-- R78: START_CFG. -/
def A.START_CFG : Nat := 0x204
def F.START_CFG_DONE_STATE : Fld := ⟨A.START_CFG, 0, 6⟩
def F.START_CFG_START_LIMIT : Fld := ⟨A.START_CFG, 8, 3⟩
def F.START_CFG_START_TIMEOUT : Fld := ⟨A.START_CFG, 12, 8⟩
def F.START_CFG_FLASH_DPD : Fld := ⟨A.START_CFG, 20, 1⟩

/-- R79: START_REASON. -/
def A.START_REASON : Nat := 0x208
def F.START_REASON_REASON0 : Fld := ⟨A.START_REASON, 0, 8⟩
def F.START_REASON_REASON1 : Fld := ⟨A.START_REASON, 8, 8⟩
def F.START_REASON_REASON2 : Fld := ⟨A.START_REASON, 16, 8⟩

/-- R80: START_HEALTH. -/
def A.START_HEALTH : Nat := 0x20C
def F.START_HEALTH_HEALTHY : Fld := ⟨A.START_HEALTH, 0, 4⟩
def F.START_HEALTH_LOADED : Fld := ⟨A.START_HEALTH, 4, 4⟩

/-- R81: START_CTRL. -/
def A.START_CTRL : Nat := 0x210
def F.START_CTRL_KEY : Fld := ⟨A.START_CTRL, 0, 8⟩
def F.START_CTRL_RESTART_ORDERLY : Fld := ⟨A.START_CTRL, 8, 1⟩
def F.START_CTRL_RESTART_NOW : Fld := ⟨A.START_CTRL, 9, 1⟩
def F.START_CTRL_CLEAR_FAILS : Fld := ⟨A.START_CTRL, 10, 1⟩

/-- R82: IMG_STATUS. -/
def A.IMG_STATUS : Nat := 0x214
def F.IMG_STATUS_SLOT : Fld := ⟨A.IMG_STATUS, 0, 1⟩
def F.IMG_STATUS_ACCEPTED : Fld := ⟨A.IMG_STATUS, 1, 1⟩
def F.IMG_STATUS_A_STATE : Fld := ⟨A.IMG_STATUS, 2, 2⟩
def F.IMG_STATUS_B_STATE : Fld := ⟨A.IMG_STATUS, 4, 2⟩
def F.IMG_STATUS_A_WHY : Fld := ⟨A.IMG_STATUS, 6, 8⟩
def F.IMG_STATUS_B_WHY : Fld := ⟨A.IMG_STATUS, 14, 8⟩

/-- R82: IMG_GEN. -/
def A.IMG_GEN : Nat := 0x218
def F.IMG_GEN_GENERATION : Fld := ⟨A.IMG_GEN, 0, 32⟩

/-- R82: IMG_LEN. -/
def A.IMG_LEN : Nat := 0x21C
def F.IMG_LEN_LENGTH : Fld := ⟨A.IMG_LEN, 0, 32⟩

/-- R83: FLASH_XFER_CTRL. -/
def A.FLASH_XFER_CTRL : Nat := 0x220
def F.FLASH_XFER_CTRL_OPCODE : Fld := ⟨A.FLASH_XFER_CTRL, 0, 8⟩
def F.FLASH_XFER_CTRL_ADDR_BYTES : Fld := ⟨A.FLASH_XFER_CTRL, 8, 2⟩
def F.FLASH_XFER_CTRL_DUMMY : Fld := ⟨A.FLASH_XFER_CTRL, 10, 4⟩
def F.FLASH_XFER_CTRL_LEN : Fld := ⟨A.FLASH_XFER_CTRL, 14, 7⟩
def F.FLASH_XFER_CTRL_DIR : Fld := ⟨A.FLASH_XFER_CTRL, 21, 1⟩
def F.FLASH_XFER_CTRL_GO : Fld := ⟨A.FLASH_XFER_CTRL, 22, 1⟩
def F.FLASH_XFER_CTRL_ERR : Fld := ⟨A.FLASH_XFER_CTRL, 23, 1⟩

/-- R83: FLASH_XFER_ADDR. -/
def A.FLASH_XFER_ADDR : Nat := 0x224
def F.FLASH_XFER_ADDR_ADDR : Fld := ⟨A.FLASH_XFER_ADDR, 0, 32⟩

/-- R83: FLASH_XFER_BUFk. -/
def A.FLASH_XFER_BUFk (i : Nat) : Nat := 0x240 + 0x4 * i
def F.FLASH_XFER_BUFk_DATA (i : Nat) : Fld := ⟨A.FLASH_XFER_BUFk i, 0, 32⟩

/-! ### Engine block, 0x1_0000 -/

/-- R118: PE_CHn_CTRL. -/
def A.PE_CHn_CTRL (i : Nat) : Nat := 0x10000 + 0x100 * i
def F.PE_CHn_CTRL_EN (i : Nat) : Fld := ⟨A.PE_CHn_CTRL i, 0, 1⟩
def F.PE_CHn_CTRL_SRC (i : Nat) : Fld := ⟨A.PE_CHn_CTRL i, 1, 1⟩
def F.PE_CHn_CTRL_MINP (i : Nat) : Fld := ⟨A.PE_CHn_CTRL i, 2, 1⟩

/-- R118: PE_CHn_TOP. -/
def A.PE_CHn_TOP (i : Nat) : Nat := 0x10004 + 0x100 * i
def F.PE_CHn_TOP_TOP (i : Nat) : Fld := ⟨A.PE_CHn_TOP i, 0, 12⟩

/-- R118: PE_CHn_PHASE. -/
def A.PE_CHn_PHASE (i : Nat) : Nat := 0x10008 + 0x100 * i
def F.PE_CHn_PHASE_PHASE (i : Nat) : Fld := ⟨A.PE_CHn_PHASE i, 0, 13⟩

/-- R118: PE_CHn_CMP_DN. -/
def A.PE_CHn_CMP_DN (i : Nat) : Nat := 0x1000C + 0x100 * i
def F.PE_CHn_CMP_DN_CMP_DN (i : Nat) : Fld := ⟨A.PE_CHn_CMP_DN i, 0, 19⟩

/-- R118: PE_CHn_CMP_UP. -/
def A.PE_CHn_CMP_UP (i : Nat) : Nat := 0x10010 + 0x100 * i
def F.PE_CHn_CMP_UP_CMP_UP (i : Nat) : Fld := ⟨A.PE_CHn_CMP_UP i, 0, 19⟩

/-- R118: PE_CHn_TRIM. -/
def A.PE_CHn_TRIM (i : Nat) : Nat := 0x10014 + 0x100 * i
def F.PE_CHn_TRIM_TRIM (i : Nat) : Fld := ⟨A.PE_CHn_TRIM i, 0, 12⟩

/-- R118: PE_CHn_MIN. -/
def A.PE_CHn_MIN (i : Nat) : Nat := 0x10018 + 0x100 * i
def F.PE_CHn_MIN_MIN_ON (i : Nat) : Fld := ⟨A.PE_CHn_MIN i, 0, 13⟩
def F.PE_CHn_MIN_MIN_OFF (i : Nat) : Fld := ⟨A.PE_CHn_MIN i, 16, 13⟩

/-- R118: PE_CHn_DT. -/
def A.PE_CHn_DT (i : Nat) : Nat := 0x1001C + 0x100 * i
def F.PE_CHn_DT_DT_AB (i : Nat) : Fld := ⟨A.PE_CHn_DT i, 0, 7⟩
def F.PE_CHn_DT_DT_BA (i : Nat) : Fld := ⟨A.PE_CHn_DT i, 8, 7⟩

/-- R118: PE_CHn_TRGk. -/
def A.PE_CHn_TRGk (i j : Nat) : Nat := 0x10020 + 0x100 * i + 0x4 * j
def F.PE_CHn_TRGk_VALUE (i j : Nat) : Fld := ⟨A.PE_CHn_TRGk i j, 0, 19⟩
def F.PE_CHn_TRGk_DIR (i j : Nat) : Fld := ⟨A.PE_CHn_TRGk i j, 20, 2⟩
def F.PE_CHn_TRGk_DEST (i j : Nat) : Fld := ⟨A.PE_CHn_TRGk i j, 22, 1⟩

/-- R118: PE_CHn_STATUS. -/
def A.PE_CHn_STATUS (i : Nat) : Nat := 0x10030 + 0x100 * i
def F.PE_CHn_STATUS_RUN (i : Nat) : Fld := ⟨A.PE_CHn_STATUS i, 0, 1⟩
def F.PE_CHn_STATUS_PIN (i : Nat) : Fld := ⟨A.PE_CHn_STATUS i, 1, 2⟩
def F.PE_CHn_STATUS_SAFE (i : Nat) : Fld := ⟨A.PE_CHn_STATUS i, 3, 1⟩
def F.PE_CHn_STATUS_FAULT_HOLD (i : Nat) : Fld := ⟨A.PE_CHn_STATUS i, 4, 1⟩
def F.PE_CHn_STATUS_OV_LOW (i : Nat) : Fld := ⟨A.PE_CHn_STATUS i, 5, 1⟩
def F.PE_CHn_STATUS_SLOT (i : Nat) : Fld := ⟨A.PE_CHn_STATUS i, 6, 5⟩

/-- R118: PE_CHn_MINP_CNT. -/
def A.PE_CHn_MINP_CNT (i : Nat) : Nat := 0x10034 + 0x100 * i
def F.PE_CHn_MINP_CNT_DROP_CNT (i : Nat) : Fld := ⟨A.PE_CHn_MINP_CNT i, 0, 8⟩
def F.PE_CHn_MINP_CNT_STRETCH_CNT (i : Nat) : Fld := ⟨A.PE_CHn_MINP_CNT i, 8, 8⟩
def F.PE_CHn_MINP_CNT_SUPP_CNT (i : Nat) : Fld := ⟨A.PE_CHn_MINP_CNT i, 16, 8⟩
def F.PE_CHn_MINP_CNT_CLAMP_CNT (i : Nat) : Fld := ⟨A.PE_CHn_MINP_CNT i, 24, 8⟩

/-- R118: PE_CHn_POS. -/
def A.PE_CHn_POS (i : Nat) : Nat := 0x10038 + 0x100 * i
def F.PE_CHn_POS_POS (i : Nat) : Fld := ⟨A.PE_CHn_POS i, 0, 13⟩
def F.PE_CHn_POS_DOWN (i : Nat) : Fld := ⟨A.PE_CHn_POS i, 13, 1⟩

/-- R119: PE_CTRL. -/
def A.PE_CTRL : Nat := 0x18000
def F.PE_CTRL_ENGINE_EN : Fld := ⟨A.PE_CTRL, 0, 1⟩
def F.PE_CTRL_LOAD_ALL : Fld := ⟨A.PE_CTRL, 1, 1⟩
def F.PE_CTRL_CLR_TRG_DROP : Fld := ⟨A.PE_CTRL, 2, 1⟩

/-- R119: PE_LOAD_SEL. -/
def A.PE_LOAD_SEL : Nat := 0x18004
def F.PE_LOAD_SEL_SEL : Fld := ⟨A.PE_LOAD_SEL, 0, 32⟩

/-- R119: PE_STATUS. -/
def A.PE_STATUS : Nat := 0x18008
def F.PE_STATUS_CAL_W_OK : Fld := ⟨A.PE_STATUS, 0, 1⟩
def F.PE_STATUS_CAL_E_OK : Fld := ⟨A.PE_STATUS, 1, 1⟩
def F.PE_STATUS_FROZEN : Fld := ⟨A.PE_STATUS, 2, 1⟩
def F.PE_STATUS_SYNC_LOCKED : Fld := ⟨A.PE_STATUS, 3, 1⟩
def F.PE_STATUS_SYNC_BAD : Fld := ⟨A.PE_STATUS, 4, 1⟩
def F.PE_STATUS_SYNC_LOST : Fld := ⟨A.PE_STATUS, 5, 1⟩
def F.PE_STATUS_TOP0_REFUSED : Fld := ⟨A.PE_STATUS, 6, 1⟩
def F.PE_STATUS_SAFE_PLL : Fld := ⟨A.PE_STATUS, 7, 1⟩

/-- R119: PE_SYNC_CFG. -/
def A.PE_SYNC_CFG : Nat := 0x1800C
def F.PE_SYNC_CFG_PHASE : Fld := ⟨A.PE_SYNC_CFG, 0, 10⟩

/-- R119: PE_CAL_CTRL. -/
def A.PE_CAL_CTRL : Nat := 0x18010
def F.PE_CAL_CTRL_GO_W : Fld := ⟨A.PE_CAL_CTRL, 0, 1⟩
def F.PE_CAL_CTRL_GO_E : Fld := ⟨A.PE_CAL_CTRL, 1, 1⟩
def F.PE_CAL_CTRL_PERIOD : Fld := ⟨A.PE_CAL_CTRL, 8, 8⟩

/-- R119: PE_CAL_CODE. -/
def A.PE_CAL_CODE : Nat := 0x18014
def F.PE_CAL_CODE_CODE_W : Fld := ⟨A.PE_CAL_CODE, 0, 10⟩
def F.PE_CAL_CODE_CODE_E : Fld := ⟨A.PE_CAL_CODE, 16, 10⟩

/-- R119: PE_FAULT_MASK. -/
def A.PE_FAULT_MASK : Nat := 0x18018
def F.PE_FAULT_MASK_MASK : Fld := ⟨A.PE_FAULT_MASK, 0, 32⟩

/-- R119: PE_FAULT_STATUS. -/
def A.PE_FAULT_STATUS : Nat := 0x1801C
def F.PE_FAULT_STATUS_HELD : Fld := ⟨A.PE_FAULT_STATUS, 0, 32⟩

/-- R119: PE_ROTk. -/
def A.PE_ROTk (i : Nat) : Nat := 0x18020 + 0x4 * i
def F.PE_ROTk_PERIOD (i : Nat) : Fld := ⟨A.PE_ROTk i, 0, 16⟩
def F.PE_ROTk_DIR (i : Nat) : Fld := ⟨A.PE_ROTk i, 16, 1⟩

/-- R119: PE_CNT_CLR. -/
def A.PE_CNT_CLR : Nat := 0x18040
def F.PE_CNT_CLR_CLR : Fld := ⟨A.PE_CNT_CLR, 0, 32⟩

/-- R119: PE_TRG_DROP. -/
def A.PE_TRG_DROP : Nat := 0x18044
def F.PE_TRG_DROP_DROPS : Fld := ⟨A.PE_TRG_DROP, 0, 32⟩

/-! ### Loops block, 0x2_0000 -/

/-- R150: LP_Ln_CTRL. -/
def A.LP_Ln_CTRL (i : Nat) : Nat := 0x20000 + 0x400 * i
def F.LP_Ln_CTRL_FALLBACK_EN (i : Nat) : Fld := ⟨A.LP_Ln_CTRL i, 0, 1⟩
def F.LP_Ln_CTRL_SPARE_EN (i : Nat) : Fld := ⟨A.LP_Ln_CTRL i, 1, 1⟩
def F.LP_Ln_CTRL_STOP_MODE (i : Nat) : Fld := ⟨A.LP_Ln_CTRL i, 2, 2⟩
def F.LP_Ln_CTRL_CARD_EN (i : Nat) : Fld := ⟨A.LP_Ln_CTRL i, 4, 1⟩
def F.LP_Ln_CTRL_FULL_EN (i : Nat) : Fld := ⟨A.LP_Ln_CTRL i, 5, 1⟩
def F.LP_Ln_CTRL_FF_EN (i : Nat) : Fld := ⟨A.LP_Ln_CTRL i, 6, 1⟩
def F.LP_Ln_CTRL_SWAP (i : Nat) : Fld := ⟨A.LP_Ln_CTRL i, 8, 1⟩
def F.LP_Ln_CTRL_FB_FORCE (i : Nat) : Fld := ⟨A.LP_Ln_CTRL i, 9, 1⟩
def F.LP_Ln_CTRL_FB_RET (i : Nat) : Fld := ⟨A.LP_Ln_CTRL i, 10, 1⟩

/-- R150: LP_Ln_MEMBERS. -/
def A.LP_Ln_MEMBERS (i : Nat) : Nat := 0x20004 + 0x400 * i
def F.LP_Ln_MEMBERS_FIRST (i : Nat) : Fld := ⟨A.LP_Ln_MEMBERS i, 0, 5⟩
def F.LP_Ln_MEMBERS_COUNT (i : Nat) : Fld := ⟨A.LP_Ln_MEMBERS i, 5, 5⟩
def F.LP_Ln_MEMBERS_SPARE (i : Nat) : Fld := ⟨A.LP_Ln_MEMBERS i, 11, 5⟩

/-- R150: LP_Ln_VREF. -/
def A.LP_Ln_VREF (i : Nat) : Nat := 0x20008 + 0x400 * i
def F.LP_Ln_VREF_VREF (i : Nat) : Fld := ⟨A.LP_Ln_VREF i, 0, 11⟩

/-- R150: LP_Ln_SLEW. -/
def A.LP_Ln_SLEW (i : Nat) : Nat := 0x2000C + 0x400 * i
def F.LP_Ln_SLEW_SLEW (i : Nat) : Fld := ⟨A.LP_Ln_SLEW i, 0, 8⟩
def F.LP_Ln_SLEW_SS_SLEW (i : Nat) : Fld := ⟨A.LP_Ln_SLEW i, 8, 8⟩
def F.LP_Ln_SLEW_STOP_SLEW (i : Nat) : Fld := ⟨A.LP_Ln_SLEW i, 16, 8⟩

/-- R150: LP_Ln_LL. -/
def A.LP_Ln_LL (i : Nat) : Nat := 0x20010 + 0x400 * i
def F.LP_Ln_LL_RLL (i : Nat) : Fld := ⟨A.LP_Ln_LL i, 0, 9⟩
def F.LP_Ln_LL_LL_AVG (i : Nat) : Fld := ⟨A.LP_Ln_LL i, 9, 3⟩

/-- R150: LP_Ln_DUTY. -/
def A.LP_Ln_DUTY (i : Nat) : Nat := 0x20014 + 0x400 * i
def F.LP_Ln_DUTY_VIN_NOM (i : Nat) : Fld := ⟨A.LP_Ln_DUTY i, 0, 12⟩
def F.LP_Ln_DUTY_DMAX (i : Nat) : Fld := ⟨A.LP_Ln_DUTY i, 16, 16⟩

/-- R150: LP_Ln_SENSE. -/
def A.LP_Ln_SENSE (i : Nat) : Nat := 0x20018 + 0x400 * i
def F.LP_Ln_SENSE_WAVG (i : Nat) : Fld := ⟨A.LP_Ln_SENSE i, 0, 2⟩
def F.LP_Ln_SENSE_MARK (i : Nat) : Fld := ⟨A.LP_Ln_SENSE i, 2, 1⟩
def F.LP_Ln_SENSE_STG_DELAY (i : Nat) : Fld := ⟨A.LP_Ln_SENSE i, 8, 8⟩

/-- R150: LP_Ln_IMON. -/
def A.LP_Ln_IMON (i : Nat) : Nat := 0x2001C + 0x400 * i
def F.LP_Ln_IMON_ZERO (i : Nat) : Fld := ⟨A.LP_Ln_IMON i, 0, 12⟩
def F.LP_Ln_IMON_GAIN (i : Nat) : Fld := ⟨A.LP_Ln_IMON i, 16, 12⟩

/-- R150: LP_Ln_CARD. -/
def A.LP_Ln_CARD (i : Nat) : Nat := 0x20020 + 0x400 * i
def F.LP_Ln_CARD_PERIOD (i : Nat) : Fld := ⟨A.LP_Ln_CARD i, 0, 8⟩
def F.LP_Ln_CARD_SHIFT (i : Nat) : Fld := ⟨A.LP_Ln_CARD i, 8, 4⟩
def F.LP_Ln_CARD_LIM (i : Nat) : Fld := ⟨A.LP_Ln_CARD i, 16, 8⟩

/-- R150: LP_Ln_PHCFG. -/
def A.LP_Ln_PHCFG (i : Nat) : Nat := 0x20024 + 0x400 * i
def F.LP_Ln_PHCFG_ENTRIES (i : Nat) : Fld := ⟨A.LP_Ln_PHCFG i, 0, 4⟩
def F.LP_Ln_PHCFG_PH_AVG (i : Nat) : Fld := ⟨A.LP_Ln_PHCFG i, 4, 4⟩
def F.LP_Ln_PHCFG_PH_FLOOR (i : Nat) : Fld := ⟨A.LP_Ln_PHCFG i, 8, 5⟩

/-- R150: LP_Ln_FULL. -/
def A.LP_Ln_FULL (i : Nat) : Nat := 0x20028 + 0x400 * i
def F.LP_Ln_FULL_FULL_ERR (i : Nat) : Fld := ⟨A.LP_Ln_FULL i, 0, 8⟩
def F.LP_Ln_FULL_FULL_DI (i : Nat) : Fld := ⟨A.LP_Ln_FULL i, 8, 8⟩
def F.LP_Ln_FULL_FULL_HOLD (i : Nat) : Fld := ⟨A.LP_Ln_FULL i, 16, 16⟩

/-- R150: LP_Ln_FF. -/
def A.LP_Ln_FF (i : Nat) : Nat := 0x2002C + 0x400 * i
def F.LP_Ln_FF_KFF (i : Nat) : Fld := ⟨A.LP_Ln_FF i, 0, 16⟩
def F.LP_Ln_FF_FF_HOLD (i : Nat) : Fld := ⟨A.LP_Ln_FF i, 16, 8⟩
def F.LP_Ln_FF_FULL_MIN_DI (i : Nat) : Fld := ⟨A.LP_Ln_FF i, 24, 8⟩

/-- R150: LP_Ln_SETTLE. -/
def A.LP_Ln_SETTLE (i : Nat) : Nat := 0x20030 + 0x400 * i
def F.LP_Ln_SETTLE_BAND (i : Nat) : Fld := ⟨A.LP_Ln_SETTLE i, 0, 8⟩
def F.LP_Ln_SETTLE_TIME (i : Nat) : Fld := ⟨A.LP_Ln_SETTLE i, 8, 8⟩

/-- R150: LP_Ln_FB. -/
def A.LP_Ln_FB (i : Nat) : Nat := 0x20034 + 0x400 * i
def F.LP_Ln_FB_FB_DAC (i : Nat) : Fld := ⟨A.LP_Ln_FB i, 0, 10⟩
def F.LP_Ln_FB_FB_TRACK (i : Nat) : Fld := ⟨A.LP_Ln_FB i, 10, 1⟩
def F.LP_Ln_FB_FB_TON (i : Nat) : Fld := ⟨A.LP_Ln_FB i, 12, 8⟩
def F.LP_Ln_FB_FB_TOFF (i : Nat) : Fld := ⟨A.LP_Ln_FB i, 20, 8⟩

/-- R150: LP_Ln_PHTBLe. -/
def A.LP_Ln_PHTBLe (i j : Nat) : Nat := 0x20040 + 0x400 * i + 0x4 * j
def F.LP_Ln_PHTBLe_THRESH (i j : Nat) : Fld := ⟨A.LP_Ln_PHTBLe i j, 0, 10⟩
def F.LP_Ln_PHTBLe_HYST (i j : Nat) : Fld := ⟨A.LP_Ln_PHTBLe i j, 10, 8⟩
def F.LP_Ln_PHTBLe_NPH (i j : Nat) : Fld := ⟨A.LP_Ln_PHTBLe i j, 18, 5⟩
def F.LP_Ln_PHTBLe_CSET (i j : Nat) : Fld := ⟨A.LP_Ln_PHTBLe i j, 24, 2⟩

/-- R150: LP_Ln_BLK_CFG. -/
def A.LP_Ln_BLK_CFG (i : Nat) : Nat := 0x20060 + 0x400 * i
def F.LP_Ln_BLK_CFG_AMP (i : Nat) : Fld := ⟨A.LP_Ln_BLK_CFG i, 0, 3⟩
def F.LP_Ln_BLK_CFG_LEN (i : Nat) : Fld := ⟨A.LP_Ln_BLK_CFG i, 3, 1⟩
def F.LP_Ln_BLK_CFG_IMAX (i : Nat) : Fld := ⟨A.LP_Ln_BLK_CFG i, 8, 8⟩
def F.LP_Ln_BLK_CFG_XO (i : Nat) : Fld := ⟨A.LP_Ln_BLK_CFG i, 16, 8⟩
def F.LP_Ln_BLK_CFG_PM (i : Nat) : Fld := ⟨A.LP_Ln_BLK_CFG i, 24, 8⟩

/-- R150: LP_Ln_BLK_ACC. -/
def A.LP_Ln_BLK_ACC (i : Nat) : Nat := 0x20064 + 0x400 * i
def F.LP_Ln_BLK_ACC_RESID (i : Nat) : Fld := ⟨A.LP_Ln_BLK_ACC i, 0, 8⟩
def F.LP_Ln_BLK_ACC_XO_TOL (i : Nat) : Fld := ⟨A.LP_Ln_BLK_ACC i, 8, 8⟩
def F.LP_Ln_BLK_ACC_PM_MIN (i : Nat) : Fld := ⟨A.LP_Ln_BLK_ACC i, 16, 8⟩
def F.LP_Ln_BLK_ACC_GM_MIN (i : Nat) : Fld := ⟨A.LP_Ln_BLK_ACC i, 24, 8⟩

/-- R150: LP_Ln_BLK_CTRL. -/
def A.LP_Ln_BLK_CTRL (i : Nat) : Nat := 0x20068 + 0x400 * i
def F.LP_Ln_BLK_CTRL_GO (i : Nat) : Fld := ⟨A.LP_Ln_BLK_CTRL i, 0, 1⟩
def F.LP_Ln_BLK_CTRL_RUN (i : Nat) : Fld := ⟨A.LP_Ln_BLK_CTRL i, 1, 1⟩
def F.LP_Ln_BLK_CTRL_RESULT (i : Nat) : Fld := ⟨A.LP_Ln_BLK_CTRL i, 4, 4⟩
def F.LP_Ln_BLK_CTRL_VERDICT (i : Nat) : Fld := ⟨A.LP_Ln_BLK_CTRL i, 8, 4⟩

/-- R150: LP_Ln_STATUS. -/
def A.LP_Ln_STATUS (i : Nat) : Nat := 0x20080 + 0x400 * i
def F.LP_Ln_STATUS_STATE (i : Nat) : Fld := ⟨A.LP_Ln_STATUS i, 0, 3⟩
def F.LP_Ln_STATUS_NACT (i : Nat) : Fld := ⟨A.LP_Ln_STATUS i, 3, 5⟩
def F.LP_Ln_STATUS_BANK (i : Nat) : Fld := ⟨A.LP_Ln_STATUS i, 8, 1⟩
def F.LP_Ln_STATUS_CSET (i : Nat) : Fld := ⟨A.LP_Ln_STATUS i, 9, 2⟩
def F.LP_Ln_STATUS_SETTLED (i : Nat) : Fld := ⟨A.LP_Ln_STATUS i, 11, 1⟩
def F.LP_Ln_STATUS_FULLING (i : Nat) : Fld := ⟨A.LP_Ln_STATUS i, 12, 1⟩
def F.LP_Ln_STATUS_FF_ACT (i : Nat) : Fld := ⟨A.LP_Ln_STATUS i, 13, 1⟩
def F.LP_Ln_STATUS_WSAT (i : Nat) : Fld := ⟨A.LP_Ln_STATUS i, 14, 1⟩
def F.LP_Ln_STATUS_COEF_DISC (i : Nat) : Fld := ⟨A.LP_Ln_STATUS i, 15, 1⟩

/-- R150: LP_Ln_VNOW. -/
def A.LP_Ln_VNOW (i : Nat) : Nat := 0x20084 + 0x400 * i
def F.LP_Ln_VNOW_VREF_NOW (i : Nat) : Fld := ⟨A.LP_Ln_VNOW i, 0, 11⟩
def F.LP_Ln_VNOW_VT (i : Nat) : Fld := ⟨A.LP_Ln_VNOW i, 16, 16⟩

/-- R150: LP_Ln_IRAIL. -/
def A.LP_Ln_IRAIL (i : Nat) : Nat := 0x20088 + 0x400 * i
def F.LP_Ln_IRAIL_I_LL (i : Nat) : Fld := ⟨A.LP_Ln_IRAIL i, 0, 16⟩
def F.LP_Ln_IRAIL_I_PH (i : Nat) : Fld := ⟨A.LP_Ln_IRAIL i, 16, 16⟩

/-- R151: LP_Ln_COEF. -/
def A.LP_Ln_COEF (i j : Nat) : Nat := 0x20100 + 0x400 * i + 0x4 * j
def F.LP_Ln_COEF_CODE (i j : Nat) : Fld := ⟨A.LP_Ln_COEF i j, 0, 20⟩

/-- R152: LP_CHn_I. -/
def A.LP_CHn_I (i : Nat) : Nat := 0x28000 + 0x4 * i
def F.LP_CHn_I_IAVG (i : Nat) : Fld := ⟨A.LP_CHn_I i, 0, 16⟩
def F.LP_CHn_I_ILAST (i : Nat) : Fld := ⟨A.LP_CHn_I i, 16, 16⟩

/-- R152: LP_CHn_CARD. -/
def A.LP_CHn_CARD (i : Nat) : Nat := 0x28080 + 0x4 * i
def F.LP_CHn_CARD_TRIM (i : Nat) : Fld := ⟨A.LP_CHn_CARD i, 0, 10⟩
def F.LP_CHn_CARD_RETIRED (i : Nat) : Fld := ⟨A.LP_CHn_CARD i, 16, 1⟩
def F.LP_CHn_CARD_JOINED (i : Nat) : Fld := ⟨A.LP_CHn_CARD i, 17, 1⟩

/-- R152: LP_BLK_USER. -/
def A.LP_BLK_USER : Nat := 0x28100
def F.LP_BLK_USER_LOOP : Fld := ⟨A.LP_BLK_USER, 0, 4⟩

/-- R152: LP_BLK_BUF. -/
def A.LP_BLK_BUF (i : Nat) : Nat := 0x29000 + 0x4 * i
def F.LP_BLK_BUF_E (i : Nat) : Fld := ⟨A.LP_BLK_BUF i, 0, 16⟩
def F.LP_BLK_BUF_D (i : Nat) : Fld := ⟨A.LP_BLK_BUF i, 16, 16⟩

/-! ### Link block, 0x3_0000 -/

/-- R178: VLK_n_CFG. -/
def A.VLK_n_CFG (i : Nat) : Nat := 0x30000 + 0x100 * i
def F.VLK_n_CFG_EN (i : Nat) : Fld := ⟨A.VLK_n_CFG i, 0, 1⟩
def F.VLK_n_CFG_ATTN_W (i : Nat) : Fld := ⟨A.VLK_n_CFG i, 1, 6⟩
def F.VLK_n_CFG_CNT_CLR (i : Nat) : Fld := ⟨A.VLK_n_CFG i, 7, 1⟩
def F.VLK_n_CFG_ATTN_REP (i : Nat) : Fld := ⟨A.VLK_n_CFG i, 8, 8⟩
def F.VLK_n_CFG_ABORT (i : Nat) : Fld := ⟨A.VLK_n_CFG i, 16, 4⟩
def F.VLK_n_CFG_ATTN_MASK (i : Nat) : Fld := ⟨A.VLK_n_CFG i, 24, 7⟩

/-- R178: VLK_n_MAP. -/
def A.VLK_n_MAP (i : Nat) : Nat := 0x30004 + 0x100 * i
def F.VLK_n_MAP_LOOP0 (i : Nat) : Fld := ⟨A.VLK_n_MAP i, 0, 4⟩
def F.VLK_n_MAP_OFF_EN0 (i : Nat) : Fld := ⟨A.VLK_n_MAP i, 4, 1⟩
def F.VLK_n_MAP_LOOP1 (i : Nat) : Fld := ⟨A.VLK_n_MAP i, 8, 4⟩
def F.VLK_n_MAP_OFF_EN1 (i : Nat) : Fld := ⟨A.VLK_n_MAP i, 12, 1⟩

/-- R178: VLK_n_LIMs. -/
def A.VLK_n_LIMs (i j : Nat) : Nat := 0x30008 + 0x100 * i + 0x4 * j
def F.VLK_n_LIMs_VMIN (i j : Nat) : Fld := ⟨A.VLK_n_LIMs i j, 0, 11⟩
def F.VLK_n_LIMs_VMAX (i j : Nat) : Fld := ⟨A.VLK_n_LIMs i j, 16, 11⟩

/-- R178: VLK_n_ALERTs. -/
def A.VLK_n_ALERTs (i j : Nat) : Nat := 0x30010 + 0x100 * i + 0x4 * j
def F.VLK_n_ALERTs_CAUSE (i j : Nat) : Fld := ⟨A.VLK_n_ALERTs i j, 0, 7⟩

/-- R178: VLK_n_STATUS. -/
def A.VLK_n_STATUS (i : Nat) : Nat := 0x30018 + 0x100 * i
def F.VLK_n_STATUS_MAP_CONFLICT (i : Nat) : Fld := ⟨A.VLK_n_STATUS i, 0, 1⟩
def F.VLK_n_STATUS_IDLE (i : Nat) : Fld := ⟨A.VLK_n_STATUS i, 1, 1⟩
def F.VLK_n_STATUS_ATTN (i : Nat) : Fld := ⟨A.VLK_n_STATUS i, 2, 1⟩
def F.VLK_n_STATUS_LNK_SETTLED (i : Nat) : Fld := ⟨A.VLK_n_STATUS i, 3, 2⟩
def F.VLK_n_STATUS_TARGET_OWN (i : Nat) : Fld := ⟨A.VLK_n_STATUS i, 5, 2⟩
def F.VLK_n_STATUS_NOTICE (i : Nat) : Fld := ⟨A.VLK_n_STATUS i, 7, 2⟩

/-- R178: VLK_n_ERR. -/
def A.VLK_n_ERR (i : Nat) : Nat := 0x3001C + 0x100 * i
def F.VLK_n_ERR_CRC_CNT (i : Nat) : Fld := ⟨A.VLK_n_ERR i, 0, 8⟩
def F.VLK_n_ERR_ABORT_CNT (i : Nat) : Fld := ⟨A.VLK_n_ERR i, 8, 8⟩
def F.VLK_n_ERR_REJ_CNT (i : Nat) : Fld := ⟨A.VLK_n_ERR i, 16, 8⟩
def F.VLK_n_ERR_DUP_CNT (i : Nat) : Fld := ⟨A.VLK_n_ERR i, 24, 8⟩

/-- R178: VLK_n_LAST. -/
def A.VLK_n_LAST (i : Nat) : Nat := 0x30020 + 0x100 * i
def F.VLK_n_LAST_FRAME (i : Nat) : Fld := ⟨A.VLK_n_LAST i, 0, 32⟩

/-- R178: VLK_n_LRESP. -/
def A.VLK_n_LRESP (i : Nat) : Nat := 0x30024 + 0x100 * i
def F.VLK_n_LRESP_RESP (i : Nat) : Fld := ⟨A.VLK_n_LRESP i, 0, 16⟩

/-! ### Protection block, 0x4_0000 -/

/-- R206: PROT_Ln_OV. -/
def A.PROT_Ln_OV (i : Nat) : Nat := 0x40000 + 0x100 * i
def F.PROT_Ln_OV_OV_ABS (i : Nat) : Fld := ⟨A.PROT_Ln_OV i, 0, 10⟩
def F.PROT_Ln_OV_OV_OFS (i : Nat) : Fld := ⟨A.PROT_Ln_OV i, 10, 6⟩

/-- R206: PROT_Ln_SC. -/
def A.PROT_Ln_SC (i : Nat) : Nat := 0x40004 + 0x100 * i
def F.PROT_Ln_SC_SC_LIM (i : Nat) : Fld := ⟨A.PROT_Ln_SC i, 0, 8⟩
def F.PROT_Ln_SC_SC_BLANK (i : Nat) : Fld := ⟨A.PROT_Ln_SC i, 8, 4⟩
def F.PROT_Ln_SC_SC_COUNT (i : Nat) : Fld := ⟨A.PROT_Ln_SC i, 12, 4⟩

/-- R206: PROT_Ln_OL. -/
def A.PROT_Ln_OL (i : Nat) : Nat := 0x40008 + 0x100 * i
def F.PROT_Ln_OL_OL_LIM (i : Nat) : Fld := ⟨A.PROT_Ln_OL i, 0, 10⟩
def F.PROT_Ln_OL_OL_T (i : Nat) : Fld := ⟨A.PROT_Ln_OL i, 10, 8⟩
def F.PROT_Ln_OL_OL_COUNT (i : Nat) : Fld := ⟨A.PROT_Ln_OL i, 18, 4⟩

/-- R206: PROT_Ln_OLCAP. -/
def A.PROT_Ln_OLCAP (i : Nat) : Nat := 0x4000C + 0x100 * i
def F.PROT_Ln_OLCAP_CAP (i : Nat) : Fld := ⟨A.PROT_Ln_OLCAP i, 0, 10⟩
def F.PROT_Ln_OLCAP_OL_EFF (i : Nat) : Fld := ⟨A.PROT_Ln_OLCAP i, 16, 10⟩

/-- R206: PROT_Ln_UV. -/
def A.PROT_Ln_UV (i : Nat) : Nat := 0x40010 + 0x100 * i
def F.PROT_Ln_UV_UV_OFS (i : Nat) : Fld := ⟨A.PROT_Ln_UV i, 0, 7⟩
def F.PROT_Ln_UV_UV_TIME (i : Nat) : Fld := ⟨A.PROT_Ln_UV i, 8, 8⟩
def F.PROT_Ln_UV_UV_ACT (i : Nat) : Fld := ⟨A.PROT_Ln_UV i, 16, 1⟩

/-- R206: PROT_Ln_TRK. -/
def A.PROT_Ln_TRK (i : Nat) : Nat := 0x40014 + 0x100 * i
def F.PROT_Ln_TRK_TRACK_ERR (i : Nat) : Fld := ⟨A.PROT_Ln_TRK i, 0, 7⟩
def F.PROT_Ln_TRK_TRACK_TIME (i : Nat) : Fld := ⟨A.PROT_Ln_TRK i, 8, 8⟩

/-- R206: PROT_Ln_HIC. -/
def A.PROT_Ln_HIC (i : Nat) : Nat := 0x40018 + 0x100 * i
def F.PROT_Ln_HIC_HICCUP_OFF (i : Nat) : Fld := ⟨A.PROT_Ln_HIC i, 0, 8⟩
def F.PROT_Ln_HIC_HICCUP_MAX (i : Nat) : Fld := ⟨A.PROT_Ln_HIC i, 8, 3⟩
def F.PROT_Ln_HIC_HICCUP_CLEAN (i : Nat) : Fld := ⟨A.PROT_Ln_HIC i, 16, 8⟩

/-- R206: PROT_Ln_FB. -/
def A.PROT_Ln_FB (i : Nat) : Nat := 0x4001C + 0x100 * i
def F.PROT_Ln_FB_I_FB_MAX (i : Nat) : Fld := ⟨A.PROT_Ln_FB i, 0, 8⟩
def F.PROT_Ln_FB_I_FB_MIN (i : Nat) : Fld := ⟨A.PROT_Ln_FB i, 8, 8⟩

/-- R206: PROT_Ln_RET. -/
def A.PROT_Ln_RET (i : Nat) : Nat := 0x40020 + 0x100 * i
def F.PROT_Ln_RET_RET_EN (i : Nat) : Fld := ⟨A.PROT_Ln_RET i, 0, 1⟩
def F.PROT_Ln_RET_STG_N (i : Nat) : Fld := ⟨A.PROT_Ln_RET i, 1, 4⟩
def F.PROT_Ln_RET_DIV_EN (i : Nat) : Fld := ⟨A.PROT_Ln_RET i, 5, 1⟩
def F.PROT_Ln_RET_DIV_LIM (i : Nat) : Fld := ⟨A.PROT_Ln_RET i, 6, 8⟩
def F.PROT_Ln_RET_DIV_N (i : Nat) : Fld := ⟨A.PROT_Ln_RET i, 14, 4⟩

/-- R206: PROT_Ln_STATUS. -/
def A.PROT_Ln_STATUS (i : Nat) : Nat := 0x40040 + 0x100 * i
def F.PROT_Ln_STATUS_OV_LATCH (i : Nat) : Fld := ⟨A.PROT_Ln_STATUS i, 0, 1⟩
def F.PROT_Ln_STATUS_HICCUP (i : Nat) : Fld := ⟨A.PROT_Ln_STATUS i, 1, 1⟩
def F.PROT_Ln_STATUS_LATCHED (i : Nat) : Fld := ⟨A.PROT_Ln_STATUS i, 2, 1⟩
def F.PROT_Ln_STATUS_HIC_CNT (i : Nat) : Fld := ⟨A.PROT_Ln_STATUS i, 3, 3⟩
def F.PROT_Ln_STATUS_OL_OVER (i : Nat) : Fld := ⟨A.PROT_Ln_STATUS i, 6, 1⟩
def F.PROT_Ln_STATUS_FOLDING (i : Nat) : Fld := ⟨A.PROT_Ln_STATUS i, 7, 1⟩
def F.PROT_Ln_STATUS_LATCH_CAUSE (i : Nat) : Fld := ⟨A.PROT_Ln_STATUS i, 8, 8⟩

/-- R206: PROT_Ln_LADDER. -/
def A.PROT_Ln_LADDER (i : Nat) : Nat := 0x40044 + 0x100 * i
def F.PROT_Ln_LADDER_SEV (i : Nat) : Fld := ⟨A.PROT_Ln_LADDER i, 0, 3⟩
def F.PROT_Ln_LADDER_CAUSE (i : Nat) : Fld := ⟨A.PROT_Ln_LADDER i, 8, 8⟩
def F.PROT_Ln_LADDER_NEST (i : Nat) : Fld := ⟨A.PROT_Ln_LADDER i, 16, 2⟩
def F.PROT_Ln_LADDER_RECUR (i : Nat) : Fld := ⟨A.PROT_Ln_LADDER i, 24, 8⟩

/-- R206: PROT_Ln_CLR. -/
def A.PROT_Ln_CLR (i : Nat) : Nat := 0x40048 + 0x100 * i
def F.PROT_Ln_CLR_OV_CLR (i : Nat) : Fld := ⟨A.PROT_Ln_CLR i, 0, 1⟩
def F.PROT_Ln_CLR_LOFF_CLR (i : Nat) : Fld := ⟨A.PROT_Ln_CLR i, 1, 1⟩
def F.PROT_Ln_CLR_CLR_REFUSED (i : Nat) : Fld := ⟨A.PROT_Ln_CLR i, 2, 1⟩

/-- R206: PROT_Ln_CNT. -/
def A.PROT_Ln_CNT (i : Nat) : Nat := 0x4004C + 0x100 * i
def F.PROT_Ln_CNT_SC_TRIPS (i : Nat) : Fld := ⟨A.PROT_Ln_CNT i, 0, 16⟩
def F.PROT_Ln_CNT_HIC_TOTAL (i : Nat) : Fld := ⟨A.PROT_Ln_CNT i, 16, 8⟩
def F.PROT_Ln_CNT_ESC_CNT (i : Nat) : Fld := ⟨A.PROT_Ln_CNT i, 24, 8⟩

/-! ### TypeC block, 0x5_0000 -/

/-- R240: PD_Pp_CFG. -/
def A.PD_Pp_CFG (i : Nat) : Nat := 0x50000 + 0x1000 * i
def F.PD_Pp_CFG_ROLE (i : Nat) : Fld := ⟨A.PD_Pp_CFG i, 0, 2⟩
def F.PD_Pp_CFG_TRY (i : Nat) : Fld := ⟨A.PD_Pp_CFG i, 2, 2⟩
def F.PD_Pp_CFG_RP (i : Nat) : Fld := ⟨A.PD_Pp_CFG i, 4, 2⟩
def F.PD_Pp_CFG_PD_EN (i : Nat) : Fld := ⟨A.PD_Pp_CFG i, 6, 1⟩
def F.PD_Pp_CFG_ACC_EN (i : Nat) : Fld := ⟨A.PD_Pp_CFG i, 7, 1⟩
def F.PD_Pp_CFG_VCONN_EN (i : Nat) : Fld := ⟨A.PD_Pp_CFG i, 8, 1⟩
def F.PD_Pp_CFG_FRS_EN (i : Nat) : Fld := ⟨A.PD_Pp_CFG i, 9, 1⟩
def F.PD_Pp_CFG_ACC_DR (i : Nat) : Fld := ⟨A.PD_Pp_CFG i, 10, 1⟩
def F.PD_Pp_CFG_ACC_PR (i : Nat) : Fld := ⟨A.PD_Pp_CFG i, 11, 1⟩
def F.PD_Pp_CFG_ACC_VCONN (i : Nat) : Fld := ⟨A.PD_Pp_CFG i, 12, 1⟩
def F.PD_Pp_CFG_EPR_EN (i : Nat) : Fld := ⟨A.PD_Pp_CFG i, 13, 1⟩
def F.PD_Pp_CFG_PMEM_EN (i : Nat) : Fld := ⟨A.PD_Pp_CFG i, 14, 1⟩
def F.PD_Pp_CFG_APPLY (i : Nat) : Fld := ⟨A.PD_Pp_CFG i, 15, 1⟩

/-- R240: PD_Pp_STATUS. -/
def A.PD_Pp_STATUS (i : Nat) : Nat := 0x50004 + 0x1000 * i
def F.PD_Pp_STATUS_TCSTATE (i : Nat) : Fld := ⟨A.PD_Pp_STATUS i, 0, 4⟩
def F.PD_Pp_STATUS_ORIENT (i : Nat) : Fld := ⟨A.PD_Pp_STATUS i, 4, 1⟩
def F.PD_Pp_STATUS_PWR_ROLE (i : Nat) : Fld := ⟨A.PD_Pp_STATUS i, 5, 1⟩
def F.PD_Pp_STATUS_DATA_ROLE (i : Nat) : Fld := ⟨A.PD_Pp_STATUS i, 6, 1⟩
def F.PD_Pp_STATUS_VCONN_SRC (i : Nat) : Fld := ⟨A.PD_Pp_STATUS i, 7, 1⟩
def F.PD_Pp_STATUS_CONTRACT (i : Nat) : Fld := ⟨A.PD_Pp_STATUS i, 8, 1⟩
def F.PD_Pp_STATUS_EPR_MODE (i : Nat) : Fld := ⟨A.PD_Pp_STATUS i, 9, 1⟩
def F.PD_Pp_STATUS_PARTNER_RP (i : Nat) : Fld := ⟨A.PD_Pp_STATUS i, 10, 2⟩
def F.PD_Pp_STATUS_AMS (i : Nat) : Fld := ⟨A.PD_Pp_STATUS i, 12, 1⟩
def F.PD_Pp_STATUS_FRS_ARMED (i : Nat) : Fld := ⟨A.PD_Pp_STATUS i, 13, 1⟩
def F.PD_Pp_STATUS_CABLE_5A (i : Nat) : Fld := ⟨A.PD_Pp_STATUS i, 14, 1⟩
def F.PD_Pp_STATUS_CABLE_EPR (i : Nat) : Fld := ⟨A.PD_Pp_STATUS i, 15, 1⟩

/-- R240: PD_Pp_VI. -/
def A.PD_Pp_VI (i : Nat) : Nat := 0x50008 + 0x1000 * i
def F.PD_Pp_VI_VOLT (i : Nat) : Fld := ⟨A.PD_Pp_VI i, 0, 12⟩
def F.PD_Pp_VI_CURR (i : Nat) : Fld := ⟨A.PD_Pp_VI i, 12, 10⟩
def F.PD_Pp_VI_SOURCING (i : Nat) : Fld := ⟨A.PD_Pp_VI i, 22, 1⟩
def F.PD_Pp_VI_KIND (i : Nat) : Fld := ⟨A.PD_Pp_VI i, 23, 3⟩

/-- R240: PD_Pp_RDO. -/
def A.PD_Pp_RDO (i : Nat) : Nat := 0x5000C + 0x1000 * i
def F.PD_Pp_RDO_RDO (i : Nat) : Fld := ⟨A.PD_Pp_RDO i, 0, 32⟩

/-- R240: PD_Pp_PDO. -/
def A.PD_Pp_PDO (i : Nat) : Nat := 0x50010 + 0x1000 * i
def F.PD_Pp_PDO_PDO (i : Nat) : Fld := ⟨A.PD_Pp_PDO i, 0, 32⟩

/-- R240: PD_Pp_EVENT. -/
def A.PD_Pp_EVENT (i : Nat) : Nat := 0x50014 + 0x1000 * i
def F.PD_Pp_EVENT_EVENTS (i : Nat) : Fld := ⟨A.PD_Pp_EVENT i, 0, 16⟩

/-- R240: PD_Pp_CTRL. -/
def A.PD_Pp_CTRL (i : Nat) : Nat := 0x50018 + 0x1000 * i
def F.PD_Pp_CTRL_REQ_DR (i : Nat) : Fld := ⟨A.PD_Pp_CTRL i, 0, 1⟩
def F.PD_Pp_CTRL_REQ_PR (i : Nat) : Fld := ⟨A.PD_Pp_CTRL i, 1, 1⟩
def F.PD_Pp_CTRL_ENTER (i : Nat) : Fld := ⟨A.PD_Pp_CTRL i, 2, 1⟩
def F.PD_Pp_CTRL_EXIT (i : Nat) : Fld := ⟨A.PD_Pp_CTRL i, 3, 1⟩
def F.PD_Pp_CTRL_MODE_IDX (i : Nat) : Fld := ⟨A.PD_Pp_CTRL i, 4, 4⟩

/-- R240: PD_Pp_MODES. -/
def A.PD_Pp_MODES (i : Nat) : Nat := 0x5001C + 0x1000 * i
def F.PD_Pp_MODES_SEEN (i : Nat) : Fld := ⟨A.PD_Pp_MODES i, 0, 16⟩
def F.PD_Pp_MODES_ENTERED (i : Nat) : Fld := ⟨A.PD_Pp_MODES i, 16, 16⟩

/-- R240: PD_Pp_CNT. -/
def A.PD_Pp_CNT (i : Nat) : Nat := 0x50020 + 0x1000 * i
def F.PD_Pp_CNT_RETRY_FAIL (i : Nat) : Fld := ⟨A.PD_Pp_CNT i, 0, 8⟩
def F.PD_Pp_CNT_HARD_RESETS (i : Nat) : Fld := ⟨A.PD_Pp_CNT i, 8, 8⟩
def F.PD_Pp_CNT_CRC_ERR (i : Nat) : Fld := ⟨A.PD_Pp_CNT i, 16, 8⟩
def F.PD_Pp_CNT_BUF_FULL (i : Nat) : Fld := ⟨A.PD_Pp_CNT i, 24, 8⟩

/-- R240: PD_Pp_BATTk. -/
def A.PD_Pp_BATTk (i j : Nat) : Nat := 0x50040 + 0x1000 * i + 0x4 * j
def F.PD_Pp_BATTk_DATA (i j : Nat) : Fld := ⟨A.PD_Pp_BATTk i j, 0, 32⟩

/-- R240: PD_Pp_VDM_RXk. -/
def A.PD_Pp_VDM_RXk (i j : Nat) : Nat := 0x50100 + 0x1000 * i + 0x4 * j
def F.PD_Pp_VDM_RXk_DATA (i j : Nat) : Fld := ⟨A.PD_Pp_VDM_RXk i j, 0, 32⟩

/-- R240: PD_Pp_VDM_RXCTL. -/
def A.PD_Pp_VDM_RXCTL (i : Nat) : Nat := 0x50120 + 0x1000 * i
def F.PD_Pp_VDM_RXCTL_COUNT (i : Nat) : Fld := ⟨A.PD_Pp_VDM_RXCTL i, 0, 4⟩
def F.PD_Pp_VDM_RXCTL_SOP (i : Nat) : Fld := ⟨A.PD_Pp_VDM_RXCTL i, 4, 2⟩
def F.PD_Pp_VDM_RXCTL_VALID (i : Nat) : Fld := ⟨A.PD_Pp_VDM_RXCTL i, 6, 1⟩

/-- R240: PD_Pp_VDM_TXk. -/
def A.PD_Pp_VDM_TXk (i j : Nat) : Nat := 0x50140 + 0x1000 * i + 0x4 * j
def F.PD_Pp_VDM_TXk_DATA (i j : Nat) : Fld := ⟨A.PD_Pp_VDM_TXk i j, 0, 32⟩

/-- R240: PD_Pp_VDM_TXCTL. -/
def A.PD_Pp_VDM_TXCTL (i : Nat) : Nat := 0x50160 + 0x1000 * i
def F.PD_Pp_VDM_TXCTL_COUNT (i : Nat) : Fld := ⟨A.PD_Pp_VDM_TXCTL i, 0, 4⟩
def F.PD_Pp_VDM_TXCTL_SOP (i : Nat) : Fld := ⟨A.PD_Pp_VDM_TXCTL i, 4, 2⟩
def F.PD_Pp_VDM_TXCTL_GO (i : Nat) : Fld := ⟨A.PD_Pp_VDM_TXCTL i, 6, 1⟩
def F.PD_Pp_VDM_TXCTL_RESULT (i : Nat) : Fld := ⟨A.PD_Pp_VDM_TXCTL i, 7, 2⟩

/-- R241: PD_POLICY. -/
def A.PD_POLICY : Nat := 0x58000
def F.PD_POLICY_OFFSET : Fld := ⟨A.PD_POLICY, 0, 21⟩
def F.PD_POLICY_BAD : Fld := ⟨A.PD_POLICY, 21, 1⟩

/-- R241: PD_PMEM_CFG. -/
def A.PD_PMEM_CFG : Nat := 0x58004
def F.PD_PMEM_CFG_PERSIST : Fld := ⟨A.PD_PMEM_CFG, 0, 11⟩

/-- R241: PD_PMEM_STATUS. -/
def A.PD_PMEM_STATUS : Nat := 0x58008
def F.PD_PMEM_STATUS_USED : Fld := ⟨A.PD_PMEM_STATUS, 0, 11⟩
def F.PD_PMEM_STATUS_PMEM_FULL : Fld := ⟨A.PD_PMEM_STATUS, 11, 1⟩

/-- R241: PD_PMEM_STAMP. -/
def A.PD_PMEM_STAMP : Nat := 0x5800C
def F.PD_PMEM_STAMP_STAMP : Fld := ⟨A.PD_PMEM_STAMP, 0, 24⟩

/-- R241: PD_PMEM_CTRL. -/
def A.PD_PMEM_CTRL : Nat := 0x58010
def F.PD_PMEM_CTRL_INDEX : Fld := ⟨A.PD_PMEM_CTRL, 0, 10⟩
def F.PD_PMEM_CTRL_OP : Fld := ⟨A.PD_PMEM_CTRL, 10, 3⟩
def F.PD_PMEM_CTRL_GO : Fld := ⟨A.PD_PMEM_CTRL, 13, 1⟩

/-- R241: PD_PMEM_DATAk. -/
def A.PD_PMEM_DATAk (i : Nat) : Nat := 0x58020 + 0x4 * i
def F.PD_PMEM_DATAk_DATA (i : Nat) : Fld := ⟨A.PD_PMEM_DATAk i, 0, 32⟩

/-! ### PowerPath block, 0x6_0000 -/

/-- R270: PP_Pp_CFG. -/
def A.PP_Pp_CFG (i : Nat) : Nat := 0x60000 + 0x1000 * i
def F.PP_Pp_CFG_RSNS (i : Nat) : Fld := ⟨A.PP_Pp_CFG i, 0, 8⟩
def F.PP_Pp_CFG_ISNS_R (i : Nat) : Fld := ⟨A.PP_Pp_CFG i, 8, 8⟩
def F.PP_Pp_CFG_SNK_RANK (i : Nat) : Fld := ⟨A.PP_Pp_CFG i, 16, 2⟩
def F.PP_Pp_CFG_SHED (i : Nat) : Fld := ⟨A.PP_Pp_CFG i, 18, 1⟩
def F.PP_Pp_CFG_FB_EN (i : Nat) : Fld := ⟨A.PP_Pp_CFG i, 19, 1⟩

/-- R270: PP_Pp_FSW. -/
def A.PP_Pp_FSW (i : Nat) : Nat := 0x60004 + 0x1000 * i
def F.PP_Pp_FSW_TOP (i : Nat) : Fld := ⟨A.PP_Pp_FSW i, 0, 12⟩
def F.PP_Pp_FSW_BPHASE (i : Nat) : Fld := ⟨A.PP_Pp_FSW i, 16, 13⟩

/-- R270: PP_Pp_DUTY. -/
def A.PP_Pp_DUTY (i : Nat) : Nat := 0x60008 + 0x1000 * i
def F.PP_Pp_DUTY_DBK (i : Nat) : Fld := ⟨A.PP_Pp_DUTY i, 0, 16⟩
def F.PP_Pp_DUTY_DBST (i : Nat) : Fld := ⟨A.PP_Pp_DUTY i, 16, 16⟩

/-- R270: PP_Pp_SRC. -/
def A.PP_Pp_SRC (i : Nat) : Nat := 0x6000C + 0x1000 * i
def F.PP_Pp_SRC_SLEW (i : Nat) : Fld := ⟨A.PP_Pp_SRC i, 0, 8⟩
def F.PP_Pp_SRC_OCA (i : Nat) : Fld := ⟨A.PP_Pp_SRC i, 8, 8⟩
def F.PP_Pp_SRC_OCT (i : Nat) : Fld := ⟨A.PP_Pp_SRC i, 16, 8⟩
def F.PP_Pp_SRC_OV_ADD (i : Nat) : Fld := ⟨A.PP_Pp_SRC i, 24, 8⟩

/-- R270: PP_Pp_PROT. -/
def A.PP_Pp_PROT (i : Nat) : Nat := 0x60010 + 0x1000 * i
def F.PP_Pp_PROT_PK_LIM (i : Nat) : Fld := ⟨A.PP_Pp_PROT i, 0, 8⟩
def F.PP_Pp_PROT_PK_COUNT (i : Nat) : Fld := ⟨A.PP_Pp_PROT i, 8, 4⟩
def F.PP_Pp_PROT_REV_LIM (i : Nat) : Fld := ⟨A.PP_Pp_PROT i, 12, 8⟩

/-- R270: PP_Pp_GATE. -/
def A.PP_Pp_GATE (i : Nat) : Nat := 0x60014 + 0x1000 * i
def F.PP_Pp_GATE_IG (i : Nat) : Fld := ⟨A.PP_Pp_GATE i, 0, 4⟩
def F.PP_Pp_GATE_GATE_TMO (i : Nat) : Fld := ⟨A.PP_Pp_GATE i, 4, 8⟩
def F.PP_Pp_GATE_DSCHG_TMO (i : Nat) : Fld := ⟨A.PP_Pp_GATE i, 12, 8⟩

/-- R270: PP_Pp_BUD. -/
def A.PP_Pp_BUD (i : Nat) : Nat := 0x60018 + 0x1000 * i
def F.PP_Pp_BUD_FLOOR (i : Nat) : Fld := ⟨A.PP_Pp_BUD i, 0, 10⟩
def F.PP_Pp_BUD_PRIO (i : Nat) : Fld := ⟨A.PP_Pp_BUD i, 10, 3⟩
def F.PP_Pp_BUD_READV_UP (i : Nat) : Fld := ⟨A.PP_Pp_BUD i, 13, 1⟩
def F.PP_Pp_BUD_SNK_PMAX (i : Nat) : Fld := ⟨A.PP_Pp_BUD i, 16, 10⟩

/-- R270: PP_Pp_RUN. -/
def A.PP_Pp_RUN (i : Nat) : Nat := 0x60040 + 0x1000 * i
def F.PP_Pp_RUN_VREF (i : Nat) : Fld := ⟨A.PP_Pp_RUN i, 0, 12⟩
def F.PP_Pp_RUN_ILIM (i : Nat) : Fld := ⟨A.PP_Pp_RUN i, 12, 10⟩

/-- R270: PP_Pp_STATUS. -/
def A.PP_Pp_STATUS (i : Nat) : Nat := 0x60044 + 0x1000 * i
def F.PP_Pp_STATUS_MODE (i : Nat) : Fld := ⟨A.PP_Pp_STATUS i, 0, 3⟩
def F.PP_Pp_STATUS_FETS (i : Nat) : Fld := ⟨A.PP_Pp_STATUS i, 3, 1⟩
def F.PP_Pp_STATUS_CL (i : Nat) : Fld := ⟨A.PP_Pp_STATUS i, 4, 1⟩
def F.PP_Pp_STATUS_VREACHED (i : Nat) : Fld := ⟨A.PP_Pp_STATUS i, 5, 1⟩
def F.PP_Pp_STATUS_DSCHG (i : Nat) : Fld := ⟨A.PP_Pp_STATUS i, 6, 1⟩
def F.PP_Pp_STATUS_REGION (i : Nat) : Fld := ⟨A.PP_Pp_STATUS i, 7, 2⟩

/-- R270: PP_Pp_MEAS. -/
def A.PP_Pp_MEAS (i : Nat) : Nat := 0x60048 + 0x1000 * i
def F.PP_Pp_MEAS_IBUS (i : Nat) : Fld := ⟨A.PP_Pp_MEAS i, 0, 16⟩
def F.PP_Pp_MEAS_ALLOT (i : Nat) : Fld := ⟨A.PP_Pp_MEAS i, 16, 10⟩

/-- R271: PP_VSYS. -/
def A.PP_VSYS : Nat := 0x68000
def F.PP_VSYS_VSYS_REF : Fld := ⟨A.PP_VSYS, 0, 12⟩
def F.PP_VSYS_SINK_OFS : Fld := ⟨A.PP_VSYS, 12, 8⟩

/-- R271: PP_VSYS_PROT. -/
def A.PP_VSYS_PROT : Nat := 0x68004
def F.PP_VSYS_PROT_VSYS_OV : Fld := ⟨A.PP_VSYS_PROT, 0, 12⟩
def F.PP_VSYS_PROT_VSYS_SHED : Fld := ⟨A.PP_VSYS_PROT, 12, 12⟩

/-- R271: PP_BUDGET. -/
def A.PP_BUDGET : Nat := 0x68008
def F.PP_BUDGET_SYS_P : Fld := ⟨A.PP_BUDGET, 0, 10⟩
def F.PP_BUDGET_RESERVE : Fld := ⟨A.PP_BUDGET, 10, 10⟩
def F.PP_BUDGET_SRC_PMAX : Fld := ⟨A.PP_BUDGET, 20, 12⟩

/-- R271: PP_EFF. -/
def A.PP_EFF : Nat := 0x6800C
def F.PP_EFF_SNK_EFF : Fld := ⟨A.PP_EFF, 0, 8⟩
def F.PP_EFF_SRC_EFF : Fld := ⟨A.PP_EFF, 8, 8⟩
def F.PP_EFF_RAIL_EFF : Fld := ⟨A.PP_EFF, 16, 8⟩

/-- R271: PP_RAILk. -/
def A.PP_RAILk (i : Nat) : Nat := 0x68010 + 0x4 * i
def F.PP_RAILk_CAP_MIN (i : Nat) : Fld := ⟨A.PP_RAILk i, 0, 10⟩
def F.PP_RAILk_PRIO (i : Nat) : Fld := ⟨A.PP_RAILk i, 10, 3⟩

/-- R271: PP_BUD_STATUS. -/
def A.PP_BUD_STATUS : Nat := 0x68030
def F.PP_BUD_STATUS_SUPPLY : Fld := ⟨A.PP_BUD_STATUS, 0, 12⟩
def F.PP_BUD_STATUS_DEMAND : Fld := ⟨A.PP_BUD_STATUS, 12, 12⟩
def F.PP_BUD_STATUS_SHORT : Fld := ⟨A.PP_BUD_STATUS, 24, 1⟩

/-- R271: PP_DB. -/
def A.PP_DB : Nat := 0x68034
def F.PP_DB_DB_PORTS : Fld := ⟨A.PP_DB, 0, 4⟩
def F.PP_DB_DB_ACTIVE : Fld := ⟨A.PP_DB, 4, 3⟩
def F.PP_DB_DB_OC : Fld := ⟨A.PP_DB, 7, 4⟩

/-! ### Sequencer block, 0x7_0000 -/

/-- R298: SEQ_Sn_CFG. -/
def A.SEQ_Sn_CFG (i : Nat) : Nat := 0x70000 + 0x10 * i
def F.SEQ_Sn_CFG_STATE (i : Nat) : Fld := ⟨A.SEQ_Sn_CFG i, 0, 6⟩
def F.SEQ_Sn_CFG_PG_REQ (i : Nat) : Fld := ⟨A.SEQ_Sn_CFG i, 6, 1⟩
def F.SEQ_Sn_CFG_ACT (i : Nat) : Fld := ⟨A.SEQ_Sn_CFG i, 7, 1⟩
def F.SEQ_Sn_CFG_DIS_WAIT (i : Nat) : Fld := ⟨A.SEQ_Sn_CFG i, 8, 1⟩

/-- R298: SEQ_Sn_DLY. -/
def A.SEQ_Sn_DLY (i : Nat) : Nat := 0x70004 + 0x10 * i
def F.SEQ_Sn_DLY_ON_DLY (i : Nat) : Fld := ⟨A.SEQ_Sn_DLY i, 0, 16⟩
def F.SEQ_Sn_DLY_OFF_DLY (i : Nat) : Fld := ⟨A.SEQ_Sn_DLY i, 16, 16⟩

/-- R298: SEQ_Sn_WIN. -/
def A.SEQ_Sn_WIN (i : Nat) : Nat := 0x70008 + 0x10 * i
def F.SEQ_Sn_WIN_LO (i : Nat) : Fld := ⟨A.SEQ_Sn_WIN i, 0, 10⟩
def F.SEQ_Sn_WIN_HI (i : Nat) : Fld := ⟨A.SEQ_Sn_WIN i, 10, 10⟩
def F.SEQ_Sn_WIN_OFF_TH (i : Nat) : Fld := ⟨A.SEQ_Sn_WIN i, 20, 10⟩

/-- R298: SEQ_Sn_FILT. -/
def A.SEQ_Sn_FILT (i : Nat) : Nat := 0x7000C + 0x10 * i
def F.SEQ_Sn_FILT_F_IN (i : Nat) : Fld := ⟨A.SEQ_Sn_FILT i, 0, 8⟩
def F.SEQ_Sn_FILT_F_OUT (i : Nat) : Fld := ⟨A.SEQ_Sn_FILT i, 8, 8⟩

/-- R299: SEQ_Sn_STAT. -/
def A.SEQ_Sn_STAT (i : Nat) : Nat := 0x70400 + 0x4 * i
def F.SEQ_Sn_STAT_INSIDE (i : Nat) : Fld := ⟨A.SEQ_Sn_STAT i, 0, 1⟩
def F.SEQ_Sn_STAT_GOOD (i : Nat) : Fld := ⟨A.SEQ_Sn_STAT i, 1, 1⟩
def F.SEQ_Sn_STAT_ON (i : Nat) : Fld := ⟨A.SEQ_Sn_STAT i, 2, 1⟩
def F.SEQ_Sn_STAT_FORCED (i : Nat) : Fld := ⟨A.SEQ_Sn_STAT i, 3, 1⟩
def F.SEQ_Sn_STAT_CHAT (i : Nat) : Fld := ⟨A.SEQ_Sn_STAT i, 4, 8⟩
def F.SEQ_Sn_STAT_LAST (i : Nat) : Fld := ⟨A.SEQ_Sn_STAT i, 12, 4⟩

/-- R300: SEQ_STk. -/
def A.SEQ_STk (i : Nat) : Nat := 0x70500 + 0x4 * i
def F.SEQ_STk_UP_TMO (i : Nat) : Fld := ⟨A.SEQ_STk i, 0, 16⟩
def F.SEQ_STk_DN_TMO (i : Nat) : Fld := ⟨A.SEQ_STk i, 16, 16⟩

/-- R301: SEQ_RSTm. -/
def A.SEQ_RSTm (i : Nat) : Nat := 0x70600 + 0x4 * i
def F.SEQ_RSTm_STATE (i : Nat) : Fld := ⟨A.SEQ_RSTm i, 0, 6⟩
def F.SEQ_RSTm_LOSS (i : Nat) : Fld := ⟨A.SEQ_RSTm i, 6, 1⟩
def F.SEQ_RSTm_STRETCH (i : Nat) : Fld := ⟨A.SEQ_RSTm i, 8, 12⟩
def F.SEQ_RSTm_LEVEL (i : Nat) : Fld := ⟨A.SEQ_RSTm i, 20, 1⟩

/-- R302: SEQ_CTRL. -/
def A.SEQ_CTRL : Nat := 0x78000
def F.SEQ_CTRL_TARGET : Fld := ⟨A.SEQ_CTRL, 0, 6⟩

/-- R302: SEQ_STATUS. -/
def A.SEQ_STATUS : Nat := 0x78004
def F.SEQ_STATUS_CUR : Fld := ⟨A.SEQ_STATUS, 0, 6⟩
def F.SEQ_STATUS_DIR : Fld := ⟨A.SEQ_STATUS, 6, 2⟩
def F.SEQ_STATUS_WAIT : Fld := ⟨A.SEQ_STATUS, 8, 3⟩
def F.SEQ_STATUS_ABORTED : Fld := ⟨A.SEQ_STATUS, 11, 1⟩
def F.SEQ_STATUS_CFG_DISC : Fld := ⟨A.SEQ_STATUS, 12, 1⟩
def F.SEQ_STATUS_SYNC_LINE : Fld := ⟨A.SEQ_STATUS, 13, 1⟩
def F.SEQ_STATUS_SYNC_DRIVE : Fld := ⟨A.SEQ_STATUS, 14, 1⟩
def F.SEQ_STATUS_REACHED : Fld := ⟨A.SEQ_STATUS, 15, 1⟩

/-- R302: SEQ_CFG. -/
def A.SEQ_CFG : Nat := 0x78008
def F.SEQ_CFG_CHATTER_MAX : Fld := ⟨A.SEQ_CFG, 0, 8⟩
def F.SEQ_CFG_SYNC_EN : Fld := ⟨A.SEQ_CFG, 8, 1⟩
def F.SEQ_CFG_SYNC_HOLD : Fld := ⟨A.SEQ_CFG, 9, 6⟩
def F.SEQ_CFG_SYNC_TMO : Fld := ⟨A.SEQ_CFG, 16, 8⟩

/-- R302: SEQ_FAULT. -/
def A.SEQ_FAULT : Nat := 0x7800C
def F.SEQ_FAULT_CAUSE : Fld := ⟨A.SEQ_FAULT, 0, 4⟩
def F.SEQ_FAULT_RAIL : Fld := ⟨A.SEQ_FAULT, 4, 6⟩
def F.SEQ_FAULT_STATE : Fld := ⟨A.SEQ_FAULT, 10, 6⟩
def F.SEQ_FAULT_COUNT : Fld := ⟨A.SEQ_FAULT, 16, 8⟩
def F.SEQ_FAULT_CLR : Fld := ⟨A.SEQ_FAULT, 24, 1⟩

/-! ### Hosts block, 0x8_0000 -/

/-- R335: HP_TWk_CFG. -/
def A.HP_TWk_CFG (i : Nat) : Nat := 0x80000 + 0x100 * i
def F.HP_TWk_CFG_EN (i : Nat) : Fld := ⟨A.HP_TWk_CFG i, 0, 1⟩
def F.HP_TWk_CFG_SECURE (i : Nat) : Fld := ⟨A.HP_TWk_CFG i, 1, 1⟩
def F.HP_TWk_CFG_PEC_REQ (i : Nat) : Fld := ⟨A.HP_TWk_CFG i, 2, 1⟩
def F.HP_TWk_CFG_NOTIFY_EN (i : Nat) : Fld := ⟨A.HP_TWk_CFG i, 3, 1⟩
def F.HP_TWk_CFG_COMPAT (i : Nat) : Fld := ⟨A.HP_TWk_CFG i, 4, 1⟩
def F.HP_TWk_CFG_MASK_MODE (i : Nat) : Fld := ⟨A.HP_TWk_CFG i, 5, 1⟩
def F.HP_TWk_CFG_CNT_CLR (i : Nat) : Fld := ⟨A.HP_TWk_CFG i, 6, 1⟩

/-- R335: HP_TWk_ADDR. -/
def A.HP_TWk_ADDR (i : Nat) : Nat := 0x80004 + 0x100 * i
def F.HP_TWk_ADDR_ADDR0 (i : Nat) : Fld := ⟨A.HP_TWk_ADDR i, 0, 7⟩
def F.HP_TWk_ADDR_AEN0 (i : Nat) : Fld := ⟨A.HP_TWk_ADDR i, 7, 1⟩
def F.HP_TWk_ADDR_ADDR1 (i : Nat) : Fld := ⟨A.HP_TWk_ADDR i, 8, 7⟩
def F.HP_TWk_ADDR_AEN1 (i : Nat) : Fld := ⟨A.HP_TWk_ADDR i, 15, 1⟩
def F.HP_TWk_ADDR_ADDR2 (i : Nat) : Fld := ⟨A.HP_TWk_ADDR i, 16, 7⟩
def F.HP_TWk_ADDR_AEN2 (i : Nat) : Fld := ⟨A.HP_TWk_ADDR i, 23, 1⟩
def F.HP_TWk_ADDR_ADDR3 (i : Nat) : Fld := ⟨A.HP_TWk_ADDR i, 24, 7⟩
def F.HP_TWk_ADDR_AEN3 (i : Nat) : Fld := ⟨A.HP_TWk_ADDR i, 31, 1⟩

/-- R335: HP_TWk_TIME. -/
def A.HP_TWk_TIME (i : Nat) : Nat := 0x80008 + 0x100 * i
def F.HP_TWk_TIME_SPIKE (i : Nat) : Fld := ⟨A.HP_TWk_TIME i, 0, 4⟩
def F.HP_TWk_TIME_SDA_HOLD (i : Nat) : Fld := ⟨A.HP_TWk_TIME i, 4, 6⟩

/-- R335: HP_TWk_STATUS. -/
def A.HP_TWk_STATUS (i : Nat) : Nat := 0x8000C + 0x100 * i
def F.HP_TWk_STATUS_LAST_CODE (i : Nat) : Fld := ⟨A.HP_TWk_STATUS i, 0, 16⟩
def F.HP_TWk_STATUS_PAGE (i : Nat) : Fld := ⟨A.HP_TWk_STATUS i, 16, 4⟩
def F.HP_TWk_STATUS_BUSY (i : Nat) : Fld := ⟨A.HP_TWk_STATUS i, 20, 1⟩
def F.HP_TWk_STATUS_CML (i : Nat) : Fld := ⟨A.HP_TWk_STATUS i, 21, 8⟩

/-- R335: HP_TWk_CNT. -/
def A.HP_TWk_CNT (i : Nat) : Nat := 0x80010 + 0x100 * i
def F.HP_TWk_CNT_PEC_ERR (i : Nat) : Fld := ⟨A.HP_TWk_CNT i, 0, 8⟩
def F.HP_TWk_CNT_CONTENTION (i : Nat) : Fld := ⟨A.HP_TWk_CNT i, 8, 8⟩
def F.HP_TWk_CNT_STRETCH_TMO (i : Nat) : Fld := ⟨A.HP_TWk_CNT i, 16, 8⟩
def F.HP_TWk_CNT_ABANDONED (i : Nat) : Fld := ⟨A.HP_TWk_CNT i, 24, 8⟩

/-- R335: HP_TWk_NOTIFY. -/
def A.HP_TWk_NOTIFY (i : Nat) : Nat := 0x80014 + 0x100 * i
def F.HP_TWk_NOTIFY_SENT (i : Nat) : Fld := ⟨A.HP_TWk_NOTIFY i, 0, 8⟩
def F.HP_TWk_NOTIFY_FAILED (i : Nat) : Fld := ⟨A.HP_TWk_NOTIFY i, 8, 8⟩
def F.HP_TWk_NOTIFY_PENDING (i : Nat) : Fld := ⟨A.HP_TWk_NOTIFY i, 16, 1⟩

/-- R336: HP_OWNERr. -/
def A.HP_OWNERr (i : Nat) : Nat := 0x80800 + 0x4 * i
def F.HP_OWNERr_OWNER (i : Nat) : Fld := ⟨A.HP_OWNERr i, 0, 2⟩
def F.HP_OWNERr_CLAIM_EN (i : Nat) : Fld := ⟨A.HP_OWNERr i, 2, 1⟩

/-- R337: HP_PGn_VMAX. -/
def A.HP_PGn_VMAX (i : Nat) : Nat := 0x80C00 + 0x10 * i
def F.HP_PGn_VMAX_VOUT_MAX (i : Nat) : Fld := ⟨A.HP_PGn_VMAX i, 0, 16⟩

/-- R337: HP_PGn_STATh. -/
def A.HP_PGn_STATh (i j : Nat) : Nat := 0x80C04 + 0x10 * i + 0x4 * j
def F.HP_PGn_STATh_VOUT (i j : Nat) : Fld := ⟨A.HP_PGn_STATh i j, 0, 8⟩
def F.HP_PGn_STATh_IOUT (i j : Nat) : Fld := ⟨A.HP_PGn_STATh i j, 8, 8⟩
def F.HP_PGn_STATh_TEMP (i j : Nat) : Fld := ⟨A.HP_PGn_STATh i j, 16, 8⟩
def F.HP_PGn_STATh_MFR (i j : Nat) : Fld := ⟨A.HP_PGn_STATh i j, 24, 1⟩

/-- R338: MBX_CHn_DATA. -/
def A.MBX_CHn_DATA (i : Nat) : Nat := 0x84000 + 0x8 * i
def F.MBX_CHn_DATA_DATA (i : Nat) : Fld := ⟨A.MBX_CHn_DATA i, 0, 32⟩

/-- R338: MBX_CHn_ACK. -/
def A.MBX_CHn_ACK (i : Nat) : Nat := 0x84004 + 0x8 * i
def F.MBX_CHn_ACK_CODE (i : Nat) : Fld := ⟨A.MBX_CHn_ACK i, 0, 16⟩
def F.MBX_CHn_ACK_VALID (i : Nat) : Fld := ⟨A.MBX_CHn_ACK i, 16, 1⟩
def F.MBX_CHn_ACK_FULL (i : Nat) : Fld := ⟨A.MBX_CHn_ACK i, 17, 1⟩
def F.MBX_CHn_ACK_PRIV (i : Nat) : Fld := ⟨A.MBX_CHn_ACK i, 18, 1⟩

/-- R338: MBX_CHn_CFG. -/
def A.MBX_CHn_CFG (i : Nat) : Nat := 0x85000 + 0x4 * i
def F.MBX_CHn_CFG_DIR (i : Nat) : Fld := ⟨A.MBX_CHn_CFG i, 0, 1⟩
def F.MBX_CHn_CFG_RCV (i : Nat) : Fld := ⟨A.MBX_CHn_CFG i, 1, 3⟩
def F.MBX_CHn_CFG_SND (i : Nat) : Fld := ⟨A.MBX_CHn_CFG i, 4, 3⟩

/-- R338: MBX_FULLj. -/
def A.MBX_FULLj (i : Nat) : Nat := 0x85400 + 0x4 * i
def F.MBX_FULLj_FULL (i : Nat) : Fld := ⟨A.MBX_FULLj i, 0, 32⟩

/-! ### Interrupts block, 0x9_0000 -/

/-- R360: IRQ_CROWN. -/
def A.IRQ_CROWN : Nat := 0x90000
def F.IRQ_CROWN_GROUP : Fld := ⟨A.IRQ_CROWN, 0, 16⟩

/-- R360: IRQ_VIEWk. -/
def A.IRQ_VIEWk (i : Nat) : Nat := 0x90004 + 0x4 * i
def F.IRQ_VIEWk_VIEW (i : Nat) : Fld := ⟨A.IRQ_VIEWk i, 0, 16⟩

/-- R360: IRQ_STATUS. -/
def A.IRQ_STATUS : Nat := 0x90010
def F.IRQ_STATUS_INT : Fld := ⟨A.IRQ_STATUS, 0, 1⟩
def F.IRQ_STATUS_BY : Fld := ⟨A.IRQ_STATUS, 1, 3⟩
def F.IRQ_STATUS_SEEDLING_HOLD : Fld := ⟨A.IRQ_STATUS, 4, 1⟩

/-- R360: IRQ_CAUSEg. -/
def A.IRQ_CAUSEg (i : Nat) : Nat := 0x90100 + 0x4 * i
def F.IRQ_CAUSEg_CAUSE (i : Nat) : Fld := ⟨A.IRQ_CAUSEg i, 0, 16⟩

/-- R360: IRQ_ENk_g. -/
def A.IRQ_ENk_g (i j : Nat) : Nat := 0x90200 + 0x40 * i + 0x4 * j
def F.IRQ_ENk_g_EN (i j : Nat) : Fld := ⟨A.IRQ_ENk_g i j, 0, 16⟩

/-- R360: IRQ_CONT_STATUS. -/
def A.IRQ_CONT_STATUS : Nat := 0x90400
def F.IRQ_CONT_STATUS_CHECKER_OK : Fld := ⟨A.IRQ_CONT_STATUS, 0, 1⟩
def F.IRQ_CONT_STATUS_FULL_OP : Fld := ⟨A.IRQ_CONT_STATUS, 1, 1⟩
def F.IRQ_CONT_STATUS_IMAGE_OK : Fld := ⟨A.IRQ_CONT_STATUS, 2, 1⟩
def F.IRQ_CONT_STATUS_TST_CLOSED : Fld := ⟨A.IRQ_CONT_STATUS, 3, 1⟩
def F.IRQ_CONT_STATUS_DEBUG_LOCKED : Fld := ⟨A.IRQ_CONT_STATUS, 4, 1⟩
def F.IRQ_CONT_STATUS_TEST_LOW : Fld := ⟨A.IRQ_CONT_STATUS, 5, 1⟩
def F.IRQ_CONT_STATUS_FB_TRACK_ALL : Fld := ⟨A.IRQ_CONT_STATUS, 6, 1⟩
def F.IRQ_CONT_STATUS_GUARANTEE : Fld := ⟨A.IRQ_CONT_STATUS, 7, 1⟩
def F.IRQ_CONT_STATUS_SCRUB_PASSES : Fld := ⟨A.IRQ_CONT_STATUS, 8, 8⟩

/-- R360: IRQ_CONT_CNT. -/
def A.IRQ_CONT_CNT : Nat := 0x90404
def F.IRQ_CONT_CNT_REPLAYS : Fld := ⟨A.IRQ_CONT_CNT, 0, 8⟩
def F.IRQ_CONT_CNT_DATA_FAULTS : Fld := ⟨A.IRQ_CONT_CNT, 8, 8⟩
def F.IRQ_CONT_CNT_REPAIRS : Fld := ⟨A.IRQ_CONT_CNT, 16, 8⟩
def F.IRQ_CONT_CNT_MISMATCHES : Fld := ⟨A.IRQ_CONT_CNT, 24, 8⟩

/-- R360: IRQ_CONT_ADDR. -/
def A.IRQ_CONT_ADDR : Nat := 0x90408
def F.IRQ_CONT_ADDR_ADDR : Fld := ⟨A.IRQ_CONT_ADDR, 0, 21⟩
def F.IRQ_CONT_ADDR_KIND : Fld := ⟨A.IRQ_CONT_ADDR, 21, 3⟩

/-! ### Telemetry block, 0xA_0000 -/

/-- R384: TCV_INn_CFG. -/
def A.TCV_INn_CFG (i : Nat) : Nat := 0xA0000 + 0x10 * i
def F.TCV_INn_CFG_WMODE (i : Nat) : Fld := ⟨A.TCV_INn_CFG i, 0, 2⟩
def F.TCV_INn_CFG_WIN (i : Nat) : Fld := ⟨A.TCV_INn_CFG i, 2, 10⟩
def F.TCV_INn_CFG_FRAMES (i : Nat) : Fld := ⟨A.TCV_INn_CFG i, 12, 16⟩

/-- R384: TCV_INn_AVG. -/
def A.TCV_INn_AVG (i : Nat) : Nat := 0xA0004 + 0x10 * i
def F.TCV_INn_AVG_AVG_N (i : Nat) : Fld := ⟨A.TCV_INn_AVG i, 0, 4⟩
def F.TCV_INn_AVG_SHIFT (i : Nat) : Fld := ⟨A.TCV_INn_AVG i, 4, 4⟩
def F.TCV_INn_AVG_AVG_CLR (i : Nat) : Fld := ⟨A.TCV_INn_AVG i, 8, 1⟩

/-- R384: TCV_INn_RES. -/
def A.TCV_INn_RES (i : Nat) : Nat := 0xA0008 + 0x10 * i
def F.TCV_INn_RES_CODE (i : Nat) : Fld := ⟨A.TCV_INn_RES i, 0, 24⟩
def F.TCV_INn_RES_NEW (i : Nat) : Fld := ⟨A.TCV_INn_RES i, 24, 1⟩
def F.TCV_INn_RES_OVR (i : Nat) : Fld := ⟨A.TCV_INn_RES i, 25, 1⟩
def F.TCV_INn_RES_REFU (i : Nat) : Fld := ⟨A.TCV_INn_RES i, 26, 1⟩
def F.TCV_INn_RES_FB (i : Nat) : Fld := ⟨A.TCV_INn_RES i, 27, 1⟩

/-- R384: TCV_INn_AVGRES. -/
def A.TCV_INn_AVGRES (i : Nat) : Nat := 0xA000C + 0x10 * i
def F.TCV_INn_AVGRES_AVG (i : Nat) : Fld := ⟨A.TCV_INn_AVGRES i, 0, 32⟩

/-- R384: TCV_INn_OFS. -/
def A.TCV_INn_OFS (i : Nat) : Nat := 0xA0400 + 0x8 * i
def F.TCV_INn_OFS_OFS (i : Nat) : Fld := ⟨A.TCV_INn_OFS i, 0, 24⟩

/-- R384: TCV_INn_GAIN. -/
def A.TCV_INn_GAIN (i : Nat) : Nat := 0xA0404 + 0x8 * i
def F.TCV_INn_GAIN_GAIN (i : Nat) : Fld := ⟨A.TCV_INn_GAIN i, 0, 24⟩

/-- R385: TCV_CFG. -/
def A.TCV_CFG : Nat := 0xA8000
def F.TCV_CFG_REF_SEL : Fld := ⟨A.TCV_CFG, 0, 2⟩
def F.TCV_CFG_REF_WAIT : Fld := ⟨A.TCV_CFG, 2, 1⟩

/-- R385: TCV_CTRL. -/
def A.TCV_CTRL : Nat := 0xA8004
def F.TCV_CTRL_START : Fld := ⟨A.TCV_CTRL, 0, 1⟩
def F.TCV_CTRL_CONT : Fld := ⟨A.TCV_CTRL, 1, 1⟩
def F.TCV_CTRL_STOP : Fld := ⟨A.TCV_CTRL, 2, 1⟩

/-- R385: TCV_SCAN. -/
def A.TCV_SCAN : Nat := 0xA8008
def F.TCV_SCAN_MASK : Fld := ⟨A.TCV_SCAN, 0, 32⟩

/-- R385: TCV_STATUS. -/
def A.TCV_STATUS : Nat := 0xA800C
def F.TCV_STATUS_BUSY : Fld := ⟨A.TCV_STATUS, 0, 1⟩
def F.TCV_STATUS_CUR : Fld := ⟨A.TCV_STATUS, 1, 5⟩
def F.TCV_STATUS_REF_OK : Fld := ⟨A.TCV_STATUS, 6, 1⟩
def F.TCV_STATUS_URG_PEND : Fld := ⟨A.TCV_STATUS, 7, 1⟩
def F.TCV_STATUS_URG_ERR : Fld := ⟨A.TCV_STATUS, 8, 1⟩

/-- R385: TCV_URGENT. -/
def A.TCV_URGENT : Nat := 0xA8010
def F.TCV_URGENT_INPUT : Fld := ⟨A.TCV_URGENT, 0, 5⟩
def F.TCV_URGENT_GO : Fld := ⟨A.TCV_URGENT, 5, 1⟩

/-- R385: TCV_URG_RES. -/
def A.TCV_URG_RES : Nat := 0xA8014
def F.TCV_URG_RES_CODE : Fld := ⟨A.TCV_URG_RES, 0, 24⟩
def F.TCV_URG_RES_NEW : Fld := ⟨A.TCV_URG_RES, 24, 1⟩
def F.TCV_URG_RES_OVR : Fld := ⟨A.TCV_URG_RES, 25, 1⟩
def F.TCV_URG_RES_REFU : Fld := ⟨A.TCV_URG_RES, 26, 1⟩
def F.TCV_URG_RES_FB : Fld := ⟨A.TCV_URG_RES, 27, 1⟩

/-- R385: TCV_AVG_NEW. -/
def A.TCV_AVG_NEW : Nat := 0xA8018
def F.TCV_AVG_NEW_NEW : Fld := ⟨A.TCV_AVG_NEW, 0, 32⟩

/-- R385: TCV_AVG_OVR. -/
def A.TCV_AVG_OVR : Nat := 0xA801C
def F.TCV_AVG_OVR_OVR : Fld := ⟨A.TCV_AVG_OVR, 0, 32⟩

/-- R385: TCV_SYSCAL. -/
def A.TCV_SYSCAL : Nat := 0xA8020
def F.TCV_SYSCAL_INPUT : Fld := ⟨A.TCV_SYSCAL, 0, 5⟩
def F.TCV_SYSCAL_STEP : Fld := ⟨A.TCV_SYSCAL, 5, 2⟩
def F.TCV_SYSCAL_GO : Fld := ⟨A.TCV_SYSCAL, 7, 1⟩
def F.TCV_SYSCAL_KEY : Fld := ⟨A.TCV_SYSCAL, 8, 8⟩
def F.TCV_SYSCAL_RESULT : Fld := ⟨A.TCV_SYSCAL, 16, 3⟩

/-- R385: TCV_SYSCAL_FS. -/
def A.TCV_SYSCAL_FS : Nat := 0xA8024
def F.TCV_SYSCAL_FS_TARGET : Fld := ⟨A.TCV_SYSCAL_FS, 0, 24⟩

/-- R385: TCV_SYSCAL_ZERO. -/
def A.TCV_SYSCAL_ZERO : Nat := 0xA8028
def F.TCV_SYSCAL_ZERO_RAW0 : Fld := ⟨A.TCV_SYSCAL_ZERO, 0, 24⟩

/-- R386: THM_CTRL. -/
def A.THM_CTRL : Nat := 0xA8100
def F.THM_CTRL_GO : Fld := ⟨A.THM_CTRL, 0, 1⟩
def F.THM_CTRL_PERIOD : Fld := ⟨A.THM_CTRL, 8, 8⟩
def F.THM_CTRL_THR_MAX : Fld := ⟨A.THM_CTRL, 16, 4⟩

/-- R386: THM_THRESH. -/
def A.THM_THRESH : Nat := 0xA8104
def F.THM_THRESH_WARN : Fld := ⟨A.THM_THRESH, 0, 8⟩
def F.THM_THRESH_THROT : Fld := ⟨A.THM_THRESH, 8, 8⟩
def F.THM_THRESH_SHUT : Fld := ⟨A.THM_THRESH, 16, 8⟩

/-- R386: THM_HYST. -/
def A.THM_HYST : Nat := 0xA8108
def F.THM_HYST_WARN_HYST : Fld := ⟨A.THM_HYST, 0, 4⟩
def F.THM_HYST_THROT_HYST : Fld := ⟨A.THM_HYST, 4, 4⟩
def F.THM_HYST_SHUT_HYST : Fld := ⟨A.THM_HYST, 8, 5⟩
def F.THM_HYST_XCHK_LIM : Fld := ⟨A.THM_HYST, 13, 8⟩

/-- R386: THM_STATUS. -/
def A.THM_STATUS : Nat := 0xA810C
def F.THM_STATUS_BUSY : Fld := ⟨A.THM_STATUS, 0, 1⟩
def F.THM_STATUS_STEP : Fld := ⟨A.THM_STATUS, 1, 4⟩
def F.THM_STATUS_WARN : Fld := ⟨A.THM_STATUS, 5, 1⟩
def F.THM_STATUS_SHUT_HOLD : Fld := ⟨A.THM_STATUS, 6, 1⟩
def F.THM_STATUS_XFAIL : Fld := ⟨A.THM_STATUS, 7, 9⟩
def F.THM_STATUS_INVALID : Fld := ⟨A.THM_STATUS, 16, 1⟩

/-- R386: THM_Ti. -/
def A.THM_Ti (i : Nat) : Nat := 0xA8110 + 0x4 * i
def F.THM_Ti_TEMP (i : Nat) : Fld := ⟨A.THM_Ti i, 0, 12⟩
def F.THM_Ti_REPL (i : Nat) : Fld := ⟨A.THM_Ti i, 12, 1⟩
def F.THM_Ti_COUNT (i : Nat) : Fld := ⟨A.THM_Ti i, 16, 16⟩

/-- R386: THM_MAX. -/
def A.THM_MAX : Nat := 0xA8134
def F.THM_MAX_MAX : Fld := ⟨A.THM_MAX, 0, 12⟩
def F.THM_MAX_SENSOR : Fld := ⟨A.THM_MAX, 12, 4⟩

/-- R386: THM_CALi. -/
def A.THM_CALi (i : Nat) : Nat := 0xA8140 + 0x4 * i
def F.THM_CALi_C25 (i : Nat) : Fld := ⟨A.THM_CALi i, 0, 16⟩
def F.THM_CALi_SLOPE (i : Nat) : Fld := ⟨A.THM_CALi i, 16, 16⟩

/-! ### Keeper block, 0xB_0000 -/

/-- R411: KPR_STATUS. -/
def A.KPR_STATUS : Nat := 0xB0000
def F.KPR_STATUS_BUSY : Fld := ⟨A.KPR_STATUS, 0, 1⟩
def F.KPR_STATUS_CMD_PEND : Fld := ⟨A.KPR_STATUS, 1, 1⟩
def F.KPR_STATUS_SEALED : Fld := ⟨A.KPR_STATUS, 2, 1⟩
def F.KPR_STATUS_HOLDUP_USED : Fld := ⟨A.KPR_STATUS, 3, 1⟩
def F.KPR_STATUS_CAL_BAD : Fld := ⟨A.KPR_STATUS, 4, 5⟩

/-- R411: KPR_CMD. -/
def A.KPR_CMD : Nat := 0xB0004
def F.KPR_CMD_OP : Fld := ⟨A.KPR_CMD, 0, 4⟩
def F.KPR_CMD_KEY : Fld := ⟨A.KPR_CMD, 8, 8⟩
def F.KPR_CMD_GO : Fld := ⟨A.KPR_CMD, 16, 1⟩
def F.KPR_CMD_RESULT : Fld := ⟨A.KPR_CMD, 20, 3⟩

/-- R411: KPR_WADDR. -/
def A.KPR_WADDR : Nat := 0xB0008
def F.KPR_WADDR_ADDR : Fld := ⟨A.KPR_WADDR, 2, 16⟩

/-- R411: KPR_WLEN. -/
def A.KPR_WLEN : Nat := 0xB000C
def F.KPR_WLEN_LEN : Fld := ⟨A.KPR_WLEN, 0, 6⟩

/-- R411: KPR_RADDR. -/
def A.KPR_RADDR : Nat := 0xB0010
def F.KPR_RADDR_ADDR : Fld := ⟨A.KPR_RADDR, 2, 16⟩

/-- R411: KPR_RDATA. -/
def A.KPR_RDATA : Nat := 0xB0014
def F.KPR_RDATA_DATA : Fld := ⟨A.KPR_RDATA, 0, 32⟩

/-- R411: KPR_RSTAT. -/
def A.KPR_RSTAT : Nat := 0xB0018
def F.KPR_RSTAT_ECC : Fld := ⟨A.KPR_RSTAT, 0, 2⟩

/-- R411: KPR_PROT. -/
def A.KPR_PROT : Nat := 0xB001C
def F.KPR_PROT_UA_PROT : Fld := ⟨A.KPR_PROT, 0, 2⟩
def F.KPR_PROT_PROT_LOCK : Fld := ⟨A.KPR_PROT, 2, 1⟩

/-- R411: KPR_WEARq. -/
def A.KPR_WEARq (i : Nat) : Nat := 0xB0020 + 0x4 * i
def F.KPR_WEARq_GROUPS (i : Nat) : Fld := ⟨A.KPR_WEARq i, 0, 32⟩

/-- R411: KPR_OPMIN. -/
def A.KPR_OPMIN : Nat := 0xB0040
def F.KPR_OPMIN_OPMIN : Fld := ⟨A.KPR_OPMIN, 0, 32⟩

/-- R411: KPR_PCYC. -/
def A.KPR_PCYC : Nat := 0xB0044
def F.KPR_PCYC_PCYC : Fld := ⟨A.KPR_PCYC, 0, 32⟩

/-- R411: KPR_ECC_CNT. -/
def A.KPR_ECC_CNT : Nat := 0xB0048
def F.KPR_ECC_CNT_CORR : Fld := ⟨A.KPR_ECC_CNT, 0, 16⟩
def F.KPR_ECC_CNT_UNCORR : Fld := ⟨A.KPR_ECC_CNT, 16, 16⟩

/-- R411: KPR_WBUFk. -/
def A.KPR_WBUFk (i : Nat) : Nat := 0xB0100 + 0x4 * i
def F.KPR_WBUFk_DATA (i : Nat) : Fld := ⟨A.KPR_WBUFk i, 0, 32⟩

/-! ### Recorder block, 0xC_0000 -/

/-- R412: REC_CFG. -/
def A.REC_CFG : Nat := 0xC0000
def F.REC_CFG_PERSIST : Fld := ⟨A.REC_CFG, 0, 11⟩

/-- R412: REC_CTRL. -/
def A.REC_CTRL : Nat := 0xC0004
def F.REC_CTRL_SNAP : Fld := ⟨A.REC_CTRL, 0, 1⟩
def F.REC_CTRL_FLUSH : Fld := ⟨A.REC_CTRL, 1, 1⟩

/-- R412: REC_STATUS. -/
def A.REC_STATUS : Nat := 0xC0008
def F.REC_STATUS_QLEN : Fld := ⟨A.REC_STATUS, 0, 5⟩
def F.REC_STATUS_FIRST_USED : Fld := ⟨A.REC_STATUS, 5, 7⟩
def F.REC_STATUS_DIRTY : Fld := ⟨A.REC_STATUS, 12, 1⟩
def F.REC_STATUS_LAST_SLOT : Fld := ⟨A.REC_STATUS, 13, 6⟩

/-- R412: REC_SEQ. -/
def A.REC_SEQ : Nat := 0xC000C
def F.REC_SEQ_NEXT : Fld := ⟨A.REC_SEQ, 0, 32⟩

/-- R412: REC_GENr. -/
def A.REC_GENr (i : Nat) : Nat := 0xC0010 + 0x4 * i
def F.REC_GENr_GEN (i : Nat) : Fld := ⟨A.REC_GENr i, 0, 32⟩

/-- R412: REC_LOSTs. -/
def A.REC_LOSTs (i : Nat) : Nat := 0xC0030 + 0x4 * i
def F.REC_LOSTs_LOST (i : Nat) : Fld := ⟨A.REC_LOSTs i, 0, 32⟩

/-- R412: REC_SNAP. -/
def A.REC_SNAP (i : Nat) : Nat := 0xC1000 + 0x4 * i
def F.REC_SNAP_DATA (i : Nat) : Fld := ⟨A.REC_SNAP i, 0, 32⟩

/-- R412: REC_EXTR. -/
def A.REC_EXTR (i : Nat) : Nat := 0xC2000 + 0x4 * i
def F.REC_EXTR_DATA (i : Nat) : Fld := ⟨A.REC_EXTR i, 0, 32⟩

/-- R412: REC_FIRST. -/
def A.REC_FIRST (i : Nat) : Nat := 0xC3000 + 0x4 * i
def F.REC_FIRST_DATA (i : Nat) : Fld := ⟨A.REC_FIRST i, 0, 32⟩

/-- R412: REC_LAST. -/
def A.REC_LAST (i : Nat) : Nat := 0xC3800 + 0x4 * i
def F.REC_LAST_DATA (i : Nat) : Fld := ⟨A.REC_LAST i, 0, 32⟩

/-- R412: REC_QUEUE. -/
def A.REC_QUEUE (i : Nat) : Nat := 0xC4000 + 0x4 * i
def F.REC_QUEUE_DATA (i : Nat) : Fld := ⟨A.REC_QUEUE i, 0, 32⟩

/-! ### Cores block, 0xD_0000 -/

/-- R435: CORE_Ck_STATUS. -/
def A.CORE_Ck_STATUS (i : Nat) : Nat := 0xD0000 + 0x100 * i
def F.CORE_Ck_STATUS_STATE (i : Nat) : Fld := ⟨A.CORE_Ck_STATUS i, 0, 2⟩
def F.CORE_Ck_STATUS_APP (i : Nat) : Fld := ⟨A.CORE_Ck_STATUS i, 2, 1⟩
def F.CORE_Ck_STATUS_EXL (i : Nat) : Fld := ⟨A.CORE_Ck_STATUS i, 3, 1⟩
def F.CORE_Ck_STATUS_RESTARTS (i : Nat) : Fld := ⟨A.CORE_Ck_STATUS i, 4, 8⟩

/-- R435: CORE_Ck_FAULT. -/
def A.CORE_Ck_FAULT (i : Nat) : Nat := 0xD0004 + 0x100 * i
def F.CORE_Ck_FAULT_KIND (i : Nat) : Fld := ⟨A.CORE_Ck_FAULT i, 0, 3⟩
def F.CORE_Ck_FAULT_CAUSE (i : Nat) : Fld := ⟨A.CORE_Ck_FAULT i, 3, 4⟩
def F.CORE_Ck_FAULT_HELD (i : Nat) : Fld := ⟨A.CORE_Ck_FAULT i, 7, 1⟩

/-- R435: CORE_Ck_FPC. -/
def A.CORE_Ck_FPC (i : Nat) : Nat := 0xD0008 + 0x100 * i
def F.CORE_Ck_FPC_PC (i : Nat) : Fld := ⟨A.CORE_Ck_FPC i, 0, 32⟩

/-- R435: CORE_Ck_WDOG. -/
def A.CORE_Ck_WDOG (i : Nat) : Nat := 0xD000C + 0x100 * i
def F.CORE_Ck_WDOG_PERIOD (i : Nat) : Fld := ⟨A.CORE_Ck_WDOG i, 0, 8⟩
def F.CORE_Ck_WDOG_KICK (i : Nat) : Fld := ⟨A.CORE_Ck_WDOG i, 8, 8⟩

/-- R435: CORE_Ck_TIMER. -/
def A.CORE_Ck_TIMER (i : Nat) : Nat := 0xD0010 + 0x100 * i
def F.CORE_Ck_TIMER_COUNT (i : Nat) : Fld := ⟨A.CORE_Ck_TIMER i, 0, 24⟩

/-- R435: CORE_Ck_EVT_EN. -/
def A.CORE_Ck_EVT_EN (i : Nat) : Nat := 0xD0014 + 0x100 * i
def F.CORE_Ck_EVT_EN_EN (i : Nat) : Fld := ⟨A.CORE_Ck_EVT_EN i, 0, 32⟩

/-- R435: CORE_Ck_EVT_PEND. -/
def A.CORE_Ck_EVT_PEND (i : Nat) : Nat := 0xD0018 + 0x100 * i
def F.CORE_Ck_EVT_PEND_MBX (i : Nat) : Fld := ⟨A.CORE_Ck_EVT_PEND i, 0, 1⟩
def F.CORE_Ck_EVT_PEND_TIMER (i : Nat) : Fld := ⟨A.CORE_Ck_EVT_PEND i, 1, 1⟩
def F.CORE_Ck_EVT_PEND_RING (i : Nat) : Fld := ⟨A.CORE_Ck_EVT_PEND i, 3, 1⟩
def F.CORE_Ck_EVT_PEND_CROWN (i : Nat) : Fld := ⟨A.CORE_Ck_EVT_PEND i, 16, 16⟩

/-- R435: CORE_Ck_RING. -/
def A.CORE_Ck_RING (i : Nat) : Nat := 0xD001C + 0x100 * i
def F.CORE_Ck_RING_RING (i : Nat) : Fld := ⟨A.CORE_Ck_RING i, 0, 1⟩

/-- R435: CORE_Ck_ENTRY. -/
def A.CORE_Ck_ENTRY (i : Nat) : Nat := 0xD0020 + 0x100 * i
def F.CORE_Ck_ENTRY_DEST (i : Nat) : Fld := ⟨A.CORE_Ck_ENTRY i, 0, 21⟩

/-- R436: CORE_SBX_CFG. -/
def A.CORE_SBX_CFG : Nat := 0xD8000
def F.CORE_SBX_CFG_BASE : Fld := ⟨A.CORE_SBX_CFG, 0, 5⟩

/-- R436: CORE_SBX_LEFT. -/
def A.CORE_SBX_LEFT : Nat := 0xD8004
def F.CORE_SBX_LEFT_LEFT : Fld := ⟨A.CORE_SBX_LEFT, 0, 24⟩

/-- R436: CORE_SBX_FAULTS. -/
def A.CORE_SBX_FAULTS : Nat := 0xD8008
def F.CORE_SBX_FAULTS_COUNT : Fld := ⟨A.CORE_SBX_FAULTS, 0, 16⟩
def F.CORE_SBX_FAULTS_LAST : Fld := ⟨A.CORE_SBX_FAULTS, 16, 4⟩

/-! ### Live block, 0xE_0000 -/

/-- R452: LIVE_STAGE_CFG. -/
def A.LIVE_STAGE_CFG : Nat := 0xE0000
def F.LIVE_STAGE_CFG_BASE : Fld := ⟨A.LIVE_STAGE_CFG, 0, 3⟩

/-- R452: LIVE_STAGE_PTR. -/
def A.LIVE_STAGE_PTR : Nat := 0xE0004
def F.LIVE_STAGE_PTR_PTR : Fld := ⟨A.LIVE_STAGE_PTR, 2, 16⟩

/-- R452: LIVE_STAGE_DATA. -/
def A.LIVE_STAGE_DATA : Nat := 0xE0008
def F.LIVE_STAGE_DATA_DATA : Fld := ⟨A.LIVE_STAGE_DATA, 0, 32⟩

/-- R452: LIVE_STAGE_CTRL. -/
def A.LIVE_STAGE_CTRL : Nat := 0xE000C
def F.LIVE_STAGE_CTRL_VERIFY : Fld := ⟨A.LIVE_STAGE_CTRL, 0, 1⟩
def F.LIVE_STAGE_CTRL_VERIFIED : Fld := ⟨A.LIVE_STAGE_CTRL, 1, 1⟩
def F.LIVE_STAGE_CTRL_TARGET : Fld := ⟨A.LIVE_STAGE_CTRL, 2, 2⟩
def F.LIVE_STAGE_CTRL_RESULT : Fld := ⟨A.LIVE_STAGE_CTRL, 8, 8⟩

/-- R452: LIVE_HOk. -/
def A.LIVE_HOk (i : Nat) : Nat := 0xE0020 + 0x4 * i
def F.LIVE_HOk_REQ (i : Nat) : Fld := ⟨A.LIVE_HOk i, 0, 1⟩
def F.LIVE_HOk_READY (i : Nat) : Fld := ⟨A.LIVE_HOk i, 1, 1⟩
def F.LIVE_HOk_ALIVE (i : Nat) : Fld := ⟨A.LIVE_HOk i, 2, 1⟩
def F.LIVE_HOk_STATE (i : Nat) : Fld := ⟨A.LIVE_HOk i, 3, 3⟩
def F.LIVE_HOk_RESULT (i : Nat) : Fld := ⟨A.LIVE_HOk i, 6, 4⟩

/-- R452: LIVE_HO_CFG. -/
def A.LIVE_HO_CFG : Nat := 0xE0030
def F.LIVE_HO_CFG_TMO : Fld := ⟨A.LIVE_HO_CFG, 0, 8⟩
def F.LIVE_HO_CFG_ALIVE_TMO : Fld := ⟨A.LIVE_HO_CFG, 8, 8⟩

/-- R452: LIVE_RETIRE. -/
def A.LIVE_RETIRE : Nat := 0xE0040
def F.LIVE_RETIRE_CH : Fld := ⟨A.LIVE_RETIRE, 0, 5⟩
def F.LIVE_RETIRE_GO : Fld := ⟨A.LIVE_RETIRE, 5, 1⟩
def F.LIVE_RETIRE_RESULT : Fld := ⟨A.LIVE_RETIRE, 6, 2⟩

/-- R452: LIVE_RETRIM. -/
def A.LIVE_RETRIM : Nat := 0xE0050
def F.LIVE_RETRIM_LOOP : Fld := ⟨A.LIVE_RETRIM, 0, 4⟩
def F.LIVE_RETRIM_GO : Fld := ⟨A.LIVE_RETRIM, 4, 1⟩
def F.LIVE_RETRIM_COMMIT : Fld := ⟨A.LIVE_RETRIM, 5, 1⟩
def F.LIVE_RETRIM_RUN : Fld := ⟨A.LIVE_RETRIM, 6, 1⟩
def F.LIVE_RETRIM_KEY : Fld := ⟨A.LIVE_RETRIM, 8, 8⟩
def F.LIVE_RETRIM_RESULT : Fld := ⟨A.LIVE_RETRIM, 16, 3⟩

/-- R452: LIVE_FLASH. -/
def A.LIVE_FLASH : Nat := 0xE0060
def F.LIVE_FLASH_GUARD : Fld := ⟨A.LIVE_FLASH, 0, 1⟩

/-- R452: LIVE_WTRIMn. -/
def A.LIVE_WTRIMn (i : Nat) : Nat := 0xE0100 + 0x8 * i
def F.LIVE_WTRIMn_OFS (i : Nat) : Fld := ⟨A.LIVE_WTRIMn i, 0, 8⟩
def F.LIVE_WTRIMn_GAIN (i : Nat) : Fld := ⟨A.LIVE_WTRIMn i, 8, 16⟩

/-- R452: LIVE_TTRIMn. -/
def A.LIVE_TTRIMn (i : Nat) : Nat := 0xE0104 + 0x8 * i
def F.LIVE_TTRIMn_OFS (i : Nat) : Fld := ⟨A.LIVE_TTRIMn i, 0, 8⟩
def F.LIVE_TTRIMn_GAIN (i : Nat) : Fld := ⟨A.LIVE_TTRIMn i, 8, 16⟩

/-! ### Test block, 0xF_0000 -/

/-- R453: TST_CFG. -/
def A.TST_CFG : Nat := 0xF0000
def F.TST_CFG_ALLOW : Fld := ⟨A.TST_CFG, 0, 1⟩
def F.TST_CFG_DEBUG_OPEN : Fld := ⟨A.TST_CFG, 1, 1⟩

/-- R453: TST_KEY. -/
def A.TST_KEY : Nat := 0xF0004
def F.TST_KEY_KEY : Fld := ⟨A.TST_KEY, 0, 8⟩

/-- R453: TST_CTRL. -/
def A.TST_CTRL : Nat := 0xF0008
def F.TST_CTRL_UNLOCKED : Fld := ⟨A.TST_CTRL, 0, 1⟩
def F.TST_CTRL_RELOCK : Fld := ⟨A.TST_CTRL, 1, 1⟩
def F.TST_CTRL_LOG_CLR : Fld := ⟨A.TST_CTRL, 2, 1⟩

/-- R453: TST_VLK. -/
def A.TST_VLK : Nat := 0xF0010
def F.TST_VLK_DLY : Fld := ⟨A.TST_VLK, 0, 16⟩

/-- R453: TST_MBXk. -/
def A.TST_MBXk (i : Nat) : Nat := 0xF0014 + 0x4 * i
def F.TST_MBXk_CH (i : Nat) : Fld := ⟨A.TST_MBXk i, 0, 8⟩
def F.TST_MBXk_EN (i : Nat) : Fld := ⟨A.TST_MBXk i, 8, 1⟩

/-- R453: TST_JIT_SEL. -/
def A.TST_JIT_SEL : Nat := 0xF0030
def F.TST_JIT_SEL_SEL : Fld := ⟨A.TST_JIT_SEL, 0, 32⟩

/-- R453: TST_JIT. -/
def A.TST_JIT : Nat := 0xF0034
def F.TST_JIT_J : Fld := ⟨A.TST_JIT, 0, 5⟩

/-- R453: TST_TRG_SEL. -/
def A.TST_TRG_SEL : Nat := 0xF0038
def F.TST_TRG_SEL_SEL : Fld := ⟨A.TST_TRG_SEL, 0, 32⟩

/-- R453: TST_TRG. -/
def A.TST_TRG : Nat := 0xF003C
def F.TST_TRG_D : Fld := ⟨A.TST_TRG, 0, 8⟩

/-- R453: TST_TW. -/
def A.TST_TW : Nat := 0xF0040
def F.TST_TW_S : Fld := ⟨A.TST_TW, 0, 24⟩

/-- R453: TST_KPR. -/
def A.TST_KPR : Nat := 0xF0044
def F.TST_KPR_W : Fld := ⟨A.TST_KPR, 0, 4⟩

/-- R453: TST_PAR. -/
def A.TST_PAR : Nat := 0xF0048
def F.TST_PAR_ADDR : Fld := ⟨A.TST_PAR, 0, 21⟩
def F.TST_PAR_SPACE : Fld := ⟨A.TST_PAR, 21, 1⟩
def F.TST_PAR_GO : Fld := ⟨A.TST_PAR, 22, 1⟩

/-- R453: TST_LOG_IDX. -/
def A.TST_LOG_IDX : Nat := 0xF0050
def F.TST_LOG_IDX_NEXT : Fld := ⟨A.TST_LOG_IDX, 0, 4⟩
def F.TST_LOG_IDX_WRAPPED : Fld := ⟨A.TST_LOG_IDX, 4, 1⟩

/-- R453: TST_LOGi_MS. -/
def A.TST_LOGi_MS (i : Nat) : Nat := 0xF0100 + 0x10 * i
def F.TST_LOGi_MS_MS (i : Nat) : Fld := ⟨A.TST_LOGi_MS i, 0, 32⟩

/-- R453: TST_LOGi_OFF. -/
def A.TST_LOGi_OFF (i : Nat) : Nat := 0xF0104 + 0x10 * i
def F.TST_LOGi_OFF_OFF (i : Nat) : Fld := ⟨A.TST_LOGi_OFF i, 0, 12⟩

/-- R453: TST_LOGi_VAL. -/
def A.TST_LOGi_VAL (i : Nat) : Nat := 0xF0108 + 0x10 * i
def F.TST_LOGi_VAL_VAL (i : Nat) : Fld := ⟨A.TST_LOGi_VAL i, 0, 32⟩

end Sys2Proof.Machine
end

