-- ==== Sys2Proof/Machine/RegTable.lean ====
section
/-!
DEFINITION. The register space of Tables 1.7 to 15.6: the table of classes, with access, owner, domain and reset of every field.
Every class is one register of the manual; its instances are reached through two strides (R8).
-/

namespace Sys2Proof.Machine

/-- The access codes of Table 0.6 that say what a write does; `rwsh` is RW/SH. -/
inductive Acc where
  | rw | ro | wo | w1c | w1s | rwsh
  deriving DecidableEq, Repr

/-- The access codes of Table 0.6 that say who may write. -/
inductive Cond where
  | free | own | lck | ownlck
  deriving DecidableEq, Repr

/-- The Reset column (Table 0.7): a constant, an `img` field with its factory default, a `cal` field,
or a value that depends on the instance (`resetSpecial`): an `img` one, or a fixed one. -/
inductive Rst where
  | const (v : Nat)
  | img (v : Nat)
  | cal
  | special
  | constSpecial
  deriving DecidableEq, Repr

/-- The domain a register lies in; `engine` is D7 for CH0-CH15 and D8 for CH16-CH31. -/
inductive RegDom where
  | d0 | d2 | d9 | d10 | engine
  deriving DecidableEq, Repr

/-- Whose OWN fields a register's are (Table 10.7, and the registers that name their own writers). -/
inductive Owner where
  | none | seq | loop | chLoop | slotLoop | port | anyPort | mailbox | irqCause | irqEn | userArea | keeper
  | recorder | anyCore | coreWin | sandbox | liveLoop | handover | live | test
  deriving DecidableEq, Repr

/-- A field of a register as its field table gives it. -/
structure FieldD where
  lo : Nat
  width : Nat
  acc : Acc
  cond : Cond
  rst : Rst
  deriving DecidableEq, Repr

/-- A register of the manual: instance (i, j) lies at base + s1 * i + s2 * j. -/
structure RegClass where
  name : RegName
  base : Nat
  s1 : Nat
  n1 : Nat
  s2 : Nat
  n2 : Nat
  dom : RegDom
  own : Owner
  fields : List FieldD
  deriving DecidableEq, Repr

def regsSystem0 : List RegClass := [
  ⟨.SUPPLY_STATUS, 0x100, 0x100000, 1, 0x100000, 1, .d0, .none,
    [⟨0, 1, .ro, .free, .const 0⟩, ⟨1, 3, .ro, .free, .const 0⟩, ⟨4, 1, .ro, .free, .const 0⟩, ⟨5, 4, .ro, .free, .const 0⟩, ⟨9, 1, .ro, .free, .const 0⟩, ⟨10, 1, .ro, .free, .const 0⟩, ⟨11, 1, .ro, .free, .const 0⟩, ⟨12, 1, .ro, .free, .const 0⟩, ⟨13, 1, .ro, .free, .const 0⟩, ⟨14, 1, .ro, .free, .const 0⟩, ⟨15, 1, .ro, .free, .const 0⟩, ⟨16, 1, .ro, .free, .const 0⟩]⟩,
  ⟨.CLK_CFG, 0x104, 0x100000, 1, 0x100000, 1, .d0, .none,
    [⟨0, 1, .rw, .own, .img 0x0⟩, ⟨1, 4, .rw, .own, .img 0x8⟩, ⟨5, 1, .rw, .own, .img 0x0⟩, ⟨6, 1, .rw, .own, .const 0⟩]⟩,
  ⟨.CLK_STATUS, 0x108, 0x100000, 1, 0x100000, 1, .d0, .none,
    [⟨0, 1, .ro, .free, .const 0⟩, ⟨1, 1, .w1c, .free, .const 0⟩, ⟨2, 1, .ro, .free, .const 0⟩, ⟨3, 1, .ro, .free, .const 0⟩, ⟨4, 1, .ro, .free, .const 0⟩, ⟨5, 1, .ro, .free, .const 0⟩, ⟨6, 1, .w1c, .free, .const 0⟩, ⟨7, 2, .ro, .free, .const 0⟩]⟩,
  ⟨.PWR_DOM_REQ, 0x110, 0x100000, 1, 0x100000, 1, .d0, .none,
    [⟨0, 1, .ro, .free, .const 1⟩, ⟨1, 1, .rw, .own, .img 0x0⟩, ⟨3, 3, .rw, .own, .img 0x7⟩, ⟨7, 5, .rw, .own, .img 0x0⟩]⟩,
  ⟨.PWR_DOM_STATUS, 0x114, 0x100000, 1, 0x100000, 1, .d0, .none,
    [⟨0, 12, .ro, .free, .const 0⟩]⟩,
  ⟨.DORMANT_CFG, 0x118, 0x100000, 1, 0x100000, 1, .d0, .none,
    [⟨0, 8, .rw, .own, .img 0x55⟩, ⟨8, 3, .rw, .own, .img 0x2⟩, ⟨11, 2, .rw, .own, .img 0x0⟩, ⟨16, 1, .w1s, .own, .const 0⟩, ⟨17, 1, .w1c, .free, .const 0⟩, ⟨18, 3, .ro, .free, .const 0⟩]⟩,
  ⟨.WAKE_CFG, 0x11C, 0x100000, 1, 0x100000, 1, .d0, .none,
    [⟨0, 4, .rw, .own, .img 0xF⟩, ⟨4, 4, .rw, .own, .img 0xF⟩, ⟨8, 3, .rw, .own, .img 0x7⟩, ⟨11, 1, .rw, .own, .img 0x1⟩, ⟨12, 1, .rw, .own, .img 0x1⟩, ⟨13, 1, .rw, .own, .img 0x1⟩]⟩,
  ⟨.WAKE_CAUSE, 0x120, 0x100000, 1, 0x100000, 1, .d0, .none,
    [⟨0, 4, .w1c, .free, .const 0⟩, ⟨4, 4, .w1c, .free, .const 0⟩, ⟨8, 3, .w1c, .free, .const 0⟩, ⟨11, 1, .w1c, .free, .const 0⟩, ⟨12, 1, .w1c, .free, .const 0⟩, ⟨13, 1, .w1c, .free, .const 0⟩, ⟨14, 1, .w1c, .free, .const 0⟩]⟩,
  ⟨.WAKE_TIMER, 0x124, 0x100000, 1, 0x100000, 1, .d0, .none,
    [⟨0, 24, .rw, .own, .const 0⟩]⟩,
  ⟨.START_STATUS, 0x200, 0x100000, 1, 0x100000, 1, .d2, .none,
    [⟨0, 4, .ro, .free, .const 0⟩, ⟨4, 4, .ro, .free, .const 0⟩, ⟨8, 1, .ro, .free, .const 0⟩, ⟨9, 1, .ro, .free, .const 0⟩]⟩,
  ⟨.START_CFG, 0x204, 0x100000, 1, 0x100000, 1, .d2, .seq,
    [⟨0, 6, .rw, .own, .img 0x0⟩, ⟨8, 3, .rw, .own, .img 0x3⟩, ⟨12, 8, .rw, .own, .img 0x32⟩, ⟨20, 1, .rw, .own, .img 0x1⟩]⟩,
  ⟨.START_REASON, 0x208, 0x100000, 1, 0x100000, 1, .d2, .none,
    [⟨0, 8, .ro, .free, .const 0⟩, ⟨8, 8, .ro, .free, .const 0⟩, ⟨16, 8, .ro, .free, .const 0⟩]⟩]

def regsSystem1 : List RegClass := [
  ⟨.START_HEALTH, 0x20C, 0x100000, 1, 0x100000, 1, .d2, .none,
    [⟨0, 4, .w1s, .free, .const 0⟩, ⟨4, 4, .ro, .free, .const 0⟩]⟩,
  ⟨.START_CTRL, 0x210, 0x100000, 1, 0x100000, 1, .d2, .seq,
    [⟨0, 8, .wo, .free, .const 0⟩, ⟨8, 1, .w1s, .own, .const 0⟩, ⟨9, 1, .w1s, .own, .const 0⟩, ⟨10, 1, .w1s, .own, .const 0⟩]⟩,
  ⟨.IMG_STATUS, 0x214, 0x100000, 1, 0x100000, 1, .d2, .none,
    [⟨0, 1, .ro, .free, .const 0⟩, ⟨1, 1, .ro, .free, .const 0⟩, ⟨2, 2, .ro, .free, .const 0⟩, ⟨4, 2, .ro, .free, .const 0⟩, ⟨6, 8, .ro, .free, .const 0⟩, ⟨14, 8, .ro, .free, .const 0⟩]⟩,
  ⟨.IMG_GEN, 0x218, 0x100000, 1, 0x100000, 1, .d2, .none,
    [⟨0, 32, .ro, .free, .const 0⟩]⟩,
  ⟨.IMG_LEN, 0x21C, 0x100000, 1, 0x100000, 1, .d2, .none,
    [⟨0, 32, .ro, .free, .const 0⟩]⟩,
  ⟨.FLASH_XFER_CTRL, 0x220, 0x100000, 1, 0x100000, 1, .d2, .seq,
    [⟨0, 8, .rw, .own, .const 0⟩, ⟨8, 2, .rw, .own, .const 0⟩, ⟨10, 4, .rw, .own, .const 0⟩, ⟨14, 7, .rw, .own, .const 0⟩, ⟨21, 1, .rw, .own, .const 0⟩, ⟨22, 1, .w1s, .own, .const 0⟩, ⟨23, 1, .w1c, .free, .const 0⟩]⟩,
  ⟨.FLASH_XFER_ADDR, 0x224, 0x100000, 1, 0x100000, 1, .d2, .seq,
    [⟨0, 32, .rw, .own, .const 0⟩]⟩,
  ⟨.FLASH_XFER_BUFk, 0x240, 0x4, 16, 0x100000, 1, .d2, .seq,
    [⟨0, 32, .rw, .own, .const 0⟩]⟩]

/-- The System block, 0x0_0000 (Table 0.5). -/
def regsSystem : List RegClass :=
  regsSystem0 ++ regsSystem1

def regsEngine0 : List RegClass := [
  ⟨.PE_CHn_CTRL, 0x10000, 0x100, 32, 0x100000, 1, .engine, .none,
    [⟨0, 1, .rwsh, .own, .const 0⟩, ⟨1, 1, .rwsh, .own, .img 0x0⟩, ⟨2, 1, .rwsh, .own, .img 0x1⟩]⟩,
  ⟨.PE_CHn_TOP, 0x10004, 0x100, 32, 0x100000, 1, .engine, .none,
    [⟨0, 12, .rwsh, .own, .special⟩]⟩,
  ⟨.PE_CHn_PHASE, 0x10008, 0x100, 32, 0x100000, 1, .engine, .none,
    [⟨0, 13, .rwsh, .own, .img 0x0⟩]⟩,
  ⟨.PE_CHn_CMP_DN, 0x1000C, 0x100, 32, 0x100000, 1, .engine, .none,
    [⟨0, 19, .rwsh, .own, .const 0⟩]⟩,
  ⟨.PE_CHn_CMP_UP, 0x10010, 0x100, 32, 0x100000, 1, .engine, .none,
    [⟨0, 19, .rwsh, .own, .const 0⟩]⟩,
  ⟨.PE_CHn_TRIM, 0x10014, 0x100, 32, 0x100000, 1, .engine, .none,
    [⟨0, 12, .rwsh, .own, .const 0⟩]⟩,
  ⟨.PE_CHn_MIN, 0x10018, 0x100, 32, 0x100000, 1, .engine, .none,
    [⟨0, 13, .rwsh, .own, .special⟩, ⟨16, 13, .rwsh, .own, .special⟩]⟩,
  ⟨.PE_CHn_DT, 0x1001C, 0x100, 32, 0x100000, 1, .engine, .none,
    [⟨0, 7, .rwsh, .own, .special⟩, ⟨8, 7, .rwsh, .own, .special⟩]⟩,
  ⟨.PE_CHn_TRGk, 0x10020, 0x100, 32, 0x4, 4, .engine, .none,
    [⟨0, 19, .rwsh, .own, .special⟩, ⟨20, 2, .rwsh, .own, .special⟩, ⟨22, 1, .rwsh, .own, .img 0x0⟩]⟩,
  ⟨.PE_CHn_STATUS, 0x10030, 0x100, 32, 0x100000, 1, .engine, .none,
    [⟨0, 1, .ro, .free, .const 0⟩, ⟨1, 2, .ro, .free, .const 0⟩, ⟨3, 1, .ro, .free, .const 0⟩, ⟨4, 1, .ro, .free, .const 0⟩, ⟨5, 1, .ro, .free, .const 0⟩, ⟨6, 5, .ro, .free, .const 0⟩]⟩,
  ⟨.PE_CHn_MINP_CNT, 0x10034, 0x100, 32, 0x100000, 1, .engine, .none,
    [⟨0, 8, .ro, .free, .const 0⟩, ⟨8, 8, .ro, .free, .const 0⟩, ⟨16, 8, .ro, .free, .const 0⟩, ⟨24, 8, .ro, .free, .const 0⟩]⟩,
  ⟨.PE_CHn_POS, 0x10038, 0x100, 32, 0x100000, 1, .engine, .none,
    [⟨0, 13, .ro, .free, .const 0⟩, ⟨13, 1, .ro, .free, .const 0⟩]⟩]

def regsEngine1 : List RegClass := [
  ⟨.PE_CTRL, 0x18000, 0x100000, 1, 0x100000, 1, .d9, .none,
    [⟨0, 1, .rw, .own, .img 0x1⟩, ⟨1, 1, .w1s, .own, .const 0⟩, ⟨2, 1, .w1s, .own, .const 0⟩]⟩,
  ⟨.PE_LOAD_SEL, 0x18004, 0x100000, 1, 0x100000, 1, .d9, .none,
    [⟨0, 32, .rw, .own, .const 0⟩]⟩,
  ⟨.PE_STATUS, 0x18008, 0x100000, 1, 0x100000, 1, .d9, .none,
    [⟨0, 1, .ro, .free, .const 0⟩, ⟨1, 1, .ro, .free, .const 0⟩, ⟨2, 1, .ro, .free, .const 0⟩, ⟨3, 1, .ro, .free, .const 0⟩, ⟨4, 1, .w1c, .free, .const 0⟩, ⟨5, 1, .w1c, .free, .const 0⟩, ⟨6, 1, .w1c, .free, .const 0⟩, ⟨7, 1, .w1c, .free, .const 0⟩]⟩,
  ⟨.PE_SYNC_CFG, 0x1800C, 0x100000, 1, 0x100000, 1, .d9, .none,
    [⟨0, 10, .rw, .own, .img 0x0⟩]⟩,
  ⟨.PE_CAL_CTRL, 0x18010, 0x100000, 1, 0x100000, 1, .d9, .none,
    [⟨0, 1, .w1s, .own, .const 0⟩, ⟨1, 1, .w1s, .own, .const 0⟩, ⟨8, 8, .rw, .own, .img 0xA⟩]⟩,
  ⟨.PE_CAL_CODE, 0x18014, 0x100000, 1, 0x100000, 1, .d9, .none,
    [⟨0, 10, .ro, .free, .const 0⟩, ⟨16, 10, .ro, .free, .const 0⟩]⟩,
  ⟨.PE_FAULT_MASK, 0x18018, 0x100000, 1, 0x100000, 1, .d9, .none,
    [⟨0, 32, .rw, .own, .img 0xFFFFFFFF⟩]⟩,
  ⟨.PE_FAULT_STATUS, 0x1801C, 0x100000, 1, 0x100000, 1, .d9, .none,
    [⟨0, 32, .w1c, .free, .const 0⟩]⟩,
  ⟨.PE_ROTk, 0x18020, 0x4, 8, 0x100000, 1, .d9, .none,
    [⟨0, 16, .rw, .own, .img 0x0⟩, ⟨16, 1, .rw, .own, .img 0x0⟩]⟩,
  ⟨.PE_CNT_CLR, 0x18040, 0x100000, 1, 0x100000, 1, .d9, .none,
    [⟨0, 32, .wo, .own, .const 0⟩]⟩,
  ⟨.PE_TRG_DROP, 0x18044, 0x100000, 1, 0x100000, 1, .d9, .none,
    [⟨0, 32, .ro, .free, .const 0⟩]⟩]

/-- The Engine block, 0x1_0000 (Table 0.5). -/
def regsEngine : List RegClass :=
  regsEngine0 ++ regsEngine1

def regsLoops0 : List RegClass := [
  ⟨.LP_Ln_CTRL, 0x20000, 0x400, 12, 0x100000, 1, .d9, .loop,
    [⟨0, 1, .rw, .own, .img 0x1⟩, ⟨1, 1, .rw, .own, .img 0x1⟩, ⟨2, 2, .rw, .own, .img 0x1⟩, ⟨4, 1, .rw, .own, .img 0x1⟩, ⟨5, 1, .rw, .own, .img 0x1⟩, ⟨6, 1, .rw, .own, .img 0x1⟩, ⟨8, 1, .w1s, .own, .const 0⟩, ⟨9, 1, .w1s, .own, .const 0⟩, ⟨10, 1, .w1s, .own, .const 0⟩]⟩,
  ⟨.LP_Ln_MEMBERS, 0x20004, 0x400, 12, 0x100000, 1, .d9, .loop,
    [⟨0, 5, .rw, .own, .img 0x0⟩, ⟨5, 5, .rw, .own, .img 0x0⟩, ⟨11, 5, .rw, .own, .img 0x1F⟩]⟩,
  ⟨.LP_Ln_VREF, 0x20008, 0x400, 12, 0x100000, 1, .d9, .loop,
    [⟨0, 11, .rw, .own, .img 0x0⟩]⟩,
  ⟨.LP_Ln_SLEW, 0x2000C, 0x400, 12, 0x100000, 1, .d9, .loop,
    [⟨0, 8, .rw, .own, .img 0x10⟩, ⟨8, 8, .rw, .own, .img 0x8⟩, ⟨16, 8, .rw, .own, .img 0x8⟩]⟩,
  ⟨.LP_Ln_LL, 0x20010, 0x400, 12, 0x100000, 1, .d9, .loop,
    [⟨0, 9, .rw, .own, .img 0x0⟩, ⟨9, 3, .rw, .own, .img 0x4⟩]⟩,
  ⟨.LP_Ln_DUTY, 0x20014, 0x400, 12, 0x100000, 1, .d9, .loop,
    [⟨0, 12, .rw, .own, .img 0x4B0⟩, ⟨16, 16, .rw, .own, .img 0x4000⟩]⟩,
  ⟨.LP_Ln_SENSE, 0x20018, 0x400, 12, 0x100000, 1, .d9, .loop,
    [⟨0, 2, .rw, .own, .img 0x1⟩, ⟨2, 1, .rw, .own, .img 0x0⟩, ⟨8, 8, .rw, .own, .img 0x32⟩]⟩,
  ⟨.LP_Ln_IMON, 0x2001C, 0x400, 12, 0x100000, 1, .d9, .loop,
    [⟨0, 12, .rw, .own, .img 0x7D0⟩, ⟨16, 12, .rw, .own, .img 0x1F4⟩]⟩,
  ⟨.LP_Ln_CARD, 0x20020, 0x400, 12, 0x100000, 1, .d9, .loop,
    [⟨0, 8, .rw, .own, .img 0x40⟩, ⟨8, 4, .rw, .own, .img 0x2⟩, ⟨16, 8, .rw, .own, .img 0xA0⟩]⟩,
  ⟨.LP_Ln_PHCFG, 0x20024, 0x400, 12, 0x100000, 1, .d9, .loop,
    [⟨0, 4, .rw, .own, .img 0x1⟩, ⟨4, 4, .rw, .own, .img 0x3⟩, ⟨8, 5, .rw, .own, .img 0x0⟩]⟩,
  ⟨.LP_Ln_FULL, 0x20028, 0x400, 12, 0x100000, 1, .d9, .loop,
    [⟨0, 8, .rw, .own, .img 0x28⟩, ⟨8, 8, .rw, .own, .img 0x14⟩, ⟨16, 16, .rw, .own, .img 0xC8⟩]⟩,
  ⟨.LP_Ln_FF, 0x2002C, 0x400, 12, 0x100000, 1, .d9, .loop,
    [⟨0, 16, .rw, .own, .img 0x0⟩, ⟨16, 8, .rw, .own, .img 0x28⟩, ⟨24, 8, .rw, .own, .img 0xA⟩]⟩]

def regsLoops1 : List RegClass := [
  ⟨.LP_Ln_SETTLE, 0x20030, 0x400, 12, 0x100000, 1, .d9, .loop,
    [⟨0, 8, .rw, .own, .img 0x8⟩, ⟨8, 8, .rw, .own, .img 0x14⟩]⟩,
  ⟨.LP_Ln_FB, 0x20034, 0x400, 12, 0x100000, 1, .d9, .loop,
    [⟨0, 10, .rw, .own, .img 0x0⟩, ⟨10, 1, .rw, .own, .img 0x1⟩, ⟨12, 8, .rw, .own, .img 0x2⟩, ⟨20, 8, .rw, .own, .img 0x4⟩]⟩,
  ⟨.LP_Ln_PHTBLe, 0x20040, 0x400, 12, 0x4, 8, .d9, .loop,
    [⟨0, 10, .rw, .own, .img 0x0⟩, ⟨10, 8, .rw, .own, .img 0x0⟩, ⟨18, 5, .rw, .own, .img 0x18⟩, ⟨24, 2, .rw, .own, .img 0x0⟩]⟩,
  ⟨.LP_Ln_BLK_CFG, 0x20060, 0x400, 12, 0x100000, 1, .d9, .loop,
    [⟨0, 3, .rw, .own, .img 0x1⟩, ⟨3, 1, .rw, .own, .img 0x1⟩, ⟨8, 8, .rw, .own, .img 0x14⟩, ⟨16, 8, .rw, .own, .img 0x1E⟩, ⟨24, 8, .rw, .own, .img 0x37⟩]⟩,
  ⟨.LP_Ln_BLK_ACC, 0x20064, 0x400, 12, 0x100000, 1, .d9, .loop,
    [⟨0, 8, .rw, .own, .img 0x14⟩, ⟨8, 8, .rw, .own, .img 0x14⟩, ⟨16, 8, .rw, .own, .img 0x2D⟩, ⟨24, 8, .rw, .own, .img 0x18⟩]⟩,
  ⟨.LP_Ln_BLK_CTRL, 0x20068, 0x400, 12, 0x100000, 1, .d9, .loop,
    [⟨0, 1, .w1s, .own, .const 0⟩, ⟨1, 1, .ro, .free, .const 0⟩, ⟨4, 4, .ro, .free, .const 0⟩, ⟨8, 4, .rw, .own, .const 0⟩]⟩,
  ⟨.LP_Ln_STATUS, 0x20080, 0x400, 12, 0x100000, 1, .d9, .loop,
    [⟨0, 3, .ro, .free, .const 0⟩, ⟨3, 5, .ro, .free, .const 0⟩, ⟨8, 1, .ro, .free, .const 0⟩, ⟨9, 2, .ro, .free, .const 0⟩, ⟨11, 1, .ro, .free, .const 0⟩, ⟨12, 1, .ro, .free, .const 0⟩, ⟨13, 1, .ro, .free, .const 0⟩, ⟨14, 1, .w1c, .free, .const 0⟩, ⟨15, 1, .w1c, .free, .const 0⟩]⟩,
  ⟨.LP_Ln_VNOW, 0x20084, 0x400, 12, 0x100000, 1, .d9, .loop,
    [⟨0, 11, .ro, .free, .const 0⟩, ⟨16, 16, .ro, .free, .const 0⟩]⟩,
  ⟨.LP_Ln_IRAIL, 0x20088, 0x400, 12, 0x100000, 1, .d9, .loop,
    [⟨0, 16, .ro, .free, .const 0⟩, ⟨16, 16, .ro, .free, .const 0⟩]⟩,
  ⟨.LP_Ln_COEF, 0x20100, 0x400, 12, 0x4, 64, .d9, .loop,
    [⟨0, 4, .rw, .own, .img 0x0⟩, ⟨4, 16, .rw, .own, .special⟩]⟩,
  ⟨.LP_CHn_I, 0x28000, 0x4, 24, 0x100000, 1, .d9, .none,
    [⟨0, 16, .ro, .free, .const 0⟩, ⟨16, 16, .ro, .free, .const 0⟩]⟩,
  ⟨.LP_CHn_CARD, 0x28080, 0x4, 24, 0x100000, 1, .d9, .chLoop,
    [⟨0, 10, .ro, .free, .const 0⟩, ⟨16, 1, .w1c, .own, .const 0⟩, ⟨17, 1, .ro, .free, .const 0⟩]⟩]

def regsLoops2 : List RegClass := [
  ⟨.LP_BLK_USER, 0x28100, 0x100000, 1, 0x100000, 1, .d9, .none,
    [⟨0, 4, .ro, .free, .const 0xF⟩]⟩,
  ⟨.LP_BLK_BUF, 0x29000, 0x4, 1023, 0x100000, 1, .d9, .none,
    [⟨0, 16, .ro, .free, .const 0⟩, ⟨16, 16, .ro, .free, .const 0⟩]⟩]

/-- The Loops block, 0x2_0000 (Table 0.5). -/
def regsLoops : List RegClass :=
  regsLoops0 ++ regsLoops1 ++ regsLoops2

def regsLink0 : List RegClass := [
  ⟨.VLK_n_CFG, 0x30000, 0x100, 4, 0x100000, 1, .d9, .none,
    [⟨0, 1, .rw, .own, .img 0x0⟩, ⟨1, 6, .rw, .own, .img 0x4⟩, ⟨7, 1, .w1s, .own, .const 0⟩, ⟨8, 8, .rw, .own, .img 0xA⟩, ⟨16, 4, .rw, .own, .img 0x1⟩, ⟨24, 7, .rw, .own, .img 0x7F⟩]⟩,
  ⟨.VLK_n_MAP, 0x30004, 0x100, 4, 0x100000, 1, .d9, .none,
    [⟨0, 4, .rw, .own, .img 0xF⟩, ⟨4, 1, .rw, .own, .img 0x0⟩, ⟨8, 4, .rw, .own, .img 0xF⟩, ⟨12, 1, .rw, .own, .img 0x0⟩]⟩,
  ⟨.VLK_n_LIMs, 0x30008, 0x100, 4, 0x4, 2, .d9, .slotLoop,
    [⟨0, 11, .rw, .own, .img 0xC8⟩, ⟨16, 11, .rw, .own, .img 0x7D0⟩]⟩,
  ⟨.VLK_n_ALERTs, 0x30010, 0x100, 4, 0x4, 2, .d9, .slotLoop,
    [⟨0, 7, .w1c, .own, .const 0⟩]⟩,
  ⟨.VLK_n_STATUS, 0x30018, 0x100, 4, 0x100000, 1, .d9, .none,
    [⟨0, 1, .ro, .free, .const 0⟩, ⟨1, 1, .ro, .free, .const 0⟩, ⟨2, 1, .ro, .free, .const 0⟩, ⟨3, 2, .ro, .free, .const 0⟩, ⟨5, 2, .ro, .free, .const 0⟩, ⟨7, 2, .ro, .free, .const 0⟩]⟩,
  ⟨.VLK_n_ERR, 0x3001C, 0x100, 4, 0x100000, 1, .d9, .none,
    [⟨0, 8, .ro, .free, .const 0⟩, ⟨8, 8, .ro, .free, .const 0⟩, ⟨16, 8, .ro, .free, .const 0⟩, ⟨24, 8, .ro, .free, .const 0⟩]⟩,
  ⟨.VLK_n_LAST, 0x30020, 0x100, 4, 0x100000, 1, .d9, .none,
    [⟨0, 32, .ro, .free, .const 0⟩]⟩,
  ⟨.VLK_n_LRESP, 0x30024, 0x100, 4, 0x100000, 1, .d9, .none,
    [⟨0, 16, .ro, .free, .const 0⟩]⟩]

/-- The Link block, 0x3_0000 (Table 0.5). -/
def regsLink : List RegClass :=
  regsLink0

def regsProtection0 : List RegClass := [
  ⟨.PROT_Ln_OV, 0x40000, 0x100, 12, 0x100000, 1, .d9, .loop,
    [⟨0, 10, .rw, .own, .img 0x230⟩, ⟨10, 6, .rw, .own, .img 0x28⟩]⟩,
  ⟨.PROT_Ln_SC, 0x40004, 0x100, 12, 0x100000, 1, .d9, .loop,
    [⟨0, 8, .rw, .own, .img 0x3C⟩, ⟨8, 4, .rw, .own, .img 0x8⟩, ⟨12, 4, .rw, .own, .img 0x4⟩]⟩,
  ⟨.PROT_Ln_OL, 0x40008, 0x100, 12, 0x100000, 1, .d9, .loop,
    [⟨0, 10, .rw, .own, .img 0x3FF⟩, ⟨10, 8, .rw, .own, .img 0x14⟩, ⟨18, 4, .rw, .own, .img 0xA⟩]⟩,
  ⟨.PROT_Ln_OLCAP, 0x4000C, 0x100, 12, 0x100000, 1, .d9, .none,
    [⟨0, 10, .rw, .free, .const 0x3FF⟩, ⟨16, 10, .ro, .free, .const 0⟩]⟩,
  ⟨.PROT_Ln_UV, 0x40010, 0x100, 12, 0x100000, 1, .d9, .loop,
    [⟨0, 7, .rw, .own, .img 0x3C⟩, ⟨8, 8, .rw, .own, .img 0xA⟩, ⟨16, 1, .rw, .own, .img 0x0⟩]⟩,
  ⟨.PROT_Ln_TRK, 0x40014, 0x100, 12, 0x100000, 1, .d9, .loop,
    [⟨0, 7, .rw, .own, .img 0x32⟩, ⟨8, 8, .rw, .own, .img 0x14⟩]⟩,
  ⟨.PROT_Ln_HIC, 0x40018, 0x100, 12, 0x100000, 1, .d9, .loop,
    [⟨0, 8, .rw, .own, .img 0x14⟩, ⟨8, 3, .rw, .own, .img 0x3⟩, ⟨16, 8, .rw, .own, .img 0x64⟩]⟩,
  ⟨.PROT_Ln_FB, 0x4001C, 0x100, 12, 0x100000, 1, .d9, .loop,
    [⟨0, 8, .rw, .own, .img 0x28⟩, ⟨8, 8, .rw, .own, .img 0xA⟩]⟩,
  ⟨.PROT_Ln_RET, 0x40020, 0x100, 12, 0x100000, 1, .d9, .loop,
    [⟨0, 1, .rw, .own, .img 0x1⟩, ⟨1, 4, .rw, .own, .img 0x4⟩, ⟨5, 1, .rw, .own, .img 0x1⟩, ⟨6, 8, .rw, .own, .img 0x14⟩, ⟨14, 4, .rw, .own, .img 0x8⟩]⟩,
  ⟨.PROT_Ln_STATUS, 0x40040, 0x100, 12, 0x100000, 1, .d9, .loop,
    [⟨0, 1, .ro, .free, .const 0⟩, ⟨1, 1, .ro, .free, .const 0⟩, ⟨2, 1, .ro, .free, .const 0⟩, ⟨3, 3, .ro, .free, .const 0⟩, ⟨6, 1, .ro, .free, .const 0⟩, ⟨7, 1, .ro, .free, .const 0⟩, ⟨8, 8, .ro, .free, .const 0⟩]⟩,
  ⟨.PROT_Ln_LADDER, 0x40044, 0x100, 12, 0x100000, 1, .d9, .loop,
    [⟨0, 3, .ro, .free, .const 0x7⟩, ⟨8, 8, .ro, .free, .const 0⟩, ⟨16, 2, .ro, .free, .const 0⟩, ⟨24, 8, .ro, .free, .const 0⟩]⟩,
  ⟨.PROT_Ln_CLR, 0x40048, 0x100, 12, 0x100000, 1, .d9, .loop,
    [⟨0, 1, .w1s, .own, .const 0⟩, ⟨1, 1, .w1s, .own, .const 0⟩, ⟨2, 1, .w1c, .free, .const 0⟩]⟩]

def regsProtection1 : List RegClass := [
  ⟨.PROT_Ln_CNT, 0x4004C, 0x100, 12, 0x100000, 1, .d9, .loop,
    [⟨0, 16, .ro, .free, .const 0⟩, ⟨16, 8, .ro, .free, .const 0⟩, ⟨24, 8, .ro, .free, .const 0⟩]⟩]

/-- The Protection block, 0x4_0000 (Table 0.5). -/
def regsProtection : List RegClass :=
  regsProtection0 ++ regsProtection1

def regsTypeC0 : List RegClass := [
  ⟨.PD_Pp_CFG, 0x50000, 0x1000, 4, 0x100000, 1, .d10, .port,
    [⟨0, 2, .rw, .own, .img 0x0⟩, ⟨2, 2, .rw, .own, .img 0x0⟩, ⟨4, 2, .rw, .own, .img 0x2⟩, ⟨6, 1, .rw, .own, .img 0x1⟩, ⟨7, 1, .rw, .own, .img 0x0⟩, ⟨8, 1, .rw, .own, .img 0x1⟩, ⟨9, 1, .rw, .own, .img 0x0⟩, ⟨10, 1, .rw, .own, .img 0x1⟩, ⟨11, 1, .rw, .own, .img 0x1⟩, ⟨12, 1, .rw, .own, .img 0x1⟩, ⟨13, 1, .rw, .own, .img 0x1⟩, ⟨14, 1, .rw, .own, .img 0x1⟩, ⟨15, 1, .w1s, .own, .const 0⟩]⟩,
  ⟨.PD_Pp_STATUS, 0x50004, 0x1000, 4, 0x100000, 1, .d10, .port,
    [⟨0, 4, .ro, .free, .const 0⟩, ⟨4, 1, .ro, .free, .const 0⟩, ⟨5, 1, .ro, .free, .const 0⟩, ⟨6, 1, .ro, .free, .const 0⟩, ⟨7, 1, .ro, .free, .const 0⟩, ⟨8, 1, .ro, .free, .const 0⟩, ⟨9, 1, .ro, .free, .const 0⟩, ⟨10, 2, .ro, .free, .const 0⟩, ⟨12, 1, .ro, .free, .const 0⟩, ⟨13, 1, .ro, .free, .const 0⟩, ⟨14, 1, .ro, .free, .const 0⟩, ⟨15, 1, .ro, .free, .const 0⟩]⟩,
  ⟨.PD_Pp_VI, 0x50008, 0x1000, 4, 0x100000, 1, .d10, .port,
    [⟨0, 12, .ro, .free, .const 0⟩, ⟨12, 10, .ro, .free, .const 0⟩, ⟨22, 1, .ro, .free, .const 0⟩, ⟨23, 3, .ro, .free, .const 0⟩]⟩,
  ⟨.PD_Pp_RDO, 0x5000C, 0x1000, 4, 0x100000, 1, .d10, .port,
    [⟨0, 32, .ro, .free, .const 0⟩]⟩,
  ⟨.PD_Pp_PDO, 0x50010, 0x1000, 4, 0x100000, 1, .d10, .port,
    [⟨0, 32, .ro, .free, .const 0⟩]⟩,
  ⟨.PD_Pp_EVENT, 0x50014, 0x1000, 4, 0x100000, 1, .d10, .port,
    [⟨0, 16, .w1c, .free, .const 0⟩]⟩,
  ⟨.PD_Pp_CTRL, 0x50018, 0x1000, 4, 0x100000, 1, .d10, .port,
    [⟨0, 1, .w1s, .own, .const 0⟩, ⟨1, 1, .w1s, .own, .const 0⟩, ⟨2, 1, .w1s, .own, .const 0⟩, ⟨3, 1, .w1s, .own, .const 0⟩, ⟨4, 4, .rw, .own, .const 0⟩]⟩,
  ⟨.PD_Pp_MODES, 0x5001C, 0x1000, 4, 0x100000, 1, .d10, .port,
    [⟨0, 16, .ro, .free, .const 0⟩, ⟨16, 16, .ro, .free, .const 0⟩]⟩,
  ⟨.PD_Pp_CNT, 0x50020, 0x1000, 4, 0x100000, 1, .d10, .port,
    [⟨0, 8, .ro, .free, .const 0⟩, ⟨8, 8, .ro, .free, .const 0⟩, ⟨16, 8, .ro, .free, .const 0⟩, ⟨24, 8, .ro, .free, .const 0⟩]⟩,
  ⟨.PD_Pp_BATTk, 0x50040, 0x1000, 4, 0x4, 8, .d10, .port,
    [⟨0, 32, .rw, .own, .const 0⟩]⟩,
  ⟨.PD_Pp_VDM_RXk, 0x50100, 0x1000, 4, 0x4, 8, .d10, .port,
    [⟨0, 32, .ro, .free, .const 0⟩]⟩,
  ⟨.PD_Pp_VDM_RXCTL, 0x50120, 0x1000, 4, 0x100000, 1, .d10, .port,
    [⟨0, 4, .ro, .free, .const 0⟩, ⟨4, 2, .ro, .free, .const 0⟩, ⟨6, 1, .w1c, .own, .const 0⟩]⟩]

def regsTypeC1 : List RegClass := [
  ⟨.PD_Pp_VDM_TXk, 0x50140, 0x1000, 4, 0x4, 8, .d10, .port,
    [⟨0, 32, .rw, .own, .const 0⟩]⟩,
  ⟨.PD_Pp_VDM_TXCTL, 0x50160, 0x1000, 4, 0x100000, 1, .d10, .port,
    [⟨0, 4, .rw, .own, .const 0⟩, ⟨4, 2, .rw, .own, .const 0⟩, ⟨6, 1, .w1s, .own, .const 0⟩, ⟨7, 2, .ro, .free, .const 0⟩]⟩,
  ⟨.PD_POLICY, 0x58000, 0x100000, 1, 0x100000, 1, .d10, .anyPort,
    [⟨0, 21, .ro, .free, .img 0x0⟩, ⟨21, 1, .ro, .free, .const 0⟩]⟩,
  ⟨.PD_PMEM_CFG, 0x58004, 0x100000, 1, 0x100000, 1, .d10, .anyPort,
    [⟨0, 11, .rw, .free, .img 0x100⟩]⟩,
  ⟨.PD_PMEM_STATUS, 0x58008, 0x100000, 1, 0x100000, 1, .d10, .anyPort,
    [⟨0, 11, .ro, .free, .const 0⟩, ⟨11, 1, .w1c, .free, .const 0⟩]⟩,
  ⟨.PD_PMEM_STAMP, 0x5800C, 0x100000, 1, 0x100000, 1, .d10, .anyPort,
    [⟨0, 24, .ro, .free, .const 0⟩]⟩,
  ⟨.PD_PMEM_CTRL, 0x58010, 0x100000, 1, 0x100000, 1, .d10, .anyPort,
    [⟨0, 10, .rw, .own, .const 0⟩, ⟨10, 3, .rw, .own, .const 0⟩, ⟨13, 1, .w1s, .own, .const 0⟩]⟩,
  ⟨.PD_PMEM_DATAk, 0x58020, 0x4, 8, 0x100000, 1, .d10, .anyPort,
    [⟨0, 32, .ro, .free, .const 0⟩]⟩]

/-- The TypeC block, 0x5_0000 (Table 0.5). -/
def regsTypeC : List RegClass :=
  regsTypeC0 ++ regsTypeC1

def regsPowerPath0 : List RegClass := [
  ⟨.PP_Pp_CFG, 0x60000, 0x1000, 4, 0x100000, 1, .d10, .port,
    [⟨0, 8, .rw, .own, .img 0x32⟩, ⟨8, 8, .rw, .own, .img 0x14⟩, ⟨16, 2, .rw, .own, .special⟩, ⟨18, 1, .rw, .own, .img 0x1⟩, ⟨19, 1, .rw, .own, .img 0x1⟩]⟩,
  ⟨.PP_Pp_FSW, 0x60004, 0x1000, 4, 0x100000, 1, .d10, .port,
    [⟨0, 12, .rw, .own, .img 0x3E8⟩, ⟨16, 13, .rw, .own, .img 0x0⟩]⟩,
  ⟨.PP_Pp_DUTY, 0x60008, 0x1000, 4, 0x100000, 1, .d10, .port,
    [⟨0, 16, .rw, .own, .img 0xF333⟩, ⟨16, 16, .rw, .own, .img 0xC000⟩]⟩,
  ⟨.PP_Pp_SRC, 0x6000C, 0x1000, 4, 0x100000, 1, .d10, .port,
    [⟨0, 8, .rw, .own, .img 0x14⟩, ⟨8, 8, .rw, .own, .img 0x19⟩, ⟨16, 8, .rw, .own, .img 0xA⟩, ⟨24, 8, .rw, .own, .img 0xA⟩]⟩,
  ⟨.PP_Pp_PROT, 0x60010, 0x1000, 4, 0x100000, 1, .d10, .port,
    [⟨0, 8, .rw, .own, .img 0xF⟩, ⟨8, 4, .rw, .own, .img 0x4⟩, ⟨12, 8, .rw, .own, .img 0x32⟩]⟩,
  ⟨.PP_Pp_GATE, 0x60014, 0x1000, 4, 0x100000, 1, .d10, .port,
    [⟨0, 4, .rw, .own, .img 0x4⟩, ⟨4, 8, .rw, .own, .img 0x14⟩, ⟨12, 8, .rw, .own, .img 0x41⟩]⟩,
  ⟨.PP_Pp_BUD, 0x60018, 0x1000, 4, 0x100000, 1, .d10, .port,
    [⟨0, 10, .rw, .own, .img 0x3C⟩, ⟨10, 3, .rw, .own, .img 0x4⟩, ⟨13, 1, .rw, .own, .img 0x1⟩, ⟨16, 10, .rw, .own, .img 0x3C0⟩]⟩,
  ⟨.PP_Pp_RUN, 0x60040, 0x1000, 4, 0x100000, 1, .d10, .port,
    [⟨0, 12, .ro, .free, .const 0⟩, ⟨12, 10, .ro, .free, .const 0⟩]⟩,
  ⟨.PP_Pp_STATUS, 0x60044, 0x1000, 4, 0x100000, 1, .d10, .port,
    [⟨0, 3, .ro, .free, .const 0⟩, ⟨3, 1, .ro, .free, .const 0⟩, ⟨4, 1, .ro, .free, .const 0⟩, ⟨5, 1, .ro, .free, .const 0⟩, ⟨6, 1, .ro, .free, .const 0⟩, ⟨7, 2, .ro, .free, .const 0⟩]⟩,
  ⟨.PP_Pp_MEAS, 0x60048, 0x1000, 4, 0x100000, 1, .d10, .port,
    [⟨0, 16, .ro, .free, .const 0⟩, ⟨16, 10, .ro, .free, .const 0⟩]⟩,
  ⟨.PP_VSYS, 0x68000, 0x100000, 1, 0x100000, 1, .d2, .seq,
    [⟨0, 12, .rw, .own, .img 0x35C⟩, ⟨12, 8, .rw, .own, .img 0xA⟩]⟩,
  ⟨.PP_VSYS_PROT, 0x68004, 0x100000, 1, 0x100000, 1, .d2, .seq,
    [⟨0, 12, .rw, .own, .img 0x3E8⟩, ⟨12, 12, .rw, .own, .img 0x2BC⟩]⟩]

def regsPowerPath1 : List RegClass := [
  ⟨.PP_BUDGET, 0x68008, 0x100000, 1, 0x100000, 1, .d2, .seq,
    [⟨0, 10, .rw, .own, .img 0xF0⟩, ⟨10, 10, .rw, .own, .img 0x14⟩, ⟨20, 12, .rw, .own, .img 0x3C0⟩]⟩,
  ⟨.PP_EFF, 0x6800C, 0x100000, 1, 0x100000, 1, .d2, .seq,
    [⟨0, 8, .rw, .own, .img 0xF8⟩, ⟨8, 8, .rw, .own, .img 0xF6⟩, ⟨16, 8, .rw, .own, .img 0xE6⟩]⟩,
  ⟨.PP_RAILk, 0x68010, 0x4, 8, 0x100000, 1, .d2, .seq,
    [⟨0, 10, .rw, .own, .img 0x3FF⟩, ⟨10, 3, .rw, .own, .img 0x4⟩]⟩,
  ⟨.PP_BUD_STATUS, 0x68030, 0x100000, 1, 0x100000, 1, .d2, .seq,
    [⟨0, 12, .ro, .free, .const 0⟩, ⟨12, 12, .ro, .free, .const 0⟩, ⟨24, 1, .ro, .free, .const 0⟩]⟩,
  ⟨.PP_DB, 0x68034, 0x100000, 1, 0x100000, 1, .d2, .seq,
    [⟨0, 4, .rw, .own, .img 0xF⟩, ⟨4, 3, .ro, .free, .const 0x7⟩, ⟨7, 4, .w1c, .free, .const 0⟩]⟩]

/-- The PowerPath block, 0x6_0000 (Table 0.5). -/
def regsPowerPath : List RegClass :=
  regsPowerPath0 ++ regsPowerPath1

def regsSequencer0 : List RegClass := [
  ⟨.SEQ_Sn_CFG, 0x70000, 0x10, 36, 0x100000, 1, .d2, .seq,
    [⟨0, 6, .rw, .own, .img 0x0⟩, ⟨6, 1, .rw, .own, .img 0x1⟩, ⟨7, 1, .rw, .own, .img 0x1⟩, ⟨8, 1, .rw, .own, .special⟩]⟩,
  ⟨.SEQ_Sn_DLY, 0x70004, 0x10, 36, 0x100000, 1, .d2, .seq,
    [⟨0, 16, .rw, .own, .img 0x0⟩, ⟨16, 16, .rw, .own, .img 0x0⟩]⟩,
  ⟨.SEQ_Sn_WIN, 0x70008, 0x10, 36, 0x100000, 1, .d2, .seq,
    [⟨0, 10, .rw, .own, .special⟩, ⟨10, 10, .rw, .own, .special⟩, ⟨20, 10, .rw, .own, .special⟩]⟩,
  ⟨.SEQ_Sn_FILT, 0x7000C, 0x10, 36, 0x100000, 1, .d2, .seq,
    [⟨0, 8, .rw, .own, .img 0x64⟩, ⟨8, 8, .rw, .own, .img 0xA⟩]⟩,
  ⟨.SEQ_Sn_STAT, 0x70400, 0x4, 36, 0x100000, 1, .d2, .none,
    [⟨0, 1, .ro, .free, .const 0⟩, ⟨1, 1, .ro, .free, .const 0⟩, ⟨2, 1, .ro, .free, .const 0⟩, ⟨3, 1, .ro, .free, .const 0⟩, ⟨4, 8, .ro, .free, .const 0⟩, ⟨12, 4, .ro, .free, .const 0⟩]⟩,
  ⟨.SEQ_STk, 0x70500, 0x4, 64, 0x100000, 1, .d2, .seq,
    [⟨0, 16, .rw, .own, .special⟩, ⟨16, 16, .rw, .own, .special⟩]⟩,
  ⟨.SEQ_RSTm, 0x70600, 0x4, 4, 0x100000, 1, .d2, .seq,
    [⟨0, 6, .rw, .own, .img 0x3F⟩, ⟨6, 1, .rw, .own, .img 0x1⟩, ⟨8, 12, .rw, .own, .img 0x28⟩, ⟨20, 1, .ro, .free, .const 0⟩]⟩,
  ⟨.SEQ_CTRL, 0x78000, 0x100000, 1, 0x100000, 1, .d2, .seq,
    [⟨0, 6, .rw, .own, .img 0x0⟩]⟩,
  ⟨.SEQ_STATUS, 0x78004, 0x100000, 1, 0x100000, 1, .d2, .seq,
    [⟨0, 6, .ro, .free, .const 0⟩, ⟨6, 2, .ro, .free, .const 0⟩, ⟨8, 3, .ro, .free, .const 0⟩, ⟨11, 1, .w1c, .free, .const 0⟩, ⟨12, 1, .w1c, .free, .const 0⟩, ⟨13, 1, .ro, .free, .const 0⟩, ⟨14, 1, .ro, .free, .const 0⟩, ⟨15, 1, .ro, .free, .const 0⟩]⟩,
  ⟨.SEQ_CFG, 0x78008, 0x100000, 1, 0x100000, 1, .d2, .seq,
    [⟨0, 8, .rw, .own, .img 0x8⟩, ⟨8, 1, .rw, .own, .img 0x0⟩, ⟨9, 6, .rw, .own, .img 0x5⟩, ⟨16, 8, .rw, .own, .img 0x64⟩]⟩,
  ⟨.SEQ_FAULT, 0x7800C, 0x100000, 1, 0x100000, 1, .d2, .seq,
    [⟨0, 4, .ro, .free, .const 0⟩, ⟨4, 6, .ro, .free, .const 0⟩, ⟨10, 6, .ro, .free, .const 0⟩, ⟨16, 8, .ro, .free, .const 0⟩, ⟨24, 1, .w1s, .own, .const 0⟩]⟩]

/-- The Sequencer block, 0x7_0000 (Table 0.5). -/
def regsSequencer : List RegClass :=
  regsSequencer0

def regsHosts0 : List RegClass := [
  ⟨.HP_TWk_CFG, 0x80000, 0x100, 3, 0x100000, 1, .d2, .none,
    [⟨0, 1, .rw, .own, .img 0x1⟩, ⟨1, 1, .rw, .own, .img 0x0⟩, ⟨2, 1, .rw, .own, .img 0x0⟩, ⟨3, 1, .rw, .own, .img 0x1⟩, ⟨4, 1, .rw, .own, .img 0x0⟩, ⟨5, 1, .rw, .own, .img 0x0⟩, ⟨6, 1, .w1s, .own, .const 0⟩]⟩,
  ⟨.HP_TWk_ADDR, 0x80004, 0x100, 3, 0x100000, 1, .d2, .none,
    [⟨0, 7, .rw, .own, .special⟩, ⟨7, 1, .rw, .own, .img 0x1⟩, ⟨8, 7, .rw, .own, .img 0x0⟩, ⟨15, 1, .rw, .own, .img 0x0⟩, ⟨16, 7, .rw, .own, .img 0x0⟩, ⟨23, 1, .rw, .own, .img 0x0⟩, ⟨24, 7, .rw, .own, .img 0x0⟩, ⟨31, 1, .rw, .own, .img 0x0⟩]⟩,
  ⟨.HP_TWk_TIME, 0x80008, 0x100, 3, 0x100000, 1, .d2, .none,
    [⟨0, 4, .rw, .own, .img 0x2⟩, ⟨4, 6, .rw, .own, .img 0x6⟩]⟩,
  ⟨.HP_TWk_STATUS, 0x8000C, 0x100, 3, 0x100000, 1, .d2, .none,
    [⟨0, 16, .ro, .free, .const 0⟩, ⟨16, 4, .ro, .free, .const 0⟩, ⟨20, 1, .ro, .free, .const 0⟩, ⟨21, 8, .ro, .free, .const 0⟩]⟩,
  ⟨.HP_TWk_CNT, 0x80010, 0x100, 3, 0x100000, 1, .d2, .none,
    [⟨0, 8, .ro, .free, .const 0⟩, ⟨8, 8, .ro, .free, .const 0⟩, ⟨16, 8, .ro, .free, .const 0⟩, ⟨24, 8, .ro, .free, .const 0⟩]⟩,
  ⟨.HP_TWk_NOTIFY, 0x80014, 0x100, 3, 0x100000, 1, .d2, .none,
    [⟨0, 8, .ro, .free, .const 0⟩, ⟨8, 8, .ro, .free, .const 0⟩, ⟨16, 1, .ro, .free, .const 0⟩]⟩,
  ⟨.HP_OWNERr, 0x80800, 0x4, 15, 0x100000, 1, .d2, .none,
    [⟨0, 2, .rw, .own, .img 0x3⟩, ⟨2, 1, .rw, .own, .img 0x1⟩]⟩,
  ⟨.HP_PGn_VMAX, 0x80C00, 0x10, 12, 0x100000, 1, .d2, .loop,
    [⟨0, 16, .rw, .own, .img 0x2800⟩]⟩,
  ⟨.HP_PGn_STATh, 0x80C04, 0x10, 12, 0x4, 3, .d2, .none,
    [⟨0, 8, .ro, .free, .const 0⟩, ⟨8, 8, .ro, .free, .const 0⟩, ⟨16, 8, .ro, .free, .const 0⟩, ⟨24, 1, .ro, .free, .const 0⟩]⟩,
  ⟨.MBX_CHn_DATA, 0x84000, 0x8, 256, 0x100000, 1, .d2, .mailbox,
    [⟨0, 32, .rw, .free, .const 0⟩]⟩,
  ⟨.MBX_CHn_ACK, 0x84004, 0x8, 256, 0x100000, 1, .d2, .mailbox,
    [⟨0, 16, .rw, .free, .const 0⟩, ⟨16, 1, .ro, .free, .const 0⟩, ⟨17, 1, .ro, .free, .const 0⟩, ⟨18, 1, .ro, .free, .constSpecial⟩]⟩,
  ⟨.MBX_CHn_CFG, 0x85000, 0x4, 256, 0x100000, 1, .d2, .none,
    [⟨0, 1, .rw, .own, .img 0x0⟩, ⟨1, 3, .rw, .own, .special⟩, ⟨4, 3, .rw, .own, .special⟩]⟩]

def regsHosts1 : List RegClass := [
  ⟨.MBX_FULLj, 0x85400, 0x4, 8, 0x100000, 1, .d2, .none,
    [⟨0, 32, .ro, .free, .const 0⟩]⟩]

/-- The Hosts block, 0x8_0000 (Table 0.5). -/
def regsHosts : List RegClass :=
  regsHosts0 ++ regsHosts1

def regsInterrupts0 : List RegClass := [
  ⟨.IRQ_CROWN, 0x90000, 0x100000, 1, 0x100000, 1, .d2, .none,
    [⟨0, 16, .ro, .free, .const 0⟩]⟩,
  ⟨.IRQ_VIEWk, 0x90004, 0x4, 3, 0x100000, 1, .d2, .none,
    [⟨0, 16, .ro, .free, .const 0⟩]⟩,
  ⟨.IRQ_STATUS, 0x90010, 0x100000, 1, 0x100000, 1, .d2, .none,
    [⟨0, 1, .ro, .free, .const 0⟩, ⟨1, 3, .ro, .free, .const 0⟩, ⟨4, 1, .ro, .free, .const 0⟩]⟩,
  ⟨.IRQ_CAUSEg, 0x90100, 0x4, 16, 0x100000, 1, .d2, .irqCause,
    [⟨0, 16, .w1c, .free, .const 0⟩]⟩,
  ⟨.IRQ_ENk_g, 0x90200, 0x40, 3, 0x4, 16, .d2, .irqEn,
    [⟨0, 16, .rw, .free, .img 0x0⟩]⟩,
  ⟨.IRQ_CONT_STATUS, 0x90400, 0x100000, 1, 0x100000, 1, .d2, .none,
    [⟨0, 1, .ro, .free, .const 0x1⟩, ⟨1, 1, .ro, .free, .const 0⟩, ⟨2, 1, .ro, .free, .const 0⟩, ⟨3, 1, .ro, .free, .const 0⟩, ⟨4, 1, .ro, .free, .const 0x1⟩, ⟨5, 1, .ro, .free, .const 0⟩, ⟨6, 1, .ro, .free, .const 0⟩, ⟨7, 1, .ro, .free, .const 0⟩, ⟨8, 8, .ro, .free, .const 0⟩]⟩,
  ⟨.IRQ_CONT_CNT, 0x90404, 0x100000, 1, 0x100000, 1, .d2, .none,
    [⟨0, 8, .ro, .free, .const 0⟩, ⟨8, 8, .ro, .free, .const 0⟩, ⟨16, 8, .ro, .free, .const 0⟩, ⟨24, 8, .ro, .free, .const 0⟩]⟩,
  ⟨.IRQ_CONT_ADDR, 0x90408, 0x100000, 1, 0x100000, 1, .d2, .none,
    [⟨0, 21, .ro, .free, .const 0⟩, ⟨21, 3, .ro, .free, .const 0⟩]⟩]

/-- The Interrupts block, 0x9_0000 (Table 0.5). -/
def regsInterrupts : List RegClass :=
  regsInterrupts0

def regsTelemetry0 : List RegClass := [
  ⟨.TCV_INn_CFG, 0xA0000, 0x10, 32, 0x100000, 1, .d2, .none,
    [⟨0, 2, .rw, .own, .img 0x1⟩, ⟨2, 10, .rw, .own, .img 0xC8⟩, ⟨12, 16, .rw, .own, .img 0xFA0⟩]⟩,
  ⟨.TCV_INn_AVG, 0xA0004, 0x10, 32, 0x100000, 1, .d2, .none,
    [⟨0, 4, .rw, .own, .img 0x0⟩, ⟨4, 4, .rw, .own, .img 0x0⟩, ⟨8, 1, .w1s, .own, .const 0⟩]⟩,
  ⟨.TCV_INn_RES, 0xA0008, 0x10, 32, 0x100000, 1, .d2, .none,
    [⟨0, 24, .ro, .free, .const 0⟩, ⟨24, 1, .w1c, .free, .const 0⟩, ⟨25, 1, .ro, .free, .const 0⟩, ⟨26, 1, .ro, .free, .const 0⟩, ⟨27, 1, .ro, .free, .const 0⟩]⟩,
  ⟨.TCV_INn_AVGRES, 0xA000C, 0x10, 32, 0x100000, 1, .d2, .none,
    [⟨0, 32, .ro, .free, .const 0⟩]⟩,
  ⟨.TCV_INn_OFS, 0xA0400, 0x8, 32, 0x100000, 1, .d2, .none,
    [⟨0, 24, .rw, .own, .cal⟩]⟩,
  ⟨.TCV_INn_GAIN, 0xA0404, 0x8, 32, 0x100000, 1, .d2, .none,
    [⟨0, 24, .rw, .own, .cal⟩]⟩,
  ⟨.TCV_CFG, 0xA8000, 0x100000, 1, 0x100000, 1, .d2, .none,
    [⟨0, 2, .rw, .own, .img 0x0⟩, ⟨2, 1, .rw, .own, .img 0x1⟩]⟩,
  ⟨.TCV_CTRL, 0xA8004, 0x100000, 1, 0x100000, 1, .d2, .none,
    [⟨0, 1, .w1s, .own, .const 0⟩, ⟨1, 1, .rw, .own, .img 0x0⟩, ⟨2, 1, .w1s, .own, .const 0⟩]⟩,
  ⟨.TCV_SCAN, 0xA8008, 0x100000, 1, 0x100000, 1, .d2, .none,
    [⟨0, 32, .rw, .own, .img 0x0⟩]⟩,
  ⟨.TCV_STATUS, 0xA800C, 0x100000, 1, 0x100000, 1, .d2, .none,
    [⟨0, 1, .ro, .free, .const 0⟩, ⟨1, 5, .ro, .free, .const 0⟩, ⟨6, 1, .ro, .free, .const 0⟩, ⟨7, 1, .ro, .free, .const 0⟩, ⟨8, 1, .w1c, .free, .const 0⟩]⟩,
  ⟨.TCV_URGENT, 0xA8010, 0x100000, 1, 0x100000, 1, .d2, .none,
    [⟨0, 5, .rw, .own, .const 0⟩, ⟨5, 1, .w1s, .own, .const 0⟩]⟩,
  ⟨.TCV_URG_RES, 0xA8014, 0x100000, 1, 0x100000, 1, .d2, .none,
    [⟨0, 24, .ro, .free, .const 0⟩, ⟨24, 1, .w1c, .free, .const 0⟩, ⟨25, 1, .ro, .free, .const 0⟩, ⟨26, 1, .ro, .free, .const 0⟩, ⟨27, 1, .ro, .free, .const 0⟩]⟩]

def regsTelemetry1 : List RegClass := [
  ⟨.TCV_AVG_NEW, 0xA8018, 0x100000, 1, 0x100000, 1, .d2, .none,
    [⟨0, 32, .w1c, .free, .const 0⟩]⟩,
  ⟨.TCV_AVG_OVR, 0xA801C, 0x100000, 1, 0x100000, 1, .d2, .none,
    [⟨0, 32, .ro, .free, .const 0⟩]⟩,
  ⟨.TCV_SYSCAL, 0xA8020, 0x100000, 1, 0x100000, 1, .d2, .none,
    [⟨0, 5, .rw, .own, .const 0⟩, ⟨5, 2, .rw, .own, .const 0⟩, ⟨7, 1, .w1s, .own, .const 0⟩, ⟨8, 8, .wo, .free, .const 0⟩, ⟨16, 3, .ro, .free, .const 0⟩]⟩,
  ⟨.TCV_SYSCAL_FS, 0xA8024, 0x100000, 1, 0x100000, 1, .d2, .none,
    [⟨0, 24, .rw, .own, .const 0⟩]⟩,
  ⟨.TCV_SYSCAL_ZERO, 0xA8028, 0x100000, 1, 0x100000, 1, .d2, .none,
    [⟨0, 24, .ro, .free, .const 0⟩]⟩,
  ⟨.THM_CTRL, 0xA8100, 0x100000, 1, 0x100000, 1, .d2, .none,
    [⟨0, 1, .w1s, .own, .const 0⟩, ⟨8, 8, .rw, .own, .img 0x32⟩, ⟨16, 4, .rw, .own, .img 0x8⟩]⟩,
  ⟨.THM_THRESH, 0xA8104, 0x100000, 1, 0x100000, 1, .d2, .none,
    [⟨0, 8, .rw, .own, .img 0x69⟩, ⟨8, 8, .rw, .own, .img 0x73⟩, ⟨16, 8, .rw, .own, .img 0x82⟩]⟩,
  ⟨.THM_HYST, 0xA8108, 0x100000, 1, 0x100000, 1, .d2, .none,
    [⟨0, 4, .rw, .own, .img 0x5⟩, ⟨4, 4, .rw, .own, .img 0x5⟩, ⟨8, 5, .rw, .own, .img 0xF⟩, ⟨13, 8, .rw, .own, .img 0x14⟩]⟩,
  ⟨.THM_STATUS, 0xA810C, 0x100000, 1, 0x100000, 1, .d2, .none,
    [⟨0, 1, .ro, .free, .const 0⟩, ⟨1, 4, .ro, .free, .const 0⟩, ⟨5, 1, .ro, .free, .const 0⟩, ⟨6, 1, .ro, .free, .const 0⟩, ⟨7, 9, .w1c, .free, .const 0⟩, ⟨16, 1, .w1c, .free, .const 0⟩]⟩,
  ⟨.THM_Ti, 0xA8110, 0x4, 9, 0x100000, 1, .d2, .none,
    [⟨0, 12, .ro, .free, .const 0⟩, ⟨12, 1, .ro, .free, .const 0⟩, ⟨16, 16, .ro, .free, .const 0⟩]⟩,
  ⟨.THM_MAX, 0xA8134, 0x100000, 1, 0x100000, 1, .d2, .none,
    [⟨0, 12, .ro, .free, .const 0⟩, ⟨12, 4, .ro, .free, .const 0⟩]⟩,
  ⟨.THM_CALi, 0xA8140, 0x4, 9, 0x100000, 1, .d2, .none,
    [⟨0, 16, .ro, .free, .cal⟩, ⟨16, 16, .ro, .free, .cal⟩]⟩]

/-- The Telemetry block, 0xA_0000 (Table 0.5). -/
def regsTelemetry : List RegClass :=
  regsTelemetry0 ++ regsTelemetry1

def regsKeeper0 : List RegClass := [
  ⟨.KPR_STATUS, 0xB0000, 0x100000, 1, 0x100000, 1, .d2, .keeper,
    [⟨0, 1, .ro, .free, .const 0⟩, ⟨1, 1, .ro, .free, .const 0⟩, ⟨2, 1, .ro, .free, .const 0⟩, ⟨3, 1, .w1c, .free, .const 0⟩, ⟨4, 5, .ro, .free, .const 0⟩]⟩,
  ⟨.KPR_CMD, 0xB0004, 0x100000, 1, 0x100000, 1, .d2, .keeper,
    [⟨0, 4, .rw, .free, .const 0⟩, ⟨8, 8, .wo, .free, .const 0⟩, ⟨16, 1, .w1s, .free, .const 0⟩, ⟨20, 3, .ro, .free, .const 0⟩]⟩,
  ⟨.KPR_WADDR, 0xB0008, 0x100000, 1, 0x100000, 1, .d2, .keeper,
    [⟨2, 16, .rw, .free, .const 0⟩]⟩,
  ⟨.KPR_WLEN, 0xB000C, 0x100000, 1, 0x100000, 1, .d2, .keeper,
    [⟨0, 6, .rw, .free, .const 0x1⟩]⟩,
  ⟨.KPR_RADDR, 0xB0010, 0x100000, 1, 0x100000, 1, .d2, .keeper,
    [⟨2, 16, .rw, .free, .const 0⟩]⟩,
  ⟨.KPR_RDATA, 0xB0014, 0x100000, 1, 0x100000, 1, .d2, .keeper,
    [⟨0, 32, .ro, .free, .const 0⟩]⟩,
  ⟨.KPR_RSTAT, 0xB0018, 0x100000, 1, 0x100000, 1, .d2, .keeper,
    [⟨0, 2, .ro, .free, .const 0⟩]⟩,
  ⟨.KPR_PROT, 0xB001C, 0x100000, 1, 0x100000, 1, .d2, .userArea,
    [⟨0, 2, .rw, .own, .img 0x0⟩, ⟨2, 1, .w1s, .own, .const 0⟩]⟩,
  ⟨.KPR_WEARq, 0xB0020, 0x4, 5, 0x100000, 1, .d2, .keeper,
    [⟨0, 32, .ro, .free, .const 0⟩]⟩,
  ⟨.KPR_OPMIN, 0xB0040, 0x100000, 1, 0x100000, 1, .d2, .keeper,
    [⟨0, 32, .ro, .free, .const 0⟩]⟩,
  ⟨.KPR_PCYC, 0xB0044, 0x100000, 1, 0x100000, 1, .d2, .keeper,
    [⟨0, 32, .ro, .free, .const 0⟩]⟩,
  ⟨.KPR_ECC_CNT, 0xB0048, 0x100000, 1, 0x100000, 1, .d2, .keeper,
    [⟨0, 16, .ro, .free, .const 0⟩, ⟨16, 16, .ro, .free, .const 0⟩]⟩]

def regsKeeper1 : List RegClass := [
  ⟨.KPR_WBUFk, 0xB0100, 0x4, 32, 0x100000, 1, .d2, .keeper,
    [⟨0, 32, .rw, .free, .const 0⟩]⟩]

/-- The Keeper block, 0xB_0000 (Table 0.5). -/
def regsKeeper : List RegClass :=
  regsKeeper0 ++ regsKeeper1

def regsRecorder0 : List RegClass := [
  ⟨.REC_CFG, 0xC0000, 0x100000, 1, 0x100000, 1, .d2, .recorder,
    [⟨0, 11, .rw, .own, .img 0x3C⟩]⟩,
  ⟨.REC_CTRL, 0xC0004, 0x100000, 1, 0x100000, 1, .d2, .recorder,
    [⟨0, 1, .w1s, .free, .const 0⟩, ⟨1, 1, .w1s, .own, .const 0⟩]⟩,
  ⟨.REC_STATUS, 0xC0008, 0x100000, 1, 0x100000, 1, .d2, .recorder,
    [⟨0, 5, .ro, .free, .const 0⟩, ⟨5, 7, .ro, .free, .const 0⟩, ⟨12, 1, .ro, .free, .const 0⟩, ⟨13, 6, .ro, .free, .const 0⟩]⟩,
  ⟨.REC_SEQ, 0xC000C, 0x100000, 1, 0x100000, 1, .d2, .recorder,
    [⟨0, 32, .ro, .free, .const 0⟩]⟩,
  ⟨.REC_GENr, 0xC0010, 0x4, 5, 0x100000, 1, .d2, .recorder,
    [⟨0, 32, .ro, .free, .const 0⟩]⟩,
  ⟨.REC_LOSTs, 0xC0030, 0x4, 5, 0x100000, 1, .d2, .recorder,
    [⟨0, 32, .ro, .free, .const 0⟩]⟩,
  ⟨.REC_SNAP, 0xC1000, 0x4, 768, 0x100000, 1, .d2, .recorder,
    [⟨0, 32, .ro, .free, .const 0⟩]⟩,
  ⟨.REC_EXTR, 0xC2000, 0x4, 128, 0x100000, 1, .d2, .recorder,
    [⟨0, 32, .ro, .free, .const 0⟩]⟩,
  ⟨.REC_FIRST, 0xC3000, 0x4, 512, 0x100000, 1, .d2, .recorder,
    [⟨0, 32, .ro, .free, .const 0⟩]⟩,
  ⟨.REC_LAST, 0xC3800, 0x4, 512, 0x100000, 1, .d2, .recorder,
    [⟨0, 32, .ro, .free, .const 0⟩]⟩,
  ⟨.REC_QUEUE, 0xC4000, 0x4, 128, 0x100000, 1, .d2, .recorder,
    [⟨0, 32, .ro, .free, .const 0⟩]⟩]

/-- The Recorder block, 0xC_0000 (Table 0.5). -/
def regsRecorder : List RegClass :=
  regsRecorder0

def regsCores0 : List RegClass := [
  ⟨.CORE_Ck_STATUS, 0xD0000, 0x100, 4, 0x100000, 1, .d2, .coreWin,
    [⟨0, 2, .ro, .free, .const 0⟩, ⟨2, 1, .ro, .free, .const 0⟩, ⟨3, 1, .ro, .free, .const 0⟩, ⟨4, 8, .ro, .free, .const 0⟩]⟩,
  ⟨.CORE_Ck_FAULT, 0xD0004, 0x100, 4, 0x100000, 1, .d2, .coreWin,
    [⟨0, 3, .ro, .free, .const 0⟩, ⟨3, 4, .ro, .free, .const 0⟩, ⟨7, 1, .ro, .free, .const 0⟩]⟩,
  ⟨.CORE_Ck_FPC, 0xD0008, 0x100, 4, 0x100000, 1, .d2, .coreWin,
    [⟨0, 32, .ro, .free, .const 0⟩]⟩,
  ⟨.CORE_Ck_WDOG, 0xD000C, 0x100, 4, 0x100000, 1, .d2, .coreWin,
    [⟨0, 8, .rw, .free, .img 0x64⟩, ⟨8, 8, .wo, .free, .const 0⟩]⟩,
  ⟨.CORE_Ck_TIMER, 0xD0010, 0x100, 4, 0x100000, 1, .d2, .coreWin,
    [⟨0, 24, .rw, .free, .const 0⟩]⟩,
  ⟨.CORE_Ck_EVT_EN, 0xD0014, 0x100, 4, 0x100000, 1, .d2, .coreWin,
    [⟨0, 32, .rw, .free, .const 0⟩]⟩,
  ⟨.CORE_Ck_EVT_PEND, 0xD0018, 0x100, 4, 0x100000, 1, .d2, .coreWin,
    [⟨0, 1, .ro, .free, .const 0⟩, ⟨1, 1, .w1c, .free, .const 0⟩, ⟨3, 1, .w1c, .free, .const 0⟩, ⟨16, 16, .ro, .free, .const 0⟩]⟩,
  ⟨.CORE_Ck_RING, 0xD001C, 0x100, 4, 0x100000, 1, .d2, .anyCore,
    [⟨0, 1, .w1s, .free, .const 0⟩]⟩,
  ⟨.CORE_Ck_ENTRY, 0xD0020, 0x100, 4, 0x100000, 1, .d2, .coreWin,
    [⟨0, 21, .ro, .free, .const 0⟩]⟩,
  ⟨.CORE_SBX_CFG, 0xD8000, 0x100000, 1, 0x100000, 1, .d2, .sandbox,
    [⟨0, 5, .rw, .free, .img 0x1F⟩]⟩,
  ⟨.CORE_SBX_LEFT, 0xD8004, 0x100000, 1, 0x100000, 1, .d2, .sandbox,
    [⟨0, 24, .rw, .free, .const 0⟩]⟩,
  ⟨.CORE_SBX_FAULTS, 0xD8008, 0x100000, 1, 0x100000, 1, .d2, .sandbox,
    [⟨0, 16, .ro, .free, .const 0⟩, ⟨16, 4, .ro, .free, .const 0⟩]⟩]

/-- The Cores block, 0xD_0000 (Table 0.5). -/
def regsCores : List RegClass :=
  regsCores0

def regsLive0 : List RegClass := [
  ⟨.LIVE_STAGE_CFG, 0xE0000, 0x100000, 1, 0x100000, 1, .d2, .live,
    [⟨0, 3, .rw, .free, .img 0x6⟩]⟩,
  ⟨.LIVE_STAGE_PTR, 0xE0004, 0x100000, 1, 0x100000, 1, .d2, .live,
    [⟨2, 16, .rw, .own, .const 0⟩]⟩,
  ⟨.LIVE_STAGE_DATA, 0xE0008, 0x100000, 1, 0x100000, 1, .d2, .live,
    [⟨0, 32, .rw, .ownlck, .const 0⟩]⟩,
  ⟨.LIVE_STAGE_CTRL, 0xE000C, 0x100000, 1, 0x100000, 1, .d2, .live,
    [⟨0, 1, .w1s, .own, .const 0⟩, ⟨1, 1, .ro, .free, .const 0⟩, ⟨2, 2, .ro, .free, .const 0⟩, ⟨8, 8, .ro, .free, .const 0⟩]⟩,
  ⟨.LIVE_HOk, 0xE0020, 0x4, 4, 0x100000, 1, .d2, .handover,
    [⟨0, 1, .w1s, .own, .const 0⟩, ⟨1, 1, .w1s, .free, .const 0⟩, ⟨2, 1, .w1s, .free, .const 0⟩, ⟨3, 3, .ro, .free, .const 0⟩, ⟨6, 4, .ro, .free, .const 0⟩]⟩,
  ⟨.LIVE_HO_CFG, 0xE0030, 0x100000, 1, 0x100000, 1, .d2, .live,
    [⟨0, 8, .rw, .free, .img 0x64⟩, ⟨8, 8, .rw, .free, .img 0xA⟩]⟩,
  ⟨.LIVE_RETIRE, 0xE0040, 0x100000, 1, 0x100000, 1, .d2, .liveLoop,
    [⟨0, 5, .rw, .own, .const 0⟩, ⟨5, 1, .w1s, .own, .const 0⟩, ⟨6, 2, .ro, .free, .const 0⟩]⟩,
  ⟨.LIVE_RETRIM, 0xE0050, 0x100000, 1, 0x100000, 1, .d2, .liveLoop,
    [⟨0, 4, .rw, .own, .const 0⟩, ⟨4, 1, .w1s, .own, .const 0⟩, ⟨5, 1, .w1s, .own, .const 0⟩, ⟨6, 1, .ro, .free, .const 0⟩, ⟨8, 8, .wo, .free, .const 0⟩, ⟨16, 3, .ro, .free, .const 0⟩]⟩,
  ⟨.LIVE_FLASH, 0xE0060, 0x100000, 1, 0x100000, 1, .d2, .live,
    [⟨0, 1, .rw, .free, .img 0x1⟩]⟩,
  ⟨.LIVE_WTRIMn, 0xE0100, 0x8, 12, 0x100000, 1, .d9, .live,
    [⟨0, 8, .rw, .free, .cal⟩, ⟨8, 16, .rw, .free, .cal⟩]⟩,
  ⟨.LIVE_TTRIMn, 0xE0104, 0x8, 12, 0x100000, 1, .d9, .live,
    [⟨0, 8, .rw, .free, .cal⟩, ⟨8, 16, .rw, .free, .cal⟩]⟩]

/-- The Live block, 0xE_0000 (Table 0.5). -/
def regsLive : List RegClass :=
  regsLive0

def regsTest0 : List RegClass := [
  ⟨.TST_CFG, 0xF0000, 0x100000, 1, 0x100000, 1, .d2, .test,
    [⟨0, 1, .ro, .free, .img 0x0⟩, ⟨1, 1, .ro, .free, .img 0x0⟩]⟩,
  ⟨.TST_KEY, 0xF0004, 0x100000, 1, 0x100000, 1, .d2, .test,
    [⟨0, 8, .wo, .free, .const 0⟩]⟩,
  ⟨.TST_CTRL, 0xF0008, 0x100000, 1, 0x100000, 1, .d2, .test,
    [⟨0, 1, .ro, .free, .const 0⟩, ⟨1, 1, .w1s, .free, .const 0⟩, ⟨2, 1, .w1s, .lck, .const 0⟩]⟩,
  ⟨.TST_VLK, 0xF0010, 0x100000, 1, 0x100000, 1, .d2, .test,
    [⟨0, 16, .rw, .lck, .const 0⟩]⟩,
  ⟨.TST_MBXk, 0xF0014, 0x4, 4, 0x100000, 1, .d2, .test,
    [⟨0, 8, .rw, .lck, .const 0⟩, ⟨8, 1, .rw, .lck, .const 0⟩]⟩,
  ⟨.TST_JIT_SEL, 0xF0030, 0x100000, 1, 0x100000, 1, .d2, .test,
    [⟨0, 32, .rw, .lck, .const 0⟩]⟩,
  ⟨.TST_JIT, 0xF0034, 0x100000, 1, 0x100000, 1, .d2, .test,
    [⟨0, 5, .rw, .lck, .const 0⟩]⟩,
  ⟨.TST_TRG_SEL, 0xF0038, 0x100000, 1, 0x100000, 1, .d2, .test,
    [⟨0, 32, .rw, .lck, .const 0⟩]⟩,
  ⟨.TST_TRG, 0xF003C, 0x100000, 1, 0x100000, 1, .d2, .test,
    [⟨0, 8, .rw, .lck, .const 0⟩]⟩,
  ⟨.TST_TW, 0xF0040, 0x100000, 1, 0x100000, 1, .d2, .test,
    [⟨0, 24, .rw, .lck, .const 0⟩]⟩,
  ⟨.TST_KPR, 0xF0044, 0x100000, 1, 0x100000, 1, .d2, .test,
    [⟨0, 4, .rw, .lck, .const 0⟩]⟩,
  ⟨.TST_PAR, 0xF0048, 0x100000, 1, 0x100000, 1, .d2, .test,
    [⟨0, 21, .rw, .lck, .const 0⟩, ⟨21, 1, .rw, .lck, .const 0⟩, ⟨22, 1, .w1s, .lck, .const 0⟩]⟩]

def regsTest1 : List RegClass := [
  ⟨.TST_LOG_IDX, 0xF0050, 0x100000, 1, 0x100000, 1, .d2, .test,
    [⟨0, 4, .ro, .free, .const 0⟩, ⟨4, 1, .ro, .free, .const 0⟩]⟩,
  ⟨.TST_LOGi_MS, 0xF0100, 0x10, 16, 0x100000, 1, .d2, .test,
    [⟨0, 32, .ro, .free, .const 0⟩]⟩,
  ⟨.TST_LOGi_OFF, 0xF0104, 0x10, 16, 0x100000, 1, .d2, .test,
    [⟨0, 12, .ro, .free, .const 0⟩]⟩,
  ⟨.TST_LOGi_VAL, 0xF0108, 0x10, 16, 0x100000, 1, .d2, .test,
    [⟨0, 32, .ro, .free, .const 0⟩]⟩]

/-- The Test block, 0xF_0000 (Table 0.5). -/
def regsTest : List RegClass :=
  regsTest0 ++ regsTest1

/-- The classes of the block that holds an address (R7). -/
def blockRegs (a : Nat) : List RegClass :=
  match a / 0x10000 with
  | 0 => regsSystem
  | 1 => regsEngine
  | 2 => regsLoops
  | 3 => regsLink
  | 4 => regsProtection
  | 5 => regsTypeC
  | 6 => regsPowerPath
  | 7 => regsSequencer
  | 8 => regsHosts
  | 9 => regsInterrupts
  | 10 => regsTelemetry
  | 11 => regsKeeper
  | 12 => regsRecorder
  | 13 => regsCores
  | 14 => regsLive
  | 15 => regsTest
  | _ => []

/-- The value after start of the fields whose value depends on the instance. -/
def resetSpecial (n : RegName) (i j lo : Nat) : Nat :=
  match n, lo with
  | .PE_CHn_TOP, 0 => if i < 24 then 200 else 1000
  | .PE_CHn_MIN, 0 => if i < 24 then 1280 else 3200
  | .PE_CHn_MIN, 16 => if i < 24 then 3200 else 1280
  | .PE_CHn_DT, 0 => if i < 24 then 0 else 16
  | .PE_CHn_DT, 8 => if i < 24 then 0 else 16
  | .PE_CHn_TRGk, 0 => if j = 0 then 0 else 0x7FFFF
  | .PE_CHn_TRGk, 20 => if j < 2 then 3 else 0
  | .LP_Ln_COEF, 4 => if j % 8 = 3 ∨ j % 8 = 4 then 0x4000 else 0
  | .PP_Pp_CFG, 16 => i
  | .SEQ_Sn_CFG, 8 => if i < 8 then 0 else 1
  | .SEQ_Sn_WIN, 0 => if i < 8 then 50 else 0
  | .SEQ_Sn_WIN, 10 => if i < 8 then 50 else 1020
  | .SEQ_Sn_WIN, 20 => if i < 8 then 0 else 20
  | .SEQ_STk, 0 => if i = 0 then 0 else 500
  | .SEQ_STk, 16 => if i = 0 then 0 else 500
  | .HP_TWk_ADDR, 0 => 0x60 + i
  | .MBX_CHn_ACK, 18 => if i % 64 < 4 ∧ i < 128 then 1 else 0
  | .MBX_CHn_CFG, 1 => if i % 64 < 3 ∧ i < 128 then 0 else 7
  | .MBX_CHn_CFG, 4 => if i % 64 < 3 ∧ i < 128 then 2 ^ (i % 64) else 0
  | _, _ => 0

end Sys2Proof.Machine
end

