-- ==== Sys2Proof/Machine/RegMap.lean ====
section
/-!
DEFINITION. Finding a register by its address, and the value each register holds after start (R15, Table 0.7).
-/

namespace Sys2Proof.Machine

/-- The bits of a field, in place. -/
def bitsMask (lo width : Nat) : Word := BitVec.ofNat 32 ((2 ^ width - 1) <<< lo)

/-- An instance of a register: its class and its two indices. -/
structure RegAt where
  cls : RegClass
  i : Nat
  j : Nat
  deriving DecidableEq, Repr

/-- The instance of a class at an address, if the address is one of its. -/
def RegClass.at? (c : RegClass) (a : Nat) : Option RegAt :=
  if a < c.base then none else
  let off := a - c.base
  let i := off / c.s1
  let j := (off % c.s1) / c.s2
  if i < c.n1 ∧ j < c.n2 ∧ c.s1 * i + c.s2 * j = off then some ⟨c, i, j⟩ else none

/-- Places of a class that have no register: a coefficient set has six (R151). -/
def absent (n : RegName) (j : Nat) : Bool := n == .LP_Ln_COEF && decide (5 < j % 8)

/-- Fields that their chapter leaves reserved on some instances; a register of which all are reserved reads 0 (log 8). -/
def reservedOn (n : RegName) (i j lo : Nat) : Bool :=
  match n with
  | .PROT_Ln_OV | .PROT_Ln_SC | .PROT_Ln_OL | .PROT_Ln_OLCAP | .PROT_Ln_UV | .PROT_Ln_TRK | .PROT_Ln_HIC
  | .PROT_Ln_RET => decide (8 ≤ i)
  | .LP_Ln_MEMBERS | .LP_Ln_VREF | .LP_Ln_SLEW | .LP_Ln_LL | .LP_Ln_DUTY | .LP_Ln_IMON | .LP_Ln_CARD
  | .LP_Ln_PHCFG | .LP_Ln_FULL | .LP_Ln_FF | .LP_Ln_SETTLE | .LP_Ln_PHTBLe | .LP_Ln_BLK_CFG | .LP_Ln_BLK_ACC
  | .LP_Ln_BLK_CTRL | .LP_Ln_IRAIL => decide (8 ≤ i)
  | .LP_Ln_CTRL => decide (8 ≤ i) &&
      !(lo == (F.LP_Ln_CTRL_SWAP i).lo || lo == (F.LP_Ln_CTRL_FB_FORCE i).lo || lo == (F.LP_Ln_CTRL_FB_RET i).lo)
  | .LP_Ln_VNOW => decide (8 ≤ i) && lo == (F.LP_Ln_VNOW_VREF_NOW i).lo
  | .LP_Ln_SENSE => decide (8 ≤ i) && !(lo == (F.LP_Ln_SENSE_WAVG i).lo || lo == (F.LP_Ln_SENSE_MARK i).lo)
  | .LP_Ln_COEF => j % 8 == 5 && lo == 4
  | .SEQ_STk => decide (i = 0)
  | .SEQ_Sn_CFG => decide (i < 8) && lo == (F.SEQ_Sn_CFG_DIS_WAIT i).lo
  | .SEQ_Sn_WIN => decide (i < 8) && lo == (F.SEQ_Sn_WIN_OFF_TH i).lo
  | .PE_CHn_DT => decide (i < 24)
  | _ => false

/-- R10: the register assigned to an address, if there is one. -/
def findReg (a : Nat) : Option RegAt :=
  match (blockRegs a).findSome? (fun c => c.at? a) with
  | some r => if absent r.cls.name r.j then none else some r
  | none => none

/-- The fields a register has. -/
def RegAt.fields (r : RegAt) : List FieldD :=
  r.cls.fields.filter (fun f => !reservedOn r.cls.name r.i r.j f.lo)

/-- The fixed position of a cal field in the calibration set, if Table 13.5 gives the register a place. -/
def calOffset (n : RegName) (i lo : Nat) : Option Nat :=
  match n with
  | .TCV_INn_OFS => some (0x100 + 8 * i + lo / 8)
  | .TCV_INn_GAIN => some (0x104 + 8 * i + lo / 8)
  | .THM_CALi => some (0x300 + 4 * i + lo / 8)
  | .LIVE_WTRIMn => some (0x400 + 64 * i + lo / 8)
  | .LIVE_TTRIMn => some (0x404 + 64 * i + lo / 8)
  | _ => none

/-- Four delivered calibration bytes as a word. -/
def calDelivered (off : Nat) : Word :=
  Config.calibration (off + 3) ++ Config.calibration (off + 2) ++ Config.calibration (off + 1)
    ++ Config.calibration off

/-- The value of a field after start with no image: R15, R470. -/
def FieldD.start (r : RegAt) (f : FieldD) : Nat :=
  match f.rst with
  | .const v | .img v => v
  | .special | .constSpecial => resetSpecial r.cls.name r.i r.j f.lo
  | .cal =>
    match calOffset r.cls.name r.i 0 with
    | some off => (calDelivered off).toNat / 2 ^ f.lo % 2 ^ f.width
    | none => 0

/-- The word an unlisted register address reads as: its value after start; 0 where no register is (R10). -/
def resetWord (a : Nat) : Word :=
  match findReg a with
  | none => 0
  | some r => r.fields.foldl (fun w f => w ||| BitVec.ofNat 32 (f.start r <<< f.lo)) 0

/-- The bits of a register whose field satisfies `p`. -/
def RegAt.maskOf (r : RegAt) (p : FieldD → Bool) : Word :=
  r.fields.foldl (fun w f => if p f then w ||| bitsMask f.lo f.width else w) 0

/-- Does the field take its value from the image or the factory defaults (R15)? -/
def FieldD.isImg (f : FieldD) : Bool :=
  match f.rst with
  | .img _ | .special => true
  | _ => false

/-- Does the field take its value from the calibration set (R15)? -/
def FieldD.isCal (f : FieldD) : Bool := f.rst == .cal

/-- The domain of a register: D7 for CH0-CH15 and D8 for CH16-CH31 (Table 1.6). -/
def RegAt.dom (r : RegAt) : Nat :=
  match r.cls.dom with
  | .d0 => 0
  | .d2 => 2
  | .d9 => 9
  | .d10 => 10
  | .engine => if r.i < 16 then 7 else 8

end Sys2Proof.Machine
end

