-- ==== Sys2Proof/Machine/Parts.lean ====
section
/-!
DEFINITION. What the part holds beside its registers: the parts of State, chapter by chapter.
-/

namespace Sys2Proof.Machine

/-! ### Power, clocks and start (chapters 01 and 02) -/

/-- Where the slow clock comes from (R33, R355). -/
inductive SlowClock where
  | rc | crystal | fastRc
  deriving DecidableEq, Repr

/-- The crystal of R33: not selected, qualifying, in use, or not retried until LF_SRC is written. -/
inductive Xtal where
  | off | qualifying | running | failed
  deriving DecidableEq, Repr

/-- Supplies, clocks, pins and the hold-up mark, as D0 holds them. -/
structure Power where
  /-- D0 has powered up since its last reset (R29, R31). -/
  d0Up : Bool
  /-- RESETn is low (R75). -/
  resetnLow : Bool
  /-- TEST_EN is high (R21, R348). -/
  testEn : Bool
  /-- VDD_CORE has been good without a break for 100 us (R26). -/
  coreQual : Bool
  slow : SlowClock
  xtal : Xtal
  dormant : Bool
  /-- The wake timer interval started at dormant entry (R53). -/
  timerArmed : Bool
  /-- SYNC_IN's frequency in Hz, as last seen (R34, R108). -/
  syncHz : Nat
  /-- D0's operating-time counter in minutes (R397). -/
  opmin : Nat
  /-- Milliseconds since the house input last became good (R403). -/
  ms : Nat
  /-- The hold-up mark of R395. -/
  holdup : Bool
  /-- House operation was entered by R30: it ends once every supply of full operation is good (R26). -/
  lossWait : Bool
  deriving DecidableEq, Repr

/-- A register triple of a REGS section (Table 2.4). -/
structure Triple where
  addr : Word
  mask : Word
  value : Word
  deriving DecidableEq, Repr

/-- An entry of an image's section table (Table 2.3). -/
structure Section where
  type : Nat
  mirror : Bool
  mirrorBank : Nat
  dest : Nat
  offset : Nat
  size : Nat
  deriving DecidableEq, Repr

/-- The content of the start record (Table 13.6). -/
structure StartRec where
  fails : Nat
  opened : Bool
  limit : Nat
  reason0 : Nat
  reason1 : Nat
  reason2 : Nat
  deriving DecidableEq, Repr

/-- A FLASH_XFER transfer that runs: its direction and data bytes, as they stood at its GO (R83). -/
structure FlashXfer where
  write : Bool
  len : Nat
  deriving DecidableEq, Repr

/-- What the boot ROM holds of a start (chapter 02). -/
structure Boot where
  /-- The keeper has been read since D2 powered up (R470). -/
  kprRead : Bool
  /-- The start record as the boot ROM last read or wrote it. -/
  record : StartRec
  /-- An attempt is in progress (R54). -/
  attempt : Bool
  /-- The START_TIMEOUT that governs the attempt, in units of 100 ms (R69). -/
  timeout : Option Nat
  /-- The value of the millisecond counter at the attempt's beginning. -/
  began : Nat
  flash : Option Sfdp
  /-- The boot ROM is using the flash (R83). -/
  flashBusy : Bool
  /-- The rejection code of the first candidate examined (R71). -/
  firstWhy : Option Nat
  /-- The sections of the accepted image (R61, R66). -/
  sections : List Section
  /-- The number of triples of the REGS copy in bank 0 (R66). -/
  triples : Nat
  /-- Entry points of the cores with a CODE section (R67, R414). -/
  entry : Vector (Option Nat) 4
  /-- A software restart follows the power-down that is running (R76). -/
  restart : Bool
  /-- The reason of the failure whose power-down or delay is running (R72). -/
  failed : Option Nat
  /-- The next attempt begins with a keeper read of its own (R30, R72). -/
  reread : Bool
  /-- DONE_STATE as the register-load step gave it (R68, R78). -/
  doneState : Nat
  /-- The FLASH_XFER transfer that runs (R83). -/
  xfer : Option FlashXfer
  deriving DecidableEq, Repr

/-! ### The pulse engine (chapter 03) -/

/-- The half states a compensator delivers (R92). -/
inductive HalfState where
  | pwm | mid | low
  deriving DecidableEq, Repr

/-- A correction the engine reported under R99: what is left of it, and the turning points it has aged. -/
structure Correction where
  taps : Int
  age : Nat
  deriving DecidableEq, Repr

/-- A reload keeps the level of the interval in progress for some taps more, from a tap count on (R104). -/
structure Keep where
  high : Bool
  /-- The tap count at which it began, in the half in progress. -/
  start : Nat
  taps : Nat
  deriving DecidableEq, Repr

/-- One channel of the engine. -/
structure ChanState where
  /-- The compares committed in the two halves, in taps (R91). -/
  cmpDn : Nat
  cmpUp : Nat
  /-- The half state that the channel takes at its next turning point (R92). -/
  half : HalfState
  /-- The half state in force since its last turning point. -/
  halfNow : HalfState
  /-- The compare and half state delivered for the coming turning point (R92). -/
  next : Option (Int × HalfState)
  /-- Enabled, and a turning point has committed a compare since (R104). -/
  begun : Bool
  /-- A commit enabled it and its domain is not yet calibrated (R112). -/
  waitCal : Bool
  /-- The TOP code taken at the last commit; none before the first, and the channel's own then acts (R89). -/
  top : Option Nat
  /-- TOP and phase, in coarse counts, of its last reload (R104); none where it has not run since it was enabled. -/
  placed : Option (Nat × Nat)
  /-- What a reload keeps of the interval in progress (R104). -/
  keep : Option Keep
  /-- In safe state until a LOAD_ALL commit selects it: after an engine disable or freeze, and after a PLL loss
  (R117, R148). -/
  needLoad : Bool
  pllLoad : Bool
  /-- Put on the trip bus by a loop stop (R188, R196). -/
  tripHold : Bool
  /-- Put on the trip bus by a short-circuit trip, until its next peak (R182). -/
  scHold : Bool
  /-- The pulse of this frame was dropped at the peak (R96). -/
  dropped : Bool
  /-- High minus requested, in taps, of the clamp or stretch now in use (R99). -/
  owed : Int
  /-- The pulse was stretched at the peak, and is counted and reported at the valley (R99). -/
  stretched : Bool
  corrections : List Correction
  /-- The suppression of B in the low interval in progress (R98). -/
  bOff : Bool
  /-- The duty of the update that delivered `next` (R129). -/
  duty : Int
  slot : Option Nat
  /-- Marked for retirement, or to join, at the next master valley (R105). -/
  retire : Bool
  join : Bool
  /-- The unconverted sample of its track-and-hold (R102). -/
  held : Option (BitVec 12)
  /-- The two most recent current samples in 1/16 A, newest first (R128). -/
  samples : List Int
  /-- Sum and number of the samples of the carding period (R134). -/
  cardSum : Int
  cardNum : Nat
  /-- Consecutive 4095 samples (R193), tripped high intervals (R183) and diverging steps (R194). -/
  stgRun : Nat
  scRun : Nat
  divRun : Nat
  /-- Start diode emulation has taken MID until the next high interval (R139). -/
  emulating : Bool
  /-- The frame jitter of the pulse about the coming valley, in taps (R451). -/
  jit : Int
  deriving DecidableEq, Repr

/-- The engine's common part. -/
structure Engine where
  /-- The master timebase runs; and its first master valley has passed (R87, R471). -/
  timebase : Bool
  firstValley : Bool
  /-- The shadow writes since the last master valley, newest first: address, and the word before (R103). -/
  shadowLog : List (Nat × Word)
  /-- FAULTn is low (R115). -/
  faultnLow : Bool
  /-- Samples captured and not yet converted, oldest first, by current ADC (R102). -/
  adc : Vector (List Chan) 4
  /-- The codes that the delay lines in use move to, west and east (R112). -/
  calNext : Vector (Option (BitVec 10)) 2
  /-- How far the master valley falls after the SYNC_IN edge, in 1/1024 of its period, while the PLL is locked to it
  (R109). -/
  valleyPhase : Option Nat
  deriving DecidableEq, Repr

/-! ### Loops and their protection (chapters 04 and 06) -/

/-- A pending step notice (R172, R173). -/
structure Notice where
  port : Port
  /-- Signed amperes. -/
  di : Int
  deriving DecidableEq, Repr

/-- A blocking injection (R143). -/
structure Inject where
  frame : Nat
  /-- The sequence register, and the sums of the current frame's updates. -/
  lfsr : Nat
  sumE : Int
  sumD : Int
  updates : Nat
  /-- Begun at a master valley; and the RESULT with which it stops at the end of the frame (R144). -/
  running : Bool
  stop : Option Nat
  deriving DecidableEq, Repr

/-- A fault in a loop's queue (R200). -/
structure QFault where
  cause : Nat
  sev : Nat
  chan : Option Chan
  deriving DecidableEq, Repr

/-- One loop, rail or port. -/
structure LoopState where
  /-- The loop state of R130. -/
  u : Int
  v1 : Int
  v2 : Int
  e1 : Int
  e2 : Int
  /-- The duty d of the last update, and that of the update whose turning point came last (R129, R130). -/
  d : Int
  dLast : Int
  dff : Int
  ffLeft : Nat
  /-- i_ll and i_pre in 1/16 A (R128, R136), and the i_ll at the last step of i_pre. -/
  ill : Rat
  ipre : Rat
  ipreFrom : Rat
  /-- The notice's current with its sign, 1/16 A (R136). -/
  ipre0 : Rat
  /-- The blocking injection's offset in 0.25 mV (R143). -/
  inj : Int
  /-- The sensed output in microvolts, as the window ADC last took it; VBUS or VSYS_IN on a port (R123, R245). -/
  vs : Int
  /-- A window sample marked since the last update (R124). -/
  mark : Option (BitVec 10)
  /-- V_pb and the soft-start ramp in 1.25 mV, and whether the ramp has passed it (R138). -/
  vpb : Nat
  ramp : Nat
  passed : Bool
  /-- The pre-bias measurement has ended (R138). -/
  measured : Bool
  /-- A comparator failed the self-test of this start (R354). -/
  cmpFail : Bool
  /-- In a stop: regulating down, or holding LOW (Table 4.2). -/
  stopping : Bool
  stopLow : Bool
  /-- STG_ENn (R138). -/
  stgEn : Bool
  /-- The active channels by slot (R122); and whether they have changed since the last master valley (R89). -/
  order : List Chan
  moved : Bool
  /-- The member whose place the joined spare took (R137). -/
  joinedFor : Option Chan
  /-- The phase-table entry in force, and the one that commits at the next master valley (R135). -/
  entry : Nat
  entryNext : Option Nat
  fullTrig : Bool
  errRun : Nat
  /-- i_sum at the latest master valleys, newest first, 1/16 A (R135). -/
  isums : List Int
  notice : Option Notice
  inject : Option Inject
  /-- The coefficient set in use during the last injection (R145). -/
  blkSet : Nat
  cardBroken : Bool
  rotFrames : Nat
  /-- Overload: samples of the block, and consecutive over blocks (R185). -/
  olSum : Int
  olNum : Nat
  olRun : Nat
  /-- The tracking threshold frozen at a handover or a latch, in 0.25 mV (R179, R181). -/
  ovFrozen : Option Rat
  /-- The faults nested under the running handling, oldest first (R200), and the channel it concerns. -/
  queue : List QFault
  handling : Option QFault
  /-- The restart waits for the conditions of R149 (R189). -/
  fbWait : Bool
  /-- The fallback round, next channel first (R147), and the channel whose pulse is high. -/
  round : List Chan
  fbHigh : Option Chan
  deriving DecidableEq, Repr

/-! ### The keeper and the recorder (chapter 13) -/

/-- The spread counters of Table 13.4. -/
inductive Spread where
  | opmin | pcyc
  | wear (q : Fin 5)
  deriving DecidableEq, Repr

/-- The command operations of KPR_CMD (R391). -/
inductive KprCmd where
  | write (addr : Nat) (data : List Word)
  | startClr
  | keyset (hash : List Word)
  deriving DecidableEq, Repr

/-- An operation that writes the keeper array (R394). -/
inductive KprOp where
  | spread (c : Spread)
  | startRec
  | log (first : Bool) (slot : Nat)
  | command (c : KprCmd)
  /-- One page piece of a statistics or extremes record; `last` is the record's last piece. -/
  | piece (extremes last : Bool)
  /-- A calibration write of the device itself (R373, R448), which raises CAL_WRITE at its end. -/
  | cal (retrim : Bool)
  /-- A persisted partner memory entry (R236). -/
  | pmem
  deriving DecidableEq, Repr

/-- The operation in progress: what it is, and the groups still to be written, in ascending order. -/
structure KprRun where
  op : KprOp
  groups : List (Nat × Word)
  deriving DecidableEq, Repr

/-- The keeper array and its queue of operations. -/
structure Keeper where
  /-- The array's bytes; an unlisted one reads as delivered. -/
  cells : Mem 8
  /-- Groups with one bit, and with two or more bits in error (R389). -/
  ecc1 : List Nat
  ecc2 : List Nat
  running : Option KprRun
  /-- Pending operations by kind (R394): spread-counter increments, start records, a command, calibration
  writes of the device, partner memory entries, and page pieces. -/
  spreads : List (Spread × Nat)
  starts : List StartRec
  command : Option KprCmd
  cals : List (Bool × List (Nat × Word))
  pmems : List (List (Nat × Word))
  pieces : List KprRun
  lastWasLog : Bool
  /-- Groups written since each wear counter was last updated (R397), and the warnings given (R390). -/
  unworn : Vector Nat 5
  warned : Vector Bool 5
  saturated : Bool
  deriving DecidableEq, Repr

/-- An entry of the report queue (R406, R408). -/
structure Report where
  cause : Nat
  scope : Nat
  sev : Nat
  count : Nat
  chan : Nat
  opmin : Nat
  pcyc : Nat
  ms : Nat
  detail0 : Word
  detail1 : Word
  deriving DecidableEq, Repr

/-- The recorder. -/
structure Recorder where
  /-- Pending entries in the order in which they were queued (R406). -/
  queue : List Report
  /-- The entry whose commit has begun (R406, R407). -/
  committing : Option Report
  /-- SEQ of the next commit (R407). -/
  seq : Nat
  /-- The live statistics and extremes payloads by byte offset (Table 13.7), and the snapshot image. -/
  stats : Mem 32
  extremes : Mem 32
  snap : Mem 32
  statsDirty : Bool
  extremesDirty : Bool
  histSat : Bool
  flushing : Bool
  deriving DecidableEq, Repr

/-- A command on the flash bus (R57, R58, R83): the opcode, the address with its count of bytes (0, 3 or 4), the dummy
clocks, the data bytes sent, the number read, whether data runs on four lines, and the clock in MHz. -/
structure FlashCmd where
  opcode : Byte
  addrBytes : Nat
  addr : Nat
  dummy : Nat
  send : List Byte
  read : Nat
  quad : Bool
  mhz : Nat
  deriving DecidableEq, Repr

/-- What the part puts on its wires, beside the pins that follow from the state. -/
inductive Out where
  /-- A flash transfer or a boot ROM flash command (R83, R57). -/
  | flash (c : FlashCmd)
  /-- A USB PD message (R216); its GoodCRC to a received one is a message of type goodCrc. -/
  | pd (p : Port) (m : PdMsg)
  /-- Hard Reset and Cable Reset signalling (R219). -/
  | hardReset (p : Port)
  | cableReset (p : Port)
  /-- BIST Carrier Mode on the CC line (R222). -/
  | carrier (p : Port)
  /-- A link response, and its trailer (R166). -/
  | link (v : Port) (resp : BitVec 16) (trailer : Option (BitVec 24))
  /-- The bytes a port returns, then its PEC (R308); a NACK of a command or data byte (R309, R332). -/
  | reply (h : HostId) (data : List Byte) (pec : Byte)
  | nack (h : HostId)
  /-- An SMBus Host Notify: the device address byte and the crown view (R313). -/
  | notify (h : HostId) (addr : Byte) (view : BitVec 16)
  /-- The word a row's own read of a register returned. -/
  | data (who : Writer) (w : Word)
  deriving DecidableEq, Repr

/-! ### Type-C ports and their power paths (chapters 07 and 08) -/

/-- The atomic message sequences of a port (R215). -/
inductive Ams where
  | none | power | prSwap | drSwap | vconnSwap | frSwap | epr | vdm | discover
  deriving DecidableEq, Repr

/-- The PD timers of Table 7.4. -/
inductive PdTimer where
  | receive | senderResponse | typeCSendSourceCap | sinkWaitCap | psTransition | hardReset | noResponse | enterEpr
  | sinkEprKeepAlive | sourceEprKeepAlive | ppsRequest | ppsTimeout | psSourceOn
  deriving DecidableEq, Repr

/-- The spans of R214 in which a loss is no detach. -/
inductive Span where
  | none | prSwap | frs | hardReset
  deriving DecidableEq, Repr

/-- What a contract is, or would be once PS_RDY is sent (Table 7.6, R235): kind, 20 mV, 10 mA, the two words. -/
structure Deal where
  kind : Nat
  volt : Nat
  curr : Nat
  rdo : Word
  pdo : Word
  deriving DecidableEq, Repr

/-- A transmission of the port; the host's own carry a result (R216, R240). -/
structure PdTx where
  msg : PdMsg
  host : Bool
  deriving DecidableEq, Repr

/-- An extended message whose chunks are still arriving: its type, and the bytes so far (R222). -/
structure PdChunks where
  type : PdType
  bytes : List Byte
  deriving DecidableEq, Repr

/-- What an entry of the partner memory tells of a partner (Table 7.9). -/
structure PartnerFacts where
  id : List Byte
  quick : Word
  source : Bool
  epr : Bool
  rev : Nat
  modes : Nat
  rdo : Word
  pdo : Word
  cable : Nat
  cableId : List Byte
  deriving DecidableEq, Repr

/-- One port's Type-C and PD machinery. -/
structure PortState where
  /-- PD_Pp_CFG fields in force (R208). -/
  role : Nat
  try_ : Nat
  rp : Nat
  pdEn : Bool
  accEn : Bool
  /-- VCONN stays off until the next attach (R226). -/
  vconnOff : Bool
  ams : Ams
  /-- The AMS was begun by this port; and the step it has reached (Table 7.7). -/
  own : Bool
  step : Nat
  span : Span
  /-- The AMS is the refresh of a PPS or AVS contract, which hardware runs; one is due (R218, R221). -/
  refresh : Bool
  refreshDue : Bool
  /-- New Source_Capabilities are due once no AMS is in flight (R268). -/
  capsDue : Bool
  /-- The deal that the AMS in flight would bring, and the power asked for it (R225). -/
  deal : Option Deal
  /-- The PDOs the partner last offered, by position (R235). -/
  offered : List Word
  /-- Discover SVIDs is due; the SVIDs whose modes are still to be discovered (R232). -/
  askSvids : Bool
  svids : List Nat
  /-- The auto-enter modes are being entered, from this mode table entry on (R232). -/
  entering : Bool
  modeNext : Nat
  /-- The object positions of the modes discovered, by mode table entry; the entry that the AMS in flight is about. -/
  modePos : List (Nat × Nat)
  modeAsk : Option Nat
  /-- The partner has been asked for its identity since the attach (R237). -/
  asked : Bool
  /-- The power last advertised as source, 0.25 W (R268). -/
  advert : Nat
  eprOffered : Bool
  /-- The partner's specification revision, as its last message on SOP gave it (Table 7.9). -/
  rev : Nat
  /-- The partner sources VCONN (R228; log 99). -/
  partnerVconn : Bool
  /-- Cable discovery (R227): tries made, identified, 50 V capable, active, answering on SOP'', and its IDHASH. -/
  discovers : Nat
  cableKnown : Bool
  cable50V : Bool
  cableActive : Bool
  cableDouble : Bool
  cableId : List Byte
  /-- MessageID counters sent, and last received, for SOP, SOP' and SOP'' (R216). -/
  txId : Vector Nat 3
  rxId : Vector (Option Nat) 3
  /-- Receive buffers, oldest first (R217). -/
  rx : List PdMsg
  rxPrime : List PdMsg
  /-- The port's own transmission awaiting acknowledgement, its retries, and those that wait for it (R216, R218). -/
  tx : Option PdTx
  retries : Nat
  waiting : List PdTx
  /-- A VDM of the owner host waits for the AMS in flight to end (R218, R233). -/
  vdmDue : Bool
  /-- The extended message arriving in chunks, and the data of the one being sent (R222). -/
  rxExt : Option PdChunks
  txExt : List Byte
  resets : Nat
  caps : Nat
  timers : List PdTimer
  /-- SinkTxNG presented (R218). -/
  txNg : Bool
  /-- The partner's IDHASH and the CRC of its first Source_Capabilities (Table 7.9). -/
  idHash : List Byte
  quick : Word
  firstCaps : Bool
  /-- A partner memory write is due; writes that were pending as their partners detached (R237). -/
  pmemDue : Bool
  pmemKept : List PartnerFacts
  /-- Driving CC low for the FRS signal (R231). -/
  frsDrive : Bool
  /-- CC1 and CC2 as last debounced. -/
  cc1 : CcTerm
  cc2 : CcTerm
  deriving DecidableEq, Repr

/-- Where the power path stands in a hard reset (Table 8.3). -/
inductive HrPhase where
  | none | sourceWait | falling | recover | sourceOn | sinkWait
  deriving DecidableEq, Repr

/-- One port's power path. -/
structure PathState where
  /-- The FETs have been told to close (R257). -/
  closing : Bool
  /-- VBUS_Pp is below 0.80 V (R213, R258). -/
  safe0V : Bool
  /-- The sink intake C0 has granted, 0.25 W (R225), and whether it counts as supply (R265). -/
  intake : Nat
  intakeOn : Bool
  /-- A source grant held, and the want under evaluation, 0.25 W (R266, R267). -/
  held : Nat
  want : Nat
  hr : HrPhase
  /-- The dead-battery pass is to be tried again (R259). -/
  dbRetry : Bool
  /-- The output leg is held to diode emulation (R254). -/
  frsHold : Bool
  /-- The sink loop stopped by SINK_UV waits to restart (R252). -/
  uvWait : Bool
  /-- VREF_NOW of the port loop, 5 mV at the node sensed (R123, R249; log 14). -/
  vrefNow : Nat
  deriving DecidableEq, Repr

/-! ### The sequencer (chapter 09) -/

/-- What the sequencer holds of a rail in the step in progress. -/
structure SeqRail where
  /-- Its on instant, or its off instant, of this step has passed (R280, R281). -/
  onDone : Bool
  offDone : Bool
  /-- It has qualified as reading off, or a DIS_TIMEOUT excuses it (R282, R285). -/
  readsOff : Bool
  /-- It was good when its state's power-up step completed (R280). -/
  was : Bool
  deriving DecidableEq, Repr

/-- A reset output: a stretch runs, or a PG_LOST holds it low (R296, R297). -/
structure RstOut where
  stretch : Bool
  lossHeld : Bool
  deriving DecidableEq, Repr

structure Seq where
  /-- The boot ROM has started the sequencer (R287). -/
  started : Bool
  /-- The power-up step into CUR is complete (R280). -/
  complete : Bool
  /-- An abort's power-down does not wait for SEQ_SYNC (R293). -/
  aborting : Bool
  /-- Ready for the next state, with the line released (R288). -/
  ready : Bool
  /-- A qualified release awaits the end of SYNC_HOLD (R288). -/
  holdOff : Bool
  rails : Vector SeqRail 36
  rst : Vector RstOut 4
  deriving DecidableEq, Repr

/-! ### The load voltage link, host ports and mailboxes (chapters 05 and 10) -/

/-- One link port. -/
structure Link where
  /-- The frame last acknowledged, if no other good frame has come since (R163). -/
  acked : Option Word
  /-- The frames with a good CRC received since D9 came up, each once (R164). -/
  seen : List Word
  /-- An attention pulse is owed: an enabled cause has become pending (R175). -/
  owed : Bool
  deriving DecidableEq, Repr

/-- One two-wire port. -/
structure HostPort where
  /-- The read pointer of REG_PTR (R320). -/
  ptr : Nat
  /-- The data word of the Host Notify that is pending or running, and the arbitrations it has lost (R311, R313). -/
  notify : Option (BitVec 16)
  losses : Nat
  deriving DecidableEq, Repr

/-! ### Telemetry and thermal sensing (chapter 12) -/

/-- What a conversion is for (R370, R371, R373). -/
inductive TcvKind where
  | scan | urgent | zero | full
  deriving DecidableEq, Repr

/-- R366-R368: a conversion's window: units of 0.1 ms, a line cycle of 50 or 60 Hz, or master frames. -/
inductive ConvWindow where
  | timed (tenths : Nat)
  | line (hz : Nat)
  | frames (n : Nat)
  deriving DecidableEq, Repr

/-- R368: the window begins and ends at master valleys. -/
def ConvWindow.locked : ConvWindow → Bool
  | .frames _ => true
  | _ => false

/-- A conversion selected: its input, whether its window has begun (R365), its window as the input's CFG stood then (R370),
and the REFU and FB it will carry. -/
structure TcvRun where
  input : Fin 32
  kind : TcvKind
  begun : Bool
  window : ConvWindow
  refu : Bool
  fb : Bool
  /-- AVG was written while it ran (R370, R372). -/
  skip : Bool
  deriving DecidableEq, Repr

/-- The accumulator of R372. -/
structure TcvAcc where
  sum : Nat
  num : Nat
  ovr : Bool
  deriving DecidableEq, Repr

structure Tcv where
  run : Option TcvRun
  /-- An urgent request or calibration step that waits (R371). -/
  urgent : Option (Fin 32 × TcvKind)
  /-- The input of the pass that was converted last (R370). -/
  last : Option (Fin 32)
  /-- REF_SEL in force (R364). -/
  refSel : Nat
  acc : Vector TcvAcc 32
  /-- Samples of the calibration step: their raw values' sum, their number, and an OVR among them (R373). -/
  calSum : Int
  calNum : Nat
  calOvr : Bool
  /-- The input of the last successful step 1 with none for another input since; the inputs with a successful step 2
  since the start (R374). -/
  zeroed : Option (Fin 32)
  scaled : List (Fin 32)
  /-- Step 1 has succeeded and step 2 has not yet run (R374). -/
  halfway : Bool
  /-- REF_SEL has been written since the last conversion began (R364). -/
  refWrite : Bool
  deriving DecidableEq, Repr


/-! ### The cores (chapter 14) -/

/-- The multiplier instructions (R425). -/
inductive MulKind where
  | mulu | muls | macs | mulq | macq
  deriving DecidableEq, Repr

/-- A multiplier instruction in flight: its operands, and the cycles until its result lands. -/
structure MulOp where
  kind : MulKind
  a : Word
  b : Word
  left : Nat
  deriving DecidableEq, Repr

/-- One Pletra core (R419, R421). COREID is the core's number; STATE is in CORE_Ck_STATUS. -/
structure CoreState where
  /-- w0-w15; w0 is 0. -/
  w : Vector Word 16
  pc : Word
  psr : Word
  epc : Word
  ecause : Word
  eval : Word
  mlo : Word
  mhi : Word
  cycle : Word
  vbase : Word
  esave : Word
  spsr : Word
  /-- The bit space, as 1 KiB of bytes. -/
  bits : Mem 8
  /-- In flight, oldest first. -/
  mul : List MulOp
  /-- Milliseconds of the watchdog interval that have passed (R431). -/
  wdog : Nat
  /-- STATE before the debug port halted the core (R431). -/
  halted : Nat
  deriving DecidableEq, Repr

/-! ### Live service and test (chapter 15) -/

/-- Where a re-trim stands (Table 15.3): the twin settles; updates take the twin; the window ADC comes back with new
trims, or with the old ones. -/
inductive RetrimStep where
  | settling | ready | twin | done | old
  deriving DecidableEq, Repr

structure Retrim where
  loop : Fin 12
  step : RetrimStep
  /-- The trims before the re-trim; and a fault of severity 2 or more recorded on the loop since (R447). -/
  before : Word
  hit : Bool
  deriving DecidableEq, Repr

structure Live where
  /-- The handover that runs (R441). -/
  handover : Option Core
  /-- The sections of the verified package (R440). -/
  package : List Section
  retrim : Option Retrim
  /-- The loop whose last re-trim gave RESULT 1 (R448). -/
  trimmed : Option (Fin 12)
  /-- A retirement by LIVE_RETIRE that commits at the next master valley (R444). -/
  retire : Option (Fin 24)
  deriving DecidableEq, Repr

structure Tst where
  /-- TST_KEY = 0xC3 has come (R449). -/
  half : Bool
  /-- TST_KEY writes are ignored (R449). -/
  lockout : Bool
  deriving DecidableEq, Repr


end Sys2Proof.Machine
end

