-- ==== Sys2Proof/Machine/State.lean ====
section
/-!
DEFINITION. The state of the part, why a step could stop, and the state right after reset.
-/

namespace Sys2Proof.Machine

/-- Why the part stops with a fault. No rule of the manual stops the part for good, so no meaning raises one. -/
inductive Fault where
  /-- Raised by no meaning; it keeps the type closed and inhabited (safe). -/
  | halted
  deriving DecidableEq, Repr

/-- Why a command has no outcome. -/
inductive Refusal where
  /-- Raised by an arm of `exec` whose row has no meaning yet, by the row's name (safe). -/
  | notModelled (mnemonic : String)
  deriving DecidableEq, Repr

/-- Everything the manual gives the part, and the queue of commands. -/
structure State where
  /-- The commands waiting, first in, first out. -/
  pending : List Instr
  /-- The register space (R6); an SH field holds its shadow here (R13). -/
  regs : Mem 32
  /-- The SH registers in force (R103). -/
  act : Mem 32
  /-- SRAM banks 0-3, 2 MiB (R61). -/
  sram : Mem 8
  /-- SRAM words whose stored parity is wrong, by word-aligned byte offset (R356, R357). -/
  sramBad : List Nat
  /-- What the part has sent, newest first. -/
  out : List Out
  /-- The model's own: how many free values have been taken (log 1). -/
  freeCtr : Nat
  power : Power
  boot : Boot
  engine : Engine
  chans : Vector ChanState 32
  loops : Vector LoopState 12
  kpr : Keeper
  recorder : Recorder
  ports : Vector PortState 4
  paths : Vector PathState 4
  /-- The partner memory's bytes, 1 024 entries of 32 (R236); an unlisted byte reads 0. -/
  pmem : Mem 8
  /-- A DB_OC made in house operation, recorded when full operation returns: the ports (R262). -/
  dbOcLater : List Port
  seq : Seq
  links : Vector Link 4
  hosts : Vector HostPort 3
  /-- The tenancy channels that are FULL, in the order in which C0 takes them (R324): MB0-MB2, then MB64-MB66. -/
  tenancy : List (Fin 6)
  tcv : Tcv
  /-- The last thermal measurement was invalid (R378, R379). -/
  thmBad : Bool
  cores : Vector CoreState 4
  live : Live
  tst : Tst
  /-- Registers whose stored parity is wrong (R359, R451). -/
  regBad : List Nat
  /-- The policy applet that runs, by its place in the applet table (R433). -/
  applet : Option (Fin 8)
  /-- Applets whose events arrived while they ran, or while C3 was held (R433, R443). -/
  appletsDue : List (Fin 8)
  deriving DecidableEq, Repr

/-- D0 has just reset: no supply is good (R31). -/
def Power.reset : Power :=
  { d0Up := false, resetnLow := false, testEn := false, coreQual := false, slow := .rc, xtal := .off,
    dormant := false, timerArmed := false, syncHz := 0, opmin := 0, ms := 0, holdup := false,
    lossWait := false }

def StartRec.reset : StartRec :=
  { fails := 0, opened := false, limit := 3, reason0 := 0, reason1 := 0, reason2 := 0 }

def Boot.reset : Boot :=
  { kprRead := false, record := StartRec.reset, attempt := false, timeout := none, began := 0,
    flash := none, flashBusy := false, firstWhy := none, sections := [], triples := 0,
    entry := Vector.replicate 4 none, restart := false, failed := none, reread := false,
    doneState := 0, xfer := none }

def ChanState.reset : ChanState :=
  { cmpDn := 0, cmpUp := 0, half := .mid, halfNow := .mid, next := none, begun := false, waitCal := false,
    top := none, placed := none, keep := none, needLoad := false, pllLoad := false,
    tripHold := false, scHold := false, dropped := false, owed := 0, stretched := false, corrections := [], bOff := false,
    duty := 0, slot := none, retire := false, join := false, held := none, samples := [], cardSum := 0,
    cardNum := 0, stgRun := 0, scRun := 0, divRun := 0, emulating := false, jit := 0 }

def Engine.reset : Engine :=
  { timebase := false, firstValley := false, shadowLog := [], faultnLow := false, adc := Vector.replicate 4 [],
    calNext := Vector.replicate 2 none, valleyPhase := none }

def LoopState.reset : LoopState :=
  { u := 0, v1 := 0, v2 := 0, e1 := 0, e2 := 0, d := 0, dLast := 0, dff := 0, ffLeft := 0, ill := 0, ipre := 0, ipreFrom := 0, ipre0 := 0,
    inj := 0, vs := 0, mark := none, vpb := 0, ramp := 0, passed := false, measured := false, cmpFail := false,
    stopping := false, stopLow := false, stgEn := false, order := [], moved := false, joinedFor := none, entry := 0,
    entryNext := none, fullTrig := false, errRun := 0, isums := [], notice := none, inject := none, blkSet := 0,
    cardBroken := false, rotFrames := 0, olSum := 0, olNum := 0, olRun := 0,
    ovFrozen := none, queue := [], handling := none, fbWait := false, round := [],
    fbHigh := none }

def Keeper.reset : Keeper :=
  { cells := [], ecc1 := [], ecc2 := [], running := none, spreads := [], starts := [], command := none,
    cals := [], pmems := [], pieces := [], lastWasLog := false, unworn := Vector.replicate 5 0,
    warned := Vector.replicate 5 false, saturated := false }

def Recorder.reset : Recorder :=
  { queue := [], committing := none, seq := 1, stats := [], extremes := [], snap := [], statsDirty := false,
    extremesDirty := false, histSat := false, flushing := false }

def PortState.reset : PortState :=
  { role := 0, try_ := 0, rp := 2, pdEn := true, accEn := false, vconnOff := false, ams := .none, own := false,
    step := 0, span := .none, refresh := false, refreshDue := false, capsDue := false, deal := none, offered := [],
    askSvids := false, svids := [], entering := false, modeNext := 0, modePos := [], modeAsk := none, asked := false,
    advert := 0, eprOffered := false, rev := 0, partnerVconn := false, discovers := 0, cableKnown := false,
    cable50V := false, cableActive := false, cableDouble := false, cableId := [], txId := Vector.replicate 3 0,
    rxId := Vector.replicate 3 none, rx := [], rxPrime := [], tx := none, retries := 0, waiting := [], vdmDue := false,
    rxExt := none, txExt := [], resets := 0, caps := 0,
    timers := [], txNg := false, idHash := [], quick := 0, firstCaps := false, pmemDue := false, pmemKept := [],
    frsDrive := false, cc1 := .vacant, cc2 := .vacant }

def PathState.reset : PathState :=
  { closing := false, safe0V := true, intake := 0, intakeOn := false, held := 0, want := 0, hr := .none,
    dbRetry := false, frsHold := false, uvWait := false, vrefNow := 0 }

def Seq.reset : Seq :=
  { started := false, complete := false, aborting := false, ready := false, holdOff := false,
    rails := Vector.replicate 36 { onDone := false, offDone := false, readsOff := false, was := false },
    rst := Vector.replicate 4 { stretch := false, lossHeld := false } }

def Link.reset : Link := { acked := none, seen := [], owed := false }
def HostPort.reset : HostPort := { ptr := 0, notify := none, losses := 0 }
def Live.reset : Live := { handover := none, package := [], retrim := none, trimmed := none, retire := none }
def Tst.reset : Tst := { half := false, lockout := false }

def Tcv.reset : Tcv :=
  { run := none, urgent := none, last := none, refSel := 0,
    acc := Vector.replicate 32 { sum := 0, num := 0, ovr := false }, calSum := 0, calNum := 0, calOvr := false,
    zeroed := none, scaled := [], halfway := false, refWrite := false }

def CoreState.reset : CoreState :=
  { w := Vector.replicate 16 0, pc := 0, psr := 0, epc := 0, ecause := 0, eval := 0, mlo := 0, mhi := 0, cycle := 0,
    vbase := 0, esave := 0, spsr := 0, bits := [], mul := [], wdog := 0, halted := 0 }

/-- D0 has just reset with no house input: nothing is powered, and every register is at its Reset value
(Table 0.7; an unlisted address of the register file reads it). -/
def State.reset : State :=
  { pending := [], regs := [], act := [], sram := [], sramBad := [], out := [], freeCtr := 0,
    power := Power.reset, boot := Boot.reset, engine := Engine.reset,
    chans := Vector.replicate 32 ChanState.reset, loops := Vector.replicate 12 LoopState.reset,
    kpr := Keeper.reset, recorder := Recorder.reset, ports := Vector.replicate 4 PortState.reset,
    paths := Vector.replicate 4 PathState.reset, pmem := [], dbOcLater := [], seq := Seq.reset,
    links := Vector.replicate 4 Link.reset, hosts := Vector.replicate 3 HostPort.reset, tenancy := [],
    tcv := Tcv.reset, thmBad := false, cores := Vector.replicate 4 CoreState.reset, live := Live.reset,
    tst := Tst.reset, regBad := [], applet := none, appletsDue := [] }

end Sys2Proof.Machine
end

