-- ==== Sys2Proof/Machine/Ops.lean ====
section
/-!
DEFINITION. The named operations over the register file, the memories and the parts of the state.
-/

namespace Sys2Proof.Machine

/-! ### Registers and fields -/

/-- A field of a word. -/
def getBits (w : Word) (lo width : Nat) : Nat := w.toNat / 2 ^ lo % 2 ^ width

/-- A word with one field replaced. -/
def putBits (w : Word) (lo width v : Nat) : Word :=
  (w &&& ~~~(bitsMask lo width)) ||| BitVec.ofNat 32 ((v % 2 ^ width) <<< lo)

/-- Two's complement of a `width`-bit field (R17). -/
def signed (width v : Nat) : Int := if 2 * v < 2 ^ width then (v : Int) else (v : Int) - 2 ^ width

/-- The `width`-bit two's complement code of an integer (R17). -/
def unsigned (width : Nat) (v : Int) : Nat := (v % 2 ^ width).toNat

/-- A stored register word; for an SH register the shadow (R13). -/
def State.reg (s : State) (a : Nat) : Word := s.regs.get resetWord a

def State.setReg (s : State) (a : Nat) (w : Word) : State := { s with regs := s.regs.set resetWord a w }

/-- A field as stored. -/
def State.fld (s : State) (f : Fld) : Nat := getBits (s.reg f.addr) f.lo f.width

/-- A signed field as stored (R17). -/
def State.sfld (s : State) (f : Fld) : Int := signed f.width (s.fld f)

/-- A one-bit field as stored. -/
def State.bit (s : State) (f : Fld) : Bool := s.fld f == 1

def State.setFld (s : State) (f : Fld) (v : Nat) : State :=
  s.setReg f.addr (putBits (s.reg f.addr) f.lo f.width v)

def State.setSFld (s : State) (f : Fld) (v : Int) : State := s.setFld f (unsigned f.width v)

def State.setBit (s : State) (f : Fld) (b : Bool) : State := s.setFld f b.toNat

/-- Bit `i` of a field of bits. -/
def Fld.at (f : Fld) (i : Nat) : Fld := ⟨f.addr, f.lo + i, 1⟩

/-- An SH register in force (R103). -/
def State.actReg (s : State) (a : Nat) : Word := s.act.get resetWord a

def State.setAct (s : State) (a : Nat) (w : Word) : State := { s with act := s.act.set resetWord a w }

/-- An SH field in force. -/
def State.afld (s : State) (f : Fld) : Nat := getBits (s.actReg f.addr) f.lo f.width

def State.safld (s : State) (f : Fld) : Int := signed f.width (s.afld f)

def State.abit (s : State) (f : Fld) : Bool := s.afld f == 1

/-- Write one field of an SH register in force. -/
def State.setActFld (s : State) (f : Fld) (v : Nat) : State :=
  s.setAct f.addr (putBits (s.actReg f.addr) f.lo f.width v)

/-- Add to a counter field that saturates at all ones. -/
def State.satInc (s : State) (f : Fld) (n : Nat := 1) : State :=
  s.setFld f (min (s.fld f + n) (2 ^ f.width - 1))

/-! ### Parts of the state -/

def State.chan (s : State) (n : Chan) : ChanState := s.chans[n]

def State.modChan (s : State) (n : Chan) (f : ChanState → ChanState) : State :=
  { s with chans := s.chans.set n.val (f s.chans[n]) n.isLt }

def State.loop (s : State) (n : Loop) : LoopState := s.loops[n]

def State.modLoop (s : State) (n : Loop) (f : LoopState → LoopState) : State :=
  { s with loops := s.loops.set n.val (f s.loops[n]) n.isLt }

def State.modPower (s : State) (f : Power → Power) : State := { s with power := f s.power }
def State.modBoot (s : State) (f : Boot → Boot) : State := { s with boot := f s.boot }
def State.modEngine (s : State) (f : Engine → Engine) : State := { s with engine := f s.engine }
def State.modKpr (s : State) (f : Keeper → Keeper) : State := { s with kpr := f s.kpr }
def State.modRec (s : State) (f : Recorder → Recorder) : State := { s with recorder := f s.recorder }

/-- Put something on the wires. -/
def State.emit (s : State) (o : Out) : State := { s with out := o :: s.out }

/-- Every index below `n`, in rising order. -/
def upto (n : Nat) : List (Fin n) := List.finRange n

/-- Fold a change over every index. -/
def State.forAll {n : Nat} (s : State) (f : Fin n → State → State) : State :=
  (upto n).foldl (fun t i => f i t) s

/-- The rail loops' numbers among the loops. -/
def railLoop (n : Fin 8) : Loop := ⟨n.val, by omega⟩
/-- Port p's loop is L(8 + p) (Table 0.2). -/
def portLoop (p : Port) : Loop := ⟨8 + p.val, by omega⟩
/-- Port p uses CH(24 + 2p) for the buck side (R84). -/
def buckLeg (p : Port) : Chan := ⟨24 + 2 * p.val, by omega⟩
/-- Port p uses CH(25 + 2p) for the boost side (R84). -/
def boostLeg (p : Port) : Chan := ⟨25 + 2 * p.val, by omega⟩

/-- The port of a port loop. -/
def loopPort? (n : Loop) : Option Port := if h : 8 ≤ n.val then some ⟨n.val - 8, by omega⟩ else none

/-! ### Free values -/

/-- The next free value (log 1), and the state that has used it. -/
def State.fresh (s : State) (w : Nat) : BitVec w × State :=
  (Config.freeValue w s.freeCtr, { s with freeCtr := s.freeCtr + 1 })

/-! ### Numbers -/

def clamp (x lo hi : Int) : Int := max lo (min x hi)

/-- Nearest integer to `a / b`, `b > 0`, ties away from zero (R130). -/
def roundDiv (a : Int) (b : Nat) : Int :=
  if 0 ≤ a then (2 * a + b) / (2 * b) else -((2 * (-a) + b) / (2 * b))

/-- A quotient whose rounding the manual does not state (log 2): exact where it is exact, else one of its two
neighbours. -/
def openDiv (a b : Int) : Int := a / b + (if a % b = 0 then 0 else if Config.openRound a b then 1 else 0)

/-- A rational whose rounding the manual does not state (log 2). -/
def openRat (q : Rat) : Int := openDiv q.num q.den

/-- The nearest integer; a tie, which the manual does not settle here, goes to either neighbour (log 2). -/
def nearest (q : Rat) : Int := if q.den = 2 then openRat q else (q + 1 / 2).floor

/-! ### Causes (R339) -/

/-- Cause g.b of the crown tree (R339). -/
def causeFld (g b : Nat) : Fld := ⟨A.IRQ_CAUSEg g, b, 1⟩

/-- Set an edge cause. -/
def State.raise (s : State) (g b : Nat) : State := s.setFld (causeFld g b) 1

/-! ### Domains (R36) -/

/-- Bit k of PWR_DOM_STATUS.ON (R50). -/
def State.domOn (s : State) (k : Nat) : Bool := s.bit (F.PWR_DOM_STATUS_ON.at k)

/-- House operation (R27): D1-D11 run from the house supply. -/
def State.houseOp (s : State) : Bool := s.bit F.SUPPLY_STATUS_HOUSE_OP

/-- R28: the supplies that full operation needs. -/
def State.suppliesGood (s : State) : Bool :=
  s.bit F.SUPPLY_STATUS_HOUSE_OK && s.bit F.SUPPLY_STATUS_VDD_CORE_OK && s.bit F.SUPPLY_STATUS_VDDA_OK
    && s.bit F.SUPPLY_STATUS_VDDIO_A_OK && s.bit F.SUPPLY_STATUS_VDDIO_B_OK

/-- Full operation (R26, R28): the domains run from VDD_CORE with every supply good; in dormant, and while RESETn is
low, none of them is on (R40, R75). -/
def State.fullOp (s : State) : Bool := s.suppliesGood && !s.houseOp && !s.power.dormant && !s.power.resetnLow

/-- Seedling mode (R73). -/
def State.seedling (s : State) : Bool := s.bit F.START_STATUS_SEEDLING

/-! ### SRAM (R61) -/

/-- What an SRAM byte that nothing has written since its bank powered up reads as (log 3). -/
def sramDefault (_ : Nat) : Byte := 0

def State.sramWord (s : State) (a : Nat) : Word := s.sram.word sramDefault a

/-- A word written to SRAM gets good parity. -/
def State.setSramBytes (s : State) (a : Nat) (bs : List Byte) : State :=
  { s with sram := s.sram.setBytes sramDefault a bs,
           sramBad := s.sramBad.filter (fun w => !(decide (a ≤ w + 3) && decide (w < a + bs.length))) }

def State.setSramWord (s : State) (a : Nat) (w : Word) : State := s.setSramBytes a (wordBytes w)

/-! ### Checks -/

/-- The CRC-8 of R160 and of SMBus PEC (R308): polynomial 0x07, initial value 0, bits most significant first. -/
def crc8Bit (c : Nat) (b : Bool) : Nat :=
  let top := (c / 128) % 2 == 1
  let c' := (c * 2) % 256
  if top != b then c' ^^^ 0x07 else c'

def crc8Byte (c : Nat) (b : Byte) : Nat :=
  [7, 6, 5, 4, 3, 2, 1, 0].foldl (fun c i => crc8Bit c (b.getLsbD i)) c

def crc8 (bs : List Byte) : Byte := BitVec.ofNat 8 (bs.foldl crc8Byte 0)

/-- The CRC-32 of R398: IEEE 802.3, reflected, initial value and final exclusive-or all ones. -/
def crc32Bit (c : Nat) : Nat := if c % 2 = 1 then (c / 2) ^^^ 0xEDB88320 else c / 2

def crc32Byte (c : Nat) (b : Byte) : Nat :=
  [0, 0, 0, 0, 0, 0, 0, 0].foldl (fun c _ => crc32Bit c) (c ^^^ b.toNat)

def crc32 (bs : List Byte) : Word := BitVec.ofNat 32 (bs.foldl crc32Byte 0xFFFFFFFF ^^^ 0xFFFFFFFF)

/-! ### Answers -/

/-- What a meaning answers. -/
abbrev Answer := Host.Outcome State Fault Refusal

/-- An event takes place where its condition holds; a stale one leaves the state as it is (log 5). -/
def State.onlyIf (s : State) (b : Bool) (f : State → State) : Answer := .next (if b then f s else s)

end Sys2Proof.Machine
end

