-- ==== Sys2Proof/Machine/KeeperOps.lean ====
section
/-!
DEFINITION. The keeper array: what it holds as delivered, its groups and records, and the order of its
operations (R387-R402).
-/

namespace Sys2Proof.Machine

/-! ### The array as delivered -/

/-- All instances of a class. -/
def RegClass.instances (c : RegClass) : List RegAt :=
  (List.range c.n1).flatMap fun i => (List.range c.n2).map fun j => ⟨c, i, j⟩

/-- The address of an instance. -/
def RegAt.addr (r : RegAt) : Nat := r.cls.base + r.cls.s1 * r.i + r.cls.s2 * r.j

/-- Every class of the register space, block by block (Table 0.5). -/
def allClasses : List RegClass := (List.range 16).flatMap fun b => blockRegs (b * 0x10000)

/-- The factory default triples of R393: one for each register with an img default that is not 0. -/
def factoryTriples : List Triple :=
  allClasses.flatMap fun c => c.instances.filterMap fun r =>
    let mask := r.maskOf FieldD.isImg
    let v := resetWord r.addr &&& mask
    if absent c.name r.j || v == 0 then none else some ⟨BitVec.ofNat 32 r.addr, mask, v⟩

/-- The factory default table as words: the count, then three words a triple (Table 13.3). -/
def factoryWord (i : Nat) : Word :=
  if i = 0 then BitVec.ofNat 32 factoryTriples.length else
  match factoryTriples[(i - 1) / 3]? with
  | none => BitVec.allOnes 32
  | some t => if (i - 1) % 3 = 0 then t.addr else if (i - 1) % 3 = 1 then t.mask else t.value

/-- The blocks of the calibration set: first offset and CRC offset (Table 13.5). -/
def calBlocks : List (Nat × Nat) :=
  [(0x4000, 0x40FC), (0x4100, 0x42FC), (0x4300, 0x43FC), (0x4400, 0x47FC), (0x4800, 0x4BFC)]

/-- The factory's CRC of a calibration block (R401). -/
def calCrc (lo crc : Nat) : Word :=
  crc32 ((List.range (crc - lo)).map fun k => Config.calibration (lo - 0x4000 + k))

/-- A keeper byte that nothing has written since the factory (R388, R393, R397, R401; log 4). -/
def kprDefault (a : Nat) : Byte :=
  if a = 0 then 0x84 else if a = 1 then 0x24 else
  if a < 0x20 then Config.identity a else
  if a < 0x100 then 0xFF else
  if a < 0x4000 then (wordBytes (factoryWord ((a - 0x100) / 4))).getD (a % 4) 0xFF else
  if a < 0x4C00 then
    match calBlocks.find? (fun b => decide (b.2 ≤ a) && decide (a < b.2 + 4)) with
    | some b => (wordBytes (calCrc b.1 b.2)).getD (a % 4) 0xFF
    | none => Config.calibration (a - 0x4000)
  else if 0x5100 ≤ a ∧ a < 0x53E0 then 0 else 0xFF

/-- A stored group (R388). -/
def State.kprWord (s : State) (a : Nat) : Word := s.kpr.cells.word kprDefault a

/-- The ECC status of a group: 0 clean, 1 corrected, 2 uncorrectable (R389). -/
def State.kprEcc (s : State) (a : Nat) : Nat :=
  if s.kpr.ecc2.contains a then 2 else if s.kpr.ecc1.contains a then 1 else 0

/-- R389: a read of a group raises its cause and counts. -/
def State.kprTouch (s : State) (a : Nat) : State :=
  match s.kprEcc a with
  | 1 => (s.raise 12 0).satInc F.KPR_ECC_CNT_CORR
  | 2 => (s.raise 12 1).satInc F.KPR_ECC_CNT_UNCORR
  | _ => s

/-- Read `n` groups for the part's own purposes: those in error raise their cause and count. -/
def State.kprTouchAll (s : State) (a n : Nat) : State :=
  ((s.kpr.ecc1 ++ s.kpr.ecc2).filter fun g => decide (a ≤ g) && decide (g < a + 4 * n)).foldl (fun t g => t.kprTouch g) s

/-- The words of `n` groups. -/
def State.kprWords (s : State) (a n : Nat) : List Word := (List.range n).map fun k => s.kprWord (a + 4 * k)

/-- CRC-32 over words, taken as bytes in little-endian order (R398). -/
def wordsCrc (ws : List Word) : Word := crc32 (ws.flatMap wordBytes)

/-! ### Partitions (Table 13.1) -/

/-- The partition of an offset: 0 factory, 1 calibration, 2 counters, 3 recorder, 4 user. -/
def partition (a : Nat) : Nat :=
  if a < 0x4000 then 0 else if a < 0x5000 then 1 else if a < 0x6000 then 2 else if a < 0xE000 then 3 else 4

/-- First offset of a partition. -/
def partBase (q : Nat) : Nat :=
  match q with
  | 0 => 0 | 1 => 0x4000 | 2 => 0x5000 | 3 => 0x6000 | _ => 0xE000

/-- Offset after a partition's last. -/
def partEnd (q : Nat) : Nat :=
  match q with
  | 0 => 0x4000 | 1 => 0x5000 | 2 => 0x6000 | 3 => 0xE000 | _ => 0x40000

/-! ### Spread counters (R396) -/

/-- Base and number of groups (Table 13.4). -/
def Spread.place (c : Spread) : Nat × Nat :=
  match c with
  | .opmin => (0x5100, 16)
  | .pcyc => (0x5140, 8)
  | .wear q => (0x5160 + 0x80 * q.val, 32)

/-- The readable values of a counter's groups, with their slots. -/
def State.spreadSlots (s : State) (c : Spread) : List (Nat × Nat) :=
  (List.range c.place.2).filterMap fun j =>
    let a := c.place.1 + 4 * j
    if s.kprEcc a = 2 then none else some (j, (s.kprWord a).toNat)

/-- The slot and value of the highest readable group; open when none is readable (log 9). -/
def State.spreadTop (s : State) (c : Spread) : Nat × Nat :=
  (s.spreadSlots c).foldl (fun b x => if b.2 < x.2 then x else b) ((s.spreadSlots c).headD
    (Config.unreadableSlot c.place.1 % c.place.2, (Config.unreadable c.place.1).toNat))

def State.spreadValue (s : State) (c : Spread) : Nat := (s.spreadTop c).2

/-- R397: how far an increment goes as it begins: OPMIN to the operating-time counter, another counter by its number. -/
def State.spreadStep (s : State) (c : Spread) (n : Nat) : Nat :=
  match c with
  | .opmin => s.power.opmin - s.spreadValue .opmin
  | _ => n

/-- The group an increment writes (R396). -/
def State.spreadGroup (s : State) (c : Spread) (n : Nat) : Nat × Word :=
  let t := s.spreadTop c
  (c.place.1 + 4 * ((t.1 + 1) % c.place.2), BitVec.ofNat 32 (min (t.2 + s.spreadStep c n) 0xFFFFFFFF))

/-- R389, R396: an increment reads the counter's groups. While D2 is off it has no register to show it. -/
def State.readSpread (s : State) (c : Spread) : State :=
  if s.domOn 2 then s.kprTouchAll c.place.1 c.place.2 else s

/-! ### Dual-copy records (R398-R400) -/

/-- TYPE, LEN and the location of copy A (Table 13.6). -/
structure RecordKind where
  type : Nat
  len : Nat
  base : Nat
  deriving DecidableEq, Repr

def startKind : RecordKind := ⟨1, 8, 0x5000⟩
def statsKind : RecordKind := ⟨2, 768, 0x6000⟩
def extremesKind : RecordKind := ⟨3, 128, 0x7800⟩

def RecordKind.copyB (k : RecordKind) : Nat := k.base + 4 * k.len

/-- Word 0 of a copy. -/
def RecordKind.hdr (k : RecordKind) : Word := BitVec.ofNat 32 (k.type + 0x100 + k.len * 0x10000)

/-- R398: is the copy at an address valid? -/
def State.copyValid (s : State) (k : RecordKind) (a : Nat) : Bool :=
  (List.range k.len).all (fun j => s.kprEcc (a + 4 * j) != 2) && s.kprWord a == k.hdr
    && s.kprWord (a + 4 * (k.len - 1)) == wordsCrc (s.kprWords a (k.len - 1))

/-- R399: is sequence number x newer than y? -/
def newer (x y : Nat) : Bool :=
  let d := (x + 2 ^ 32 - y) % 2 ^ 32
  decide (1 ≤ d) && decide (d < 2 ^ 31)

/-- Table 13.6a: the copy used, the copy written next, its SEQ, and whether RECORD_TIE is raised. -/
structure CopyChoice where
  used : Option Nat
  next : Nat
  seq : Nat
  tie : Bool
  deriving DecidableEq, Repr

def State.chooseCopy (s : State) (k : RecordKind) : CopyChoice :=
  let a := k.base
  let b := k.copyB
  let sa := (s.kprWord (a + 4)).toNat
  let sb := (s.kprWord (b + 4)).toNat
  let inc (n : Nat) := (n + 1) % 2 ^ 32
  match s.copyValid k a, s.copyValid k b with
  | true, true =>
    if sa = sb then ⟨some a, b, inc sa, s.kprWords a k.len != s.kprWords b k.len⟩
    else if newer sa sb then ⟨some a, b, inc sa, false⟩
    else if newer sb sa then ⟨some b, a, inc sb, false⟩
    else ⟨some a, b, inc sa, false⟩
  | true, false => ⟨some a, b, inc sa, false⟩
  | false, true => ⟨some b, a, inc sb, false⟩
  | false, false => ⟨none, a, 1, false⟩

/-- The device reads a record: both copies are read, and a tie is raised (R389, R399). -/
def State.readRecord (s : State) (k : RecordKind) : State :=
  let t := (s.kprTouchAll k.base k.len).kprTouchAll k.copyB k.len
  if (s.chooseCopy k).tie then t.raise 12 2 else t

/-- The groups of a record write, CRC last (R400). -/
def State.recordGroups (s : State) (k : RecordKind) (payload : List Word) : List (Nat × Word) :=
  let c := s.chooseCopy k
  let body := k.hdr :: BitVec.ofNat 32 c.seq :: payload
  let ws := body ++ [wordsCrc body]
  (List.range ws.length).map fun j => (c.next + 4 * j, ws.getD j 0)

/-- The start record's payload words (Table 13.6). -/
def StartRec.payload (r : StartRec) : List Word :=
  [BitVec.ofNat 32 (r.fails % 16 + r.opened.toNat * 16 + r.limit % 8 * 32),
   BitVec.ofNat 32 (r.reason0 % 256 + r.reason1 % 256 * 0x100 + r.reason2 % 256 * 0x10000), 0, 0, 0]

/-- R469: where the factory table lies, the triple of a register is skipped if any of its groups, or the count,
reads Uncorrectable. -/
def State.factorySkips (s : State) (a : Nat) : Bool :=
  if s.kpr.ecc2.all fun g => decide (g < 0x100) || decide (0x4000 ≤ g) then false
  else if s.kprEcc 0x100 = 2 then true
  else match factoryTriples.findIdx? (fun t => t.addr.toNat == a) with
    | some i => (List.range 3).any fun j => s.kprEcc (0x104 + 12 * i + 4 * j) == 2
    | none => false

/-- The factory default of START_LIMIT, 0 where the factory table cannot be read (R469). -/
def State.factoryLimit (s : State) : Nat :=
  if s.factorySkips A.START_CFG then 0 else (F.START_CFG_START_LIMIT).width |> fun w => getBits (resetWord A.START_CFG) F.START_CFG_START_LIMIT.lo w

/-- The start record in use, or its defaults (Table 13.6). -/
def State.startRecord (s : State) : StartRec :=
  match (s.chooseCopy startKind).used with
  | none => { StartRec.reset with limit := s.factoryLimit }
  | some a =>
    let w := s.kprWord (a + 8)
    let v := s.kprWord (a + 12)
    { fails := getBits w 0 4, opened := getBits w 4 1 == 1, limit := getBits w 5 3, reason0 := getBits v 0 8,
      reason1 := getBits v 8 8, reason2 := getBits v 16 8 }

/-- The payload words of a statistics or extremes copy: words 2 to LEN - 2. -/
def payloadWords (k : RecordKind) (m : Mem 32) (d : Nat → Word) : List Word :=
  (List.range (k.len - 3)).map fun j => m.get d (8 + 4 * j)

/-- What a live statistics word that nothing has counted reads as. -/
def statsDefault (_ : Nat) : Word := 0

/-- An extreme not yet recorded has both stamp words 0xFFFF_FFFF (R404). -/
def extremesDefault (off : Nat) : Word :=
  if 8 ≤ off ∧ off < 0x1E8 ∧ (off - 8) / 4 % 3 ≠ 0 then BitVec.allOnes 32 else 0

/-- Load a record's payload from the copy in use. -/
def State.loadPayload (s : State) (k : RecordKind) (d : Nat → Word) : Mem 32 :=
  match (s.chooseCopy k).used with
  | none => []
  | some a => (List.range (k.len - 3)).foldl (fun m j => m.set d (8 + 4 * j) (s.kprWord (a + 8 + 4 * j))) []

/-! ### Fault logs (R408, R409) -/

def logBase (first : Bool) : Nat := if first then 0x8000 else 0x8800

def logSlot (first : Bool) (i : Nat) : Nat := logBase first + 32 * i

/-- R408: is a log slot valid? -/
def State.logValid (s : State) (first : Bool) (i : Nat) : Bool :=
  let a := logSlot first i
  (List.range 8).all (fun j => s.kprEcc (a + 4 * j) != 2) && s.kprWord (a + 28) == wordsCrc (s.kprWords a 7)

/-- SEQ of a log slot. -/
def State.logSeq (s : State) (first : Bool) (i : Nat) : Nat := (s.kprWord (logSlot first i + 4)).toNat

/-- The lowest free slot of the first log (R407). -/
def State.firstFree (s : State) : Option Nat := (List.range 64).find? fun i => !s.logValid true i

/-- The slot of the last log that holds the highest SEQ. -/
def State.lastTop (s : State) : Option Nat :=
  (List.range 64).foldl (fun b i =>
    if s.logValid false i then
      match b with
      | none => some i
      | some j => if s.logSeq false j < s.logSeq false i then some i else b
    else b) none

/-- Where the next commit goes (R407). -/
def State.logTarget (s : State) : Bool × Nat :=
  match s.firstFree with
  | some i => (true, i)
  | none => (false, match s.lastTop with | none => 0 | some j => (j + 1) % 64)

/-- SEQ from which a start continues (R407). -/
def State.nextSeq (s : State) : Nat :=
  let both := (List.range 64).flatMap fun i =>
    (if s.logValid true i then [s.logSeq true i] else []) ++ (if s.logValid false i then [s.logSeq false i] else [])
  match both with
  | [] => 1
  | _ => both.foldl max 0 + 1

/-- The words of a log entry, or of a queue place with SEQ and CRC 0 (R408, R412). -/
def Report.words (r : Report) (seq : Nat) : List Word :=
  [BitVec.ofNat 32 (r.cause + r.scope * 0x100 + r.sev * 0x1000 + r.count * 0x10000 + r.chan * 0x1000000),
   BitVec.ofNat 32 seq, BitVec.ofNat 32 r.opmin, BitVec.ofNat 32 r.pcyc, BitVec.ofNat 32 r.ms, r.detail0,
   r.detail1]

/-- Pending entries in commit order: highest severity first, earliest queued among equals (R407). -/
def commitOrder (q : List Report) : List Report :=
  [4, 3, 2, 1, 0].flatMap fun sev => q.filter fun r => r.sev == sev

/-! ### Operations (R394) -/

/-- Groups at rising addresses. -/
def groupsAt (a : Nat) (ws : List Word) : List (Nat × Word) :=
  (List.range ws.length).map fun j => (a + 4 * j, ws.getD j 0)

/-- The array with groups written into it. -/
def writeGroups (m : Mem 8) (gs : List (Nat × Word)) : Mem 8 :=
  gs.foldl (fun m g => m.setWord kprDefault g.1 g.2) m

/-- The CRC groups of the calibration blocks that a write touches, as they stand after it (R401). -/
def State.calCrcGroups (s : State) (gs : List (Nat × Word)) : List (Nat × Word) :=
  let m := writeGroups s.kpr.cells gs
  calBlocks.filterMap fun b =>
    if gs.any (fun g => decide (b.1 ≤ g.1) && decide (g.1 < b.2 + 4)) then
      some (b.2, crc32 ((List.range (b.2 - b.1)).map fun k => m.get kprDefault (b.1 + k)))
    else none

/-- The groups of a calibration write: the values, then the CRC of each block touched (R401). -/
def State.calGroups (s : State) (gs : List (Nat × Word)) : List (Nat × Word) :=
  let body := gs.filter fun g => calBlocks.all fun b => g.1 != b.2
  body ++ s.calCrcGroups gs

/-- The groups of a command operation (R391, R393). -/
def State.commandGroups (s : State) (c : KprCmd) : List (Nat × Word) :=
  match c with
  | .write a ws => if partition a = 1 then s.calGroups (groupsAt a ws) else groupsAt a ws
  | .startClr =>
    s.recordGroups startKind ({ s.startRecord with fails := 0, opened := false }).payload
  | .keyset hash => groupsAt 0x20 hash ++ [(0x40, 1)]

/-- Can D1 be powered (R36)? -/
def State.kprPowered (s : State) : Bool := s.bit F.SUPPLY_STATUS_HOUSE_OK && !s.power.resetnLow

/-- Begin an operation. -/
def State.kprBegin (s : State) (op : KprOp) (gs : List (Nat × Word)) : State :=
  s.modKpr fun k => { k with running := some ⟨op, gs⟩ }

/-- R394: with nothing running, take the next pending operation. A fault log is committed only in full
operation (R408). -/
def State.kprTake (s : State) : State :=
  let k := s.kpr
  let logDue := s.fullOp && !s.recorder.queue.isEmpty
  let takeLog (s : State) : State :=
    match commitOrder s.recorder.queue with
    | [] => s
    | r :: _ =>
      let t := s.logTarget
      let ws := r.words s.recorder.seq
      ((s.modRec fun q => { q with queue := q.queue.erase r, committing := some r }).setFld (F.REC_GENr_GEN 4)
          ((s.fld (F.REC_GENr_GEN 4) + 2) % 2 ^ 32)).kprBegin (.log t.1 t.2)
        (groupsAt (logSlot t.1 t.2) (ws ++ [wordsCrc ws]))
  if k.running.isSome || !s.kprPowered then s else
  match k.spreads with
  | (c, n) :: rest =>
    let g := s.spreadGroup c n
    let s1 := (s.readSpread c).kprBegin (.spread c) [g]
    let s2 := if g.2 = BitVec.allOnes 32 ∧ !k.saturated then
        (s1.raise 12 6).modKpr fun k => { k with saturated := true } else s1
    s2.modKpr fun k => { k with spreads := rest }
  | [] =>
    match k.starts with
    | r :: rest =>
      (s.kprBegin .startRec (s.recordGroups startKind r.payload)).modKpr fun k => { k with starts := rest }
    | [] =>
      if logDue && !k.lastWasLog then takeLog s else
      match k.command with
      | some c => (s.kprBegin (.command c) (s.commandGroups c)).modKpr fun k => { k with command := none }
      | none =>
        match k.cals with
        | (retrim, gs) :: rest =>
          (s.kprBegin (.cal retrim) (s.calGroups gs)).modKpr fun k => { k with cals := rest }
        | [] =>
          match k.pmems, k.pieces with
          | gs :: rest, _ => (s.kprBegin .pmem gs).modKpr fun k => { k with pmems := rest }
          | [], p :: rest => s.modKpr fun k => { k with running := some p, pieces := rest }
          | [], [] => if logDue then takeLog s else s

/-- Queue a spread-counter increment. -/
def State.kprSpread (s : State) (c : Spread) (n : Nat) : State :=
  (s.modKpr fun k => { k with spreads := k.spreads ++ [(c, n)] }).kprTake

/-- Queue a start-record write; the boot ROM's copy follows at once (R70). -/
def State.kprStartRec (s : State) (r : StartRec) : State :=
  ((s.modBoot fun b => { b with record := r }).modKpr fun k => { k with starts := k.starts ++ [r] }).kprTake

/-- Queue a calibration write of the device (R373, R448). -/
def State.kprCal (s : State) (retrim : Bool) (gs : List (Nat × Word)) : State :=
  (s.modKpr fun k => { k with cals := k.cals ++ [(retrim, gs)] }).kprTake

/-- Queue a partner memory entry (R236). -/
def State.kprPmem (s : State) (gs : List (Nat × Word)) : State :=
  (s.modKpr fun k => { k with pmems := k.pmems ++ [gs] }).kprTake

/-- Is a keeper write pending or running (R40)? -/
def State.kprBusy (s : State) : Bool :=
  s.kpr.running.isSome || !s.kpr.spreads.isEmpty || !s.kpr.starts.isEmpty || s.kpr.command.isSome
    || !s.kpr.cals.isEmpty || !s.kpr.pmems.isEmpty || !s.kpr.pieces.isEmpty

/-- The group pieces of a record write, page by page (R394). -/
def pagePieces (extremes : Bool) (gs : List (Nat × Word)) : List KprRun :=
  let pages := (gs.map fun g => g.1 / 0x80).eraseDups
  let last := pages.getLast?
  pages.map fun p => ⟨.piece extremes (last == some p), gs.filter fun g => g.1 / 0x80 == p⟩

/-- Queue the write of a statistics or extremes record, as it stands now (R405; log 10). -/
def State.kprRecord (s : State) (extremes : Bool) : State :=
  let k := if extremes then extremesKind else statsKind
  let ws := if extremes then payloadWords k s.recorder.extremes extremesDefault
    else payloadWords k s.recorder.stats statsDefault
  ((s.modKpr fun q => { q with pieces := q.pieces ++ pagePieces extremes (s.recordGroups k ws) }).modRec fun r =>
    if extremes then { r with extremesDirty := false } else { r with statsDirty := false }).kprTake

/-- Write one group into the array (R388): the group is whole and clean, and the partition's wear grows. -/
def State.kprStore (s : State) (a : Nat) (w : Word) : State :=
  let q := partition a
  let s1 := s.modKpr fun k =>
    { k with cells := k.cells.setWord kprDefault a w, ecc1 := k.ecc1.filter (· != a),
             ecc2 := k.ecc2.filter (· != a) }
  if h : q < 5 then
    let i : Fin 5 := ⟨q, h⟩
    let n := s1.kpr.unworn[i] + 1
    let total := s1.spreadValue (.wear i) + n
    let warn := decide ((partEnd q - partBase q) / 4 * 90000 ≤ total) && !s1.kpr.warned[i]
    let s2 := s1.modKpr fun k => { k with unworn := k.unworn.set q (if n < 4096 then n else 0) h,
                                          warned := if warn then k.warned.set q true h else k.warned }
    let s3 := if warn then s2.raise 12 13 else s2
    if n < 4096 then s3 else s3.modKpr fun k => { k with spreads := k.spreads ++ [(.wear i, 4096)] }
  else s1

/-- R395: the house input or RESETn cuts the operation: the group in progress is completed on hold-up, and
everything later is lost. After a fast fall the group may read Uncorrectable, with raw data. -/
def State.kprCut (s : State) (fast : Bool) : State :=
  let s1 :=
    match s.kpr.running with
    | some ⟨_, (a, w) :: _⟩ =>
      let t := s.kprStore a w
      let t1 := if fast then
          let (raw, t') := t.fresh 32
          t'.modKpr fun k => { k with cells := k.cells.setWord kprDefault a raw, ecc2 := a :: k.ecc2 }
        else t
      t1.modPower fun p => { p with holdup := true }
    | _ => s
  s1.modKpr fun k => { k with running := none, spreads := [], starts := [], command := none, cals := [], pmems := [],
                              pieces := [], lastWasLog := false }

/-- R402: does a calibration block's CRC match? -/
def State.calOk (s : State) (b : Nat × Nat) : Bool :=
  s.kprWord b.2 == crc32 ((List.range (b.2 - b.1)).map fun k => s.kpr.cells.get kprDefault (b.1 + k))

/-- R402: set CAL_BAD from the blocks as stored. -/
def State.calCheck (s : State) : State :=
  let s := s.kprTouchAll 0x4000 0x300
  (List.range 5).foldl (fun t b =>
    match calBlocks[b]? with
    | some blk => t.setBit (F.KPR_STATUS_CAL_BAD.at b) (!s.calOk blk)
    | none => t) s

/-- The sealed key hash, as 32 bytes (R393). -/
def State.keyHash (s : State) : List Byte :=
  (List.range 32).map fun i => s.kpr.cells.get kprDefault (0x20 + i)

/-- R393: the key hash counts as written once the seal word reads 1. -/
def State.sealed (s : State) : Bool := s.kprWord 0x40 == 1

end Sys2Proof.Machine
end

