-- ==== Sys2Proof/Machine/RecorderOps.lean ====
section
/-!
DEFINITION. Counting and reporting: the live statistics, the extremes and the report queue (R403-R408).
-/

namespace Sys2Proof.Machine

/-- One REC_GEN step: odd, changed, even (R410). -/
def State.recGen (s : State) (r : Nat) : State :=
  s.setFld (F.REC_GENr_GEN r) ((s.fld (F.REC_GENr_GEN r) + 2) % 2 ^ 32)

/-- R404: count into the live statistics payload, saturating. -/
def State.count (s : State) (off : Nat) (n : Nat := 1) : State :=
  let v := (s.recorder.stats.get statsDefault off).toNat
  let s1 := s.modRec fun r =>
    { r with stats := r.stats.set statsDefault off (BitVec.ofNat 32 (min (v + n) 0xFFFFFFFF)), statsDirty := true }
  if 0xFFFFFFFF ≤ v + n ∧ !s1.recorder.histSat then
    (s1.raise 12 12).modRec fun r => { r with histSat := true }
  else s1

/-- Power cycles, as the keeper counts them (R397). -/
def State.pcyc (s : State) : Nat := s.spreadValue .pcyc

/-- R404: record an extreme item if the value goes beyond it, or nothing has been recorded. -/
def State.extreme (s : State) (k : Nat) (v : Int) (highest : Bool) : State :=
  let off := 8 + 12 * k
  let e := s.recorder.extremes
  let fresh := e.get extremesDefault (off + 4) == BitVec.allOnes 32
    && e.get extremesDefault (off + 8) == BitVec.allOnes 32
  let old := (e.get extremesDefault off).toInt
  if fresh || (if highest then decide (old < v) else decide (v < old)) then
    let set (m : Mem 32) (o : Nat) (w : Word) : Mem 32 := m.set extremesDefault o w
    let e1 := set (set (set e off (BitVec.ofInt 32 v)) (off + 4) (BitVec.ofNat 32 s.power.opmin)) (off + 8)
      (BitVec.ofNat 32 s.pcyc)
    ((s.modRec fun r => { r with extremes := e1, extremesDirty := true }).recGen 1).raise 12 11
  else s

/-- A report lost: counted for its own severity (R406). -/
def State.lostReport (s : State) (sev : Nat) : State := (s.count (8 + 4 * sev)).raise 12 8

/-- The most recently queued entry of a severity. -/
def lastOfSev (q : List Report) (sev : Nat) : Option Report := (q.filter fun r => r.sev == sev).getLast?

/-- R406: how a report enters the queue. -/
def State.enqueue (s : State) (r : Report) : State :=
  let q := s.recorder.queue
  if q.any (fun x => x.scope == r.scope && x.cause == r.cause) then
    (s.modRec fun k => { k with queue := q.map fun x =>
      if x.scope == r.scope && x.cause == r.cause then { x with count := min (x.count + 1) 255 } else x }).recGen 4
  else if q.length < 16 then (s.modRec fun k => { k with queue := q ++ [r] }).recGen 4
  else
    let low := q.foldl (fun m x => min m x.sev) 4
    if low < r.sev then
      match lastOfSev q low with
      | some x => ((s.modRec fun k => { k with queue := q.erase x ++ [r] }).recGen 4).lostReport x.sev
      | none => s
    else s.lostReport r.sev

/-- The scope code of a report: L0-L11, or 12 for the device (R408). -/
def scopeDevice : Nat := 12

/-- R198, R406: one report of a fault, counted whatever happens to its entry. DETAIL1 holds the scope's nesting
and handling cause; `detail` is the sensed value that tripped, or 0 (log 11). -/
def State.report (s : State) (scope cause sev : Nat) (chan : Option Nat) (detail : Word) : State :=
  let off := if scope < 12 then 0x20 + 4 * (32 * scope + cause) else 0x620 + 4 * cause
  let nest := if scope < 12 then s.fld (F.PROT_Ln_LADDER_NEST scope) else 0
  let handling := if scope < 12 then s.fld (F.PROT_Ln_LADDER_CAUSE scope) else 0
  ((s.count off).enqueue
    { cause := cause, scope := scope, sev := sev, count := 0, chan := chan.getD 0xFF, opmin := s.power.opmin,
      pcyc := s.pcyc, ms := s.power.ms, detail0 := detail,
      detail1 := BitVec.ofNat 32 (nest % 4 + handling % 64 * 4) }).kprTake

end Sys2Proof.Machine
end

