-- ==== Sys2Proof/Machine/EngineOps.lean ====
section
/-!
DEFINITION. The engine's channels: kinds, TOP, phases, safe states, pins and the minimum-pulse arithmetic
(R84-R117).
-/

namespace Sys2Proof.Machine

/-! ### Kinds, membership and TOP -/

/-- CH0-CH23 are rail channels (R84). -/
def isRail (n : Chan) : Bool := decide (n.val < 24)

/-- The port of a port leg channel (R84). -/
def legPort (n : Chan) : Option Port := if h : 24 ≤ n.val then some ⟨(n.val - 24) / 2, by omega⟩ else none

/-- FIRST to FIRST + COUNT - 1 of a rail loop, as numbers (R120). -/
def State.memberNums (s : State) (l : Loop) : List Nat :=
  (List.range (s.fld (F.LP_Ln_MEMBERS_COUNT l))).map fun k => s.fld (F.LP_Ln_MEMBERS_FIRST l) + k

/-- The configured members of a loop: the rail channels of R120, or a port's two legs (R84). -/
def State.members (s : State) (l : Loop) : List Chan :=
  match loopPort? l with
  | some p => [buckLeg p, boostLeg p]
  | none => (upto 32).filter fun n => isRail n && (s.memberNums l).contains n.val

/-- The spare of a rail loop; codes 24-31 name none (Table 4.6). -/
def State.spare (s : State) (l : Loop) : Option Chan :=
  if 8 ≤ l.val then none else (upto 32).find? fun n => isRail n && n.val == s.fld (F.LP_Ln_MEMBERS_SPARE l)

def State.retired (s : State) (n : Chan) : Bool := isRail n && s.bit (F.LP_CHn_CARD_RETIRED n)
def State.joined (s : State) (n : Chan) : Bool := isRail n && s.bit (F.LP_CHn_CARD_JOINED n)

/-- Members and spare: every channel a loop's latch or stop acts on (R180). -/
def State.loopChans (s : State) (l : Loop) : List Chan :=
  s.members l ++ (match s.spare l with | some c => [c] | none => [])

/-- The channels that serve a loop: its members, and the spare once it has joined (R121). -/
def State.serving (s : State) (l : Loop) : List Chan :=
  s.members l ++ (match s.spare l with | some c => if s.joined c then [c] else [] | none => [])

/-- The loop a channel serves, if any. -/
def State.chanLoop (s : State) (n : Chan) : Option Loop := (upto 12).find? fun l => (s.serving l).contains n

/-- The loop whose channel it is: the one it serves, or the one it is the spare of. -/
def State.homeLoop (s : State) (n : Chan) : Option Loop :=
  (s.chanLoop n).or ((upto 12).find? fun l => (s.loopChans l).contains n)

/-- The lowest-numbered configured member (R89). -/
def State.leader (s : State) (l : Loop) : Option Chan := (s.members l).head?

/-- R89: the TOP code that a commit gives a channel: a rail member takes that of its loop's lowest-numbered member; on
any other channel its own acts. -/
def State.topWanted (s : State) (n : Chan) : Option Nat :=
  match s.chanLoop n with
  | some l => if l.val < 8 then (s.leader l).map fun m => s.afld (F.PE_CHn_TOP_TOP m) else none
  | none => none

/-- A commit gives the channel its TOP (R89). -/
def State.takeTop (s : State) (n : Chan) : State := s.modChan n fun c => { c with top := s.topWanted n }

/-- The TOP code in force (R89). -/
def State.topCode (s : State) (n : Chan) : Nat := (s.chan n).top.getD (s.afld (F.PE_CHn_TOP_TOP n))

/-- R85: TOP, held to the range of the channel's kind. -/
def State.top (s : State) (n : Chan) : Nat := min (max (s.topCode n) (if isRail n then 100 else 400)) 4000

/-- TOP in taps (R86). -/
def State.topTaps (s : State) (n : Chan) : Nat := s.top n * 80

/-- R89: the phase of a slot. -/
def slotPhase (base top slot count : Nat) : Nat := (base + slot * 2 * top / count) % (2 * top)

/-- R87-R89: a channel's phase in coarse counts. CH0 is at p = 0 at every master valley, whatever its slot (R87; log 83).
A rail member without a slot keeps the phase it last had (DESIGN CHOICE, log 84). -/
def State.phase (s : State) (n : Chan) : Nat :=
  let own := s.afld (F.PE_CHn_PHASE_PHASE n) % (2 * s.top n)
  if n.val = 0 then 0 else
  match s.chanLoop n with
  | some l =>
    if l.val < 8 then
      match (s.loop l).order.idxOf? n, s.leader l with
      | some k, some m => slotPhase (s.afld (F.PE_CHn_PHASE_PHASE m)) (s.top n) k (s.loop l).order.length
      | _, _ => match (s.chan n).placed with | some x => x.2 % (2 * s.top n) | none => own
    else own
  | none => own

/-! ### Enabled, held and safe -/

/-- EN in force (R103). -/
def State.chanEn (s : State) (n : Chan) : Bool := s.abit (F.PE_CHn_CTRL_EN n)

/-- The channel's domain: D7 or D8 (Table 1.6). -/
def chanDom (n : Chan) : Nat := if n.val < 16 then 7 else 8

/-- The channel's domain is calibrated (R112). -/
def State.chanCal (s : State) (n : Chan) : Bool :=
  if n.val < 16 then s.bit F.PE_STATUS_CAL_W_OK else s.bit F.PE_STATUS_CAL_E_OK

/-- The over-voltage latch that holds a channel low: of a loop it is a member or the spare of (R180). -/
def State.ovLow (s : State) (n : Chan) : Bool :=
  (upto 12).any fun l => s.bit (F.PROT_Ln_STATUS_OV_LATCH l) && (s.loopChans l).contains n

/-- The channel runs on its loop's fallback loop (R148). -/
def State.onFallback (s : State) (n : Chan) : Bool :=
  match s.chanLoop n with
  | some l => s.fld (F.LP_Ln_STATUS_STATE l) == 5
  | none => false

/-- Row 3 of Table 3.5, with R117, R148 and R381: engine disabled, freeze, fault input, trip bus or the hold of a thermal
shutdown; and, but on the fallback loop, a PLL loss. -/
def State.chanHeld (s : State) (n : Chan) : Bool :=
  s.bit F.THM_STATUS_SHUT_HOLD || !s.bit F.PE_CTRL_ENGINE_EN || s.bit F.PE_STATUS_FROZEN || s.bit (F.PE_CHn_STATUS_FAULT_HOLD n)
    || (s.chan n).tripHold || (s.chan n).needLoad
    || ((s.bit F.PE_STATUS_SAFE_PLL || (s.chan n).pllLoad) && !s.onFallback n)

/-- R104, R112: enabled, calibrated and past its first turning point. -/
def State.chanRun (s : State) (n : Chan) : Bool :=
  s.domOn (chanDom n) && s.chanEn n && !(s.chan n).waitCal

/-- PE_CHn_STATUS.SAFE: the channel is in its safe state (R113-R117). DESIGN CHOICE (log 85): SAFE shows the holds of
R114-R117 and a channel that does not run; an over-voltage latch, whose low is the safe state of R113, shows in OV_LOW
alone. -/
def State.chanSafe (s : State) (n : Chan) : Bool :=
  !s.chanRun n || !(s.chan n).begun || s.chanHeld n

/-- R100: does the channel pulse by its compares: it runs, and no hold, latch or fallback loop has its pins? -/
def State.pulseActs (s : State) (n : Chan) : Bool := !s.chanSafe n && !s.ovLow n && !s.onFallback n

/-- R91: is position `x`, in taps from the valley, within the high time of its half? -/
def State.highAt (s : State) (n : Chan) (x : Nat) : Bool :=
  let t := s.topTaps n
  let c := s.chan n
  if x < t then decide (x < c.cmpUp) else decide (t ≤ c.cmpDn) || decide (2 * t < x + c.cmpDn)

/-- R94, R98: B is high at position `x` of a leg: DT_AB after A has fallen, or with no high interval of A behind it, until
DT_BA before the rise that CMP_DN gives; a rise at the valley itself, whose compare is not yet committed, gives none. -/
def State.bAt (s : State) (n : Chan) (x : Nat) : Bool :=
  let t := s.topTaps n
  let c := s.chan n
  let idle := c.cmpUp == 0 && (c.cmpDn == 0 || decide (t ≤ x))
  !c.bOff && (idle || decide (c.cmpUp + s.afld (F.PE_CHn_DT_DT_AB n) * 80 ≤ x))
    && (decide (x < t) || c.cmpDn == 0 || decide (x + c.cmpDn + s.afld (F.PE_CHn_DT_DT_BA n) * 80 < 2 * t))

/-- R91, R104: A, or the rail pin, is high at position `x`: as the compares say, unless a reload still keeps the interval
that it met. -/
def State.levelAt (s : State) (n : Chan) (x : Nat) : Bool :=
  match (s.chan n).keep with
  | some k => if x < k.start + k.taps then k.high else s.highAt n x
  | none => s.highAt n x

/-- R451: frame jitter moves the edges of a selected channel. -/
def State.jittered (s : State) (n : Chan) : Bool := s.bit (F.TST_JIT_SEL_SEL.at n.val) && s.fld F.TST_JIT_J != 0

/-- R451: the next pulse's shift, from -J to +J; the PRBS-15 that draws it is open (log 1). -/
def State.drawJitter (s : State) (n : Chan) : State :=
  if s.jittered n then
    let (v, t) := s.fresh 15
    let j := s.fld F.TST_JIT_J
    t.modChan n fun c => { c with jit := (v.toNat % (2 * j + 1) : Nat) - (j : Int) }
  else s

/-- R451: the position of the unshifted pulse that stands at position `x`. -/
def State.unshift (s : State) (n : Chan) (x : Nat) : Nat :=
  if s.jittered n then (((x : Int) - (s.chan n).jit) % (2 * s.topTaps n : Nat)).toNat else x

/-- R116, R139, Table 3.5: the pin code of PE_CHn_STATUS.PIN with the channel at position `x`, in taps from the valley.
Rail: 0 low, 1 high, 2 mid-level; leg: 0 both low, 1 A high, 2 B high. -/
def State.pinAt (s : State) (n : Chan) (x : Nat) : Nat :=
  let c := s.chan n
  let safe := if isRail n then 2 else 0
  if !s.domOn (chanDom n) then safe
  else if s.ovLow n then 0
  else if s.onFallback n then
    if s.chanHeld n || s.retired n || !s.chanEn n || !((upto 12).any fun l => (s.loop l).round.contains n) then safe
    else if (upto 12).any (fun l => (s.loop l).fbHigh == some n) then 1 else 0
  else if s.chanSafe n then safe
  else if c.scHold then 0
  else
    match c.halfNow with
    | .mid => safe
    | .low => 0
    | .pwm =>
      if s.levelAt n (s.unshift n x) then 1
      else if isRail n then if c.emulating then 2 else 0
      else if s.bAt n (s.unshift n x) then 2 else 0

/-- The pin as it stands right after the channel's last turning point or reload (log 77). -/
def State.pin (s : State) (n : Chan) : Nat := s.pinAt n (s.fld (F.PE_CHn_POS_POS n) * 80)

/-- A high interval of the channel falls in the half in progress, or its fallback pulse is high. -/
def State.pulsing (s : State) (n : Chan) : Bool :=
  if s.onFallback n then s.pin n == 1
  else s.domOn (chanDom n) && s.pulseActs n && !(s.chan n).scHold && (s.chan n).halfNow == .pwm
    && (if s.bit (F.PE_CHn_POS_DOWN n) then decide (0 < (s.chan n).cmpDn) else decide (0 < (s.chan n).cmpUp))

/-- Engine-wide safe state, kept until a LOAD_ALL commit selects each channel (R114, R117). -/
def State.allNeedLoad (s : State) : State := s.forAll fun n t => t.modChan n fun c => { c with needLoad := true }

/-- The same after a PLL loss, which the fallback loop displaces (R117, R148). -/
def State.allPllLoad (s : State) : State := s.forAll fun n t => t.modChan n fun c => { c with pllLoad := true }

/-! ### Shadow writes (R103) -/

/-- A shadow write, logged for the commit rule of R103. -/
def State.writeShadow (s : State) (a : Nat) (w : Word) : State :=
  (s.modEngine fun e => { e with shadowLog := (a, s.reg a) :: e.shadowLog }).setReg a w

/-- Write one field of a shadow. -/
def State.setShadow (s : State) (f : Fld) (v : Nat) : State :=
  s.writeShadow f.addr (putBits (s.reg f.addr) f.lo f.width v)

/-- One step toward a target. -/
def toward (v target : Nat) : Nat := if v < target then v + 1 else v - (if target < v then 1 else 0)

/-! ### Minimum pulses (R95-R99) -/

/-- MIN_ON and MIN_OFF in taps: codes 5 120-8 191 act as 5 119 (R95). -/
def minTaps (code : Nat) : Nat := min code 5119

def State.minOn (s : State) (n : Chan) : Nat := minTaps (s.afld (F.PE_CHn_MIN_MIN_ON n))
def State.minOff (s : State) (n : Chan) : Nat := minTaps (s.afld (F.PE_CHn_MIN_MIN_OFF n))

/-- STRETCH policy (Table 3.6). -/
def State.stretches (s : State) (n : Chan) : Bool := s.abit (F.PE_CHn_CTRL_MINP n)

/-- R93: the trim is added to a compare above 0, and the result held to 0 to TOP x 80. -/
def trimmed (cmp trim : Int) (topTaps : Nat) : Nat :=
  if cmp ≤ 0 then 0 else (clamp (min cmp topTaps + trim) 0 topTaps).toNat

/-- The four counted kinds of R99, by their MIN_PULSE bin. -/
inductive MinPulse where
  | drop | stretch | suppression | clamp
  deriving DecidableEq, Repr

def MinPulse.bin (k : MinPulse) : Nat :=
  match k with
  | .drop => 0 | .stretch => 1 | .suppression => 2 | .clamp => 3

def MinPulse.counter (k : MinPulse) (n : Nat) : Fld :=
  match k with
  | .drop => F.PE_CHn_MINP_CNT_DROP_CNT n
  | .stretch => F.PE_CHn_MINP_CNT_STRETCH_CNT n
  | .suppression => F.PE_CHn_MINP_CNT_SUPP_CNT n
  | .clamp => F.PE_CHn_MINP_CNT_CLAMP_CNT n

/-- R99: one event counts in the recorder and in the channel's counter. -/
def State.countMinPulse (s : State) (n : Chan) (k : MinPulse) : State :=
  (s.count (0x6A0 + 16 * n.val + 4 * k.bin)).satInc (k.counter n)

/-- What R96 makes of the CMP_DN just committed. -/
structure PeakResult where
  cmpDn : Nat
  dropped : Bool
  kind : Option MinPulse
  deriving DecidableEq, Repr

/-- R96: clamp, short pulse, conflict. `limit` is the highest CMP_DN that the low interval allows: MIN_OFF on a
rail channel, the B clamp of R98 on a port leg. -/
def peakRules (req limit minOn : Nat) (stretch : Bool) : PeakResult :=
  let c := min req limit
  let clamped := decide (c < req)
  if 0 < c ∧ 2 * c < minOn then
    if !stretch then ⟨0, true, some .drop⟩
    else
      let w := (minOn + 1) / 2
      if clamped ∧ limit < w then ⟨0, true, some .drop⟩ else ⟨w, false, some .stretch⟩
  else ⟨c, false, if clamped then some .clamp else none⟩

/-- R97: what the valley makes of CMP_UP, with D the CMP_DN in use. -/
def valleyRules (d up minOn : Nat) (stretch dropped : Bool) : Nat × Option MinPulse :=
  if dropped then (0, none)
  else if 0 < d then if d + up < minOn then (minOn - d, some .stretch) else (up, none)
  else if 0 < up ∧ up < minOn then if stretch then (minOn, some .stretch) else (0, some .drop)
  else (up, none)

/-- R98: the predicted B interval in taps, dead times taken out on both sides. -/
def bInterval (topTaps up dn ab ba : Nat) : Int := (topTaps - up : Int) + (topTaps - dn) - (ab + ba : Nat) * 80

end Sys2Proof.Machine
end

