-- ==== Sys2Proof/Machine/LoopOps.lean ====
section
/-!
DEFINITION. The loops: states, targets, the active set, starting, stopping and blocking (R120-R149), and the
alert causes that follow them (R173, R174).
-/

namespace Sys2Proof.Machine

/-! ### Alert causes of the load voltage link (Table 5.9) -/

/-- The code of a slot's LOOP field. -/
def State.slotCode (s : State) (v : Port) (slot : Fin 2) : Nat :=
  if slot.val = 0 then s.fld (F.VLK_n_MAP_LOOP0 v) else s.fld (F.VLK_n_MAP_LOOP1 v)

/-- R154: a slot whose loop a lower-numbered port, or slot 0 of the same port, already serves. -/
def State.slotConflict (s : State) (v : Port) (slot : Fin 2) : Bool :=
  let code := s.slotCode v slot
  decide (code < 8) && ((slot == 1 && s.slotCode v 0 == code)
    || (upto 4).any fun u => decide (u.val < v.val) && (s.slotCode u 0 == code || s.slotCode u 1 == code))

/-- The loop a slot of a link port serves: codes 8-15 and conflicts serve none (R153, R154). -/
def State.slotLoop (s : State) (v : Port) (slot : Fin 2) : Option Loop :=
  let code := s.slotCode v slot
  if s.slotConflict v slot then none else if h : code < 8 then some ⟨code, by omega⟩ else none

/-- Set an alert cause of one slot (R174). -/
def State.alertSlot (s : State) (v : Port) (slot : Fin 2) (bit : Nat) : State :=
  s.setFld ((F.VLK_n_ALERTs_CAUSE v slot).at bit) 1

/-- Set an alert cause in every slot that serves a loop (R174). -/
def State.alertLoop (s : State) (l : Loop) (bit : Nat) : State :=
  s.forAll fun (v : Port) t => t.forAll fun (k : Fin 2) u =>
    if u.slotLoop v k == some l then u.alertSlot v k bit else u

/-! ### States (Table 4.6) -/

/-- STATE: 0 off, 1 waiting, 2 start, 3 regulating, 4 stopping, 5 fallback, 6 latched off, 7 configuration error. -/
def State.loopSt (s : State) (l : Loop) : Nat := s.fld (F.LP_Ln_STATUS_STATE l)

/-- Enter a STATE: SETTLED clears on leaving STATE 3 (R141), a pending notice is dropped with it (R173), and the
alert causes FALLBACK and LOOP_OFF follow (Table 5.9). -/
def State.setLoopSt (s : State) (l : Loop) (v : Nat) : State :=
  let old := s.loopSt l
  let s1 := (s.setFld (F.LP_Ln_STATUS_STATE l) v).modLoop l fun k => { k with cardBroken := k.cardBroken || old != v }
  let s2 :=
    if old = 3 ∧ v ≠ 3 then
      let t := s1.setBit (F.LP_Ln_STATUS_SETTLED l) false
      let t1 := if (t.loop l).notice.isSome then
          (t.modLoop l fun k => { k with notice := none }).alertLoop l 5
        else t
      if v = 0 ∨ v = 4 ∨ v = 6 then t1.alertLoop l 4 else t1
    else s1
  if old ≠ 5 ∧ v = 5 then s2.alertLoop l 3 else s2

/-- The loop is on: neither off nor in configuration error (R37, R120). -/
def State.loopOn (s : State) (l : Loop) : Bool := s.loopSt l != 0 && s.loopSt l != 7

/-! ### Targets (R125-R127) -/

/-- R125: the target a VREF code stands for, in 1.25 mV. -/
def vrefTarget (code : Nat) : Nat := if code = 0 then 0 else min (max code 0xC8) 0x7D0

/-- R126: the slew code in force; 0 acts as 1, 129-255 as 128. -/
def slewCode (c : Nat) : Nat := min (max c 1) 128

/-- VREF_NOW in the window ADC's steps: 0.25 mV on a rail, whose reference moves by 1.25 mV; 5 mV on a port. -/
def State.vrefNowQ (s : State) (l : Loop) : Nat :=
  match loopPort? l with
  | none => 5 * s.fld (F.LP_Ln_VNOW_VREF_NOW l)
  | some p => s.paths[p].vrefNow

/-- R127: the droop term in 0.25 mV, clamped to -64 mV to +256 mV. -/
def State.droop (s : State) (l : Loop) : Rat :=
  if 8 ≤ l.val then 0 else
  max (-256) (min ((s.fld (F.LP_Ln_LL_RLL l) : Rat) * ((s.loop l).ill + (s.loop l).ipre) / 400) 1024)

/-- R127: the effective target V_t in 0.25 mV. -/
def State.vt (s : State) (l : Loop) : Rat := (s.vrefNowQ l : Rat) - s.droop l + ((s.loop l).inj : Rat)

/-- One step of the window ADC at the node it senses, in microvolts: 0.25 mV, and 5 mV at a port's 1/20 divider (R123). -/
def windowStep (l : Loop) : Nat := if l.val < 8 then 250 else 5000

/-- R123: the window ADC's code of an output of `uv` microvolts. -/
def State.windowCode (s : State) (l : Loop) (uv : Int) : Nat :=
  (clamp (512 + nearest ((uv : Rat) / (windowStep l : Rat) - s.vt l)) 0 1023).toNat

/-- The sensed output as the latest window sample shows it, in 0.25 mV: V_t + W - 512 (Table 5.6). -/
def State.sensed (s : State) (l : Loop) : Int := openRat (s.vt l + ((s.windowCode l (s.loop l).vs : Rat) - 512))

/-! ### The active set (R121, R135, R136) -/

/-- A loop's available channels, lowest number first; a joined spare counts at the member it replaced (R121). -/
def State.available (s : State) (l : Loop) : List Chan :=
  (s.members l).filterMap fun n =>
    if !s.retired n then some n
    else if (s.loop l).joinedFor == some n then s.spare l else none

/-- The entries of the phase table in use (R135). -/
def State.phEntries (s : State) (l : Loop) : Nat := min (max (s.fld (F.LP_Ln_PHCFG_ENTRIES l)) 1) 8

/-- THRESH_e, 0.25 A; THRESH_0 is taken as 0 (R135). -/
def State.thresh (s : State) (l : Loop) (e : Nat) : Nat := if e = 0 then 0 else s.fld (F.LP_Ln_PHTBLe_THRESH l e)

/-- An entry whose THRESH is below that of the entry before it is ignored (R135). -/
def State.entryCounts (s : State) (l : Loop) (e : Nat) : Bool :=
  e == 0 || decide (s.thresh l (e - 1) ≤ s.thresh l e)

/-- NPH_e: 0 acts as 1, a code above COUNT as COUNT (R135). -/
def State.nph (s : State) (l : Loop) (e : Nat) : Nat :=
  min (max (s.fld (F.LP_Ln_PHTBLe_NPH l e)) 1) (max (s.fld (F.LP_Ln_MEMBERS_COUNT l)) 1)

/-- i_ph in 1/16 A: the mean of i_sum over the last 2^PH_AVG master valleys (R135); before that many have passed it is open, and
before the first it is 0, as I_PH is after start (log 12). -/
def State.iph (s : State) (l : Loop) : Rat :=
  let w := (s.loop l).isums.take (2 ^ s.fld (F.LP_Ln_PHCFG_PH_AVG l))
  if w.isEmpty then 0
  else if w.length < 2 ^ s.fld (F.LP_Ln_PHCFG_PH_AVG l) then Config.partialMean w
  else (w.sum : Rat) / (w.length : Rat)

/-- R135: the new entry, the highest e whose threshold, less its hysteresis for e ≤ c, i_ph reaches; where i_ph is below every
one (it is signed), DESIGN CHOICE (log 92): entry 0. -/
def State.tableEntry (s : State) (l : Loop) (c : Nat) : Nat :=
  (List.range (s.phEntries l)).foldl (fun best e =>
    let lim : Int := (s.thresh l e : Int) - (if e ≤ c then (s.fld (F.LP_Ln_PHTBLe_HYST l e) : Int) else 0)
    if s.entryCounts l e && decide ((4 * lim : Int) ≤ s.iph l) then e else best) 0

/-- R121: the active count with a given table entry. -/
def State.activeCount (s : State) (l : Loop) (e : Nat) : Nat :=
  let av := (s.available l).length
  let full := if s.bit (F.LP_Ln_STATUS_FULLING l) then av else 0
  min av (max (max (s.nph l e) (s.fld (F.LP_Ln_PHCFG_PH_FLOOR l))) full)

/-- R132, R135: the set of the highest entry, of those that count, whose NPH does not exceed N, or of entry 0. -/
def State.setFor (s : State) (l : Loop) (n : Nat) : Nat :=
  let e := (List.range (s.phEntries l)).foldl (fun b e => if s.entryCounts l e && decide (s.nph l e ≤ n) then e else b) 0
  s.fld (F.LP_Ln_PHTBLe_CSET l e)

/-- The latest current of a channel in 1/16 A: the mean of its two most recent samples (R128); with one sample so far, DESIGN
CHOICE (log 92): that sample, and with none 0. -/
def State.latest (s : State) (n : Chan) : Int :=
  match (s.chan n).samples with
  | a :: b :: _ => openDiv (a + b) 2
  | [a] => a
  | [] => 0

/-- R128: i_sum over the active channels, 1/16 A. -/
def State.isum (s : State) (l : Loop) : Int := ((s.loop l).order.map fun n => s.latest n).sum

/-- Give the active channels their slots, and the status its N; a change of N brings its set (R122, R132). -/
def State.setOrder (s : State) (l : Loop) (order : List Chan) : State :=
  let s1 := s.modLoop l fun k => { k with order := order, moved := true }
  let s2 := (s.loopChans l).foldl (fun t n => t.modChan n fun c => { c with slot := order.idxOf? n }) s1
  if s.fld (F.LP_Ln_STATUS_NACT l) = order.length then s2
  else (s2.setFld (F.LP_Ln_STATUS_NACT l) order.length).setFld (F.LP_Ln_STATUS_CSET l) (s2.setFor l order.length)

/-- The active channels take PWM, every other serving one MID (R92, R121). -/
def State.activeHalves (s : State) (l : Loop) : State :=
  (s.serving l).foldl (fun t n => t.modChan n fun c =>
    { c with half := if (s.loop l).order.contains n then .pwm else .mid, emulating := false }) s

/-- R122: the order after a change of the active set. A joiner for a retired member takes its slot; otherwise the
remaining channels keep their cyclic order from the lowest present slot, and added ones follow. -/
def reorder (old new : List Chan) (swapped : Option (Chan × Chan)) : List Chan :=
  let old1 := match swapped with
    | some (out, inn) => old.map fun n => if n == out then inn else n
    | none => old
  let kept := old1.filter fun n => new.contains n
  kept ++ new.filter fun n => !kept.contains n

/-- The N lowest-numbered available channels, a joined spare at the number of the member it replaced (R121). -/
def State.activeSet (s : State) (l : Loop) (e : Nat) : List Chan := (s.available l).take (s.activeCount l e)

/-! ### Blocking (R142-R144) -/

/-- R144: the injection stops at the end of the current frame; one that has not begun ends at once. -/
def State.stopInject (s : State) (l : Loop) (result : Nat) : State :=
  match (s.loop l).inject with
  | none => s
  | some i =>
    if i.running then
      s.modLoop l fun k => { k with inject := some { i with stop := i.stop.or (some result) } }
    else
      ((((s.modLoop l fun k => { k with inject := none, inj := 0, cardBroken := true }).setFld (F.LP_Ln_BLK_CTRL_RESULT l) result).setBit
        (F.LP_Ln_BLK_CTRL_RUN l) false)).raise 3 l.val

/-- The injection ends: inj returns to 0, RUN reads 0 and RESULT records why (R143, R144, G3). -/
def State.endInject (s : State) (l : Loop) (result : Nat) : State :=
  ((((s.modLoop l fun k => { k with inject := none, inj := 0, cardBroken := true }).setFld (F.LP_Ln_BLK_CTRL_RESULT l) result).setBit
    (F.LP_Ln_BLK_CTRL_RUN l) false)).raise 3 l.val

/-- R123: a window code of 0 or 1023 sets WSAT, which stops an injection (R144). -/
def State.windowSat (s : State) (l : Loop) (codes : List Nat) : State :=
  if codes.any fun c => c == 0 || c == 1023 then (s.setBit (F.LP_Ln_STATUS_WSAT l) true).stopInject l 8 else s

/-! ### Channels of a loop -/

/-- Every serving channel takes a half state from its next turning point, a retired one MID (R137-R140). -/
def State.loopHalf (s : State) (l : Loop) (h : HalfState) : State :=
  (s.serving l).foldl (fun t n => t.modChan n fun c =>
    { c with half := if s.retired n then .mid else h, next := none }) s

/-- Every channel of a loop is at mid-level at once (R138, R181, R188, R191). -/
def State.loopMid (s : State) (l : Loop) : State :=
  (s.loopChans l).foldl (fun t n => t.modChan n fun c =>
    { c with half := .mid, halfNow := .mid, next := none }) s

/-- Put every channel of a loop on the trip bus in its safe state (R188), or release them (R189, R196). -/
def State.loopTrip (s : State) (l : Loop) (on : Bool) : State :=
  (s.loopChans l).foldl (fun t n => t.modChan n fun c =>
    { c with tripHold := on }) s

/-- R183: the short-circuit count of every channel returns to 0 when the loop stops. -/
def State.clearSc (s : State) (l : Loop) : State :=
  (s.loopChans l).foldl (fun t n => t.modChan n fun c => { c with scRun := 0, scHold := false }) s

/-! ### Starting (R120, R138) -/

/-- R120: a configuration with which a rail loop does not start. -/
def State.configBad (s : State) (l : Loop) : Bool :=
  let mine := s.memberNums l
  let spare (k : Loop) : List Nat := match s.spare k with | some c => [c.val] | none => []
  let others := (upto 12).filter fun k => k != l && decide (k.val < 8)
  s.fld (F.LP_Ln_MEMBERS_COUNT l) == 0
    || mine.any (fun n => decide (23 < n))
    || others.any (fun k => (s.memberNums k ++ spare k).any fun n => (mine ++ spare l).contains n)
    || (spare l).any (fun n => mine.contains n)

/-- t0 of Table 4.1: STG_ENn high, the pre-bias measurement begins, every channel MID, STATE 1. The trip-bus hold
of a stop ends here (R189, R196), and a joined spare has left with the last stop (R137). DESIGN CHOICE (log 92): i_ll and the
phase-table entry in force are 0 from t0, and no channel is active until PWM begins. -/
def State.startAt (s : State) (l : Loop) : State :=
  let s1 := ((s.loopTrip l false).loopMid l).modLoop l fun k =>
    { k with stgEn := true, measured := false, cmpFail := false, passed := false, ramp := 0, vpb := 0, stopping := false,
             stopLow := false, ill := 0, ipre := 0, ipreFrom := 0, dff := 0, ffLeft := 0, e1 := 0, e2 := 0,
             entry := 0, entryNext := none, isums := [], olSum := 0, olNum := 0, olRun := 0, errRun := 0,
             fullTrig := false, cardBroken := true, fbHigh := none, round := [] }
  let s2 := ((s1.setFld (F.LP_Ln_VNOW_VREF_NOW l) 0).setBit (F.LP_Ln_STATUS_FULLING l) false).setBit
    (F.LP_Ln_STATUS_FF_ACT l) false
  ((s2.setOrder l []).setBit (F.PROT_Ln_STATUS_HICCUP l) false).setLoopSt l 1

/-- R138, R190: an on command. It acts on a rail loop that is off and whose VREF is not 0 (R125), and returns HIC_CNT to 0;
R120 may give a configuration error, and a loop that is on, latched or in a hiccup's off time ignores it (R180, R190,
R191). -/
def State.onCommand (s : State) (l : Loop) : State :=
  if 8 ≤ l.val ∨ (s.loopSt l ≠ 0 ∧ s.loopSt l ≠ 7) ∨ s.fld (F.LP_Ln_VREF_VREF l) = 0 then s
  else if s.configBad l then s.setLoopSt l 7
  else (s.setFld (F.PROT_Ln_STATUS_HIC_CNT l) 0).startAt l

/-- A preset of a start (R138): u, v1 and v2 take VREF_NOW / VIN_NOM x 2^24. VIN_NOM counts 10 mV, 0 acting as 1. DESIGN CHOICE
(log 92): the errors e1 and e2 before the first update are 0. -/
def State.preset (s : State) (l : Loop) (vref : Nat) : State :=
  let v := openDiv ((vref : Int) * 125 * 2 ^ 24) (1000 * (max (s.fld (F.LP_Ln_DUTY_VIN_NOM l)) 1 : Nat))
  s.modLoop l fun k => { k with u := v, v1 := v, v2 := v, e1 := 0, e2 := 0, dLast := v }

/-- The preset of a port loop, whose VIN_NOM is reserved, is not stated: u, v1 and v2 are one free value (log 17). -/
def State.presetPort (s : State) (l : Loop) : State :=
  let (x, s1) := s.fresh 24
  s1.modLoop l fun k => { k with u := x.toNat, v1 := x.toNat, v2 := x.toNat, e1 := 0, e2 := 0, dLast := x.toNat }

/-- PWM begins: the order of R122, the phase count from the table, and the serving channels take PWM. -/
def State.beginPwm (s : State) (l : Loop) : State :=
  (s.setOrder l (s.activeSet l (s.loop l).entry)).activeHalves l

/-- R139: in a start no channel has finished a high interval yet, and each takes MID until its first. -/
def State.beginEmulating (s : State) (l : Loop) : State :=
  (s.serving l).foldl (fun t n => t.modChan n fun c => { c with emulating := true }) s

/-- A start ends in regulation: STATE 3, with a first overload block beginning (R185). -/
def State.enterRegulation (s : State) (l : Loop) : State :=
  (s.modLoop l fun k => { k with olSum := 0, olNum := 0, olRun := 0 }).setLoopSt l 3

/-- R138, R139: the ramp passes V_pb: presets, and the active channels start PWM with diode emulation from
VREF_NOW = V_pb. -/
def State.rampPasses (s : State) (l : Loop) : State :=
  let v := (s.loop l).vpb
  ((((s.setFld (F.LP_Ln_VNOW_VREF_NOW l) v).preset l v).beginPwm l).beginEmulating l).modLoop l fun k => { k with passed := true }

/-- R138: the ramp reaches VREF below V_pb, or a lower VREF is written: no channel has pulsed, and regulation
begins from the duty of the target. -/
def State.startEndsBelow (s : State) (l : Loop) : State :=
  let v := vrefTarget (s.fld (F.LP_Ln_VREF_VREF l))
  ((((s.setFld (F.LP_Ln_VNOW_VREF_NOW l) v).preset l v).beginPwm l).modLoop l fun k =>
    { k with passed := true }).enterRegulation l

/-! ### Stopping (R140) -/

/-- The loop turns off: a joined spare leaves (R137), no channel is active, and an injection that still runs ends, its RESULT as
it stands (DESIGN CHOICE, log 92). -/
def State.loopEnds (s : State) (l : Loop) : State :=
  let s1 := match s.spare l with
    | some c => s.setBit (F.LP_CHn_CARD_JOINED c) false
    | none => s
  let s2 := (s1.setOrder l []).setBit (F.LP_Ln_STATUS_FULLING l) false
  (s2.modLoop l fun k => { k with joinedFor := none, inject := none, inj := 0 }).setBit (F.LP_Ln_BLK_CTRL_RUN l) false

/-- The last channel enters MID; STG_ENn falls 10 us later and STATE then reads 0. -/
def State.stopMid (s : State) (l : Loop) : State :=
  ((s.loopHalf l .mid).modLoop l fun k => { k with stopping := true, stopLow := false, fbHigh := none }).clearSc l

/-- R140: the stop that STOP_MODE gives; before the ramp has passed V_pb, and on the fallback loop, STOP_MODE 0. -/
def State.stopLoop (s : State) (l : Loop) : State :=
  let st := s.loopSt l
  let plain := st == 1 || (st == 2 && !(s.loop l).passed) || st == 5 || s.fld (F.LP_Ln_CTRL_STOP_MODE l) == 0
  let s1 := s.setLoopSt l 4
  if plain then (if st = 5 then s1.loopMid l else s1).stopMid l else s1.modLoop l fun k => { k with stopping := false, stopLow := false }

/-! ### A write of VREF (R125, R138, R141, R170) -/

/-- The loop belongs to a sequencer state 1-63 (R273). -/
def State.sequenced (s : State) (l : Loop) : Bool := decide (l.val < 8) && s.fld (F.SEQ_Sn_CFG_STATE l) != 0

/-- R170: a write of VREF from elsewhere clears TARGET_OWN of the slots that name the loop, one emptied by a conflict among
them, and sets OVERRIDE. -/
def State.overrideTargets (s : State) (l : Loop) (keep : Option (Port × Fin 2)) : State :=
  s.forAll fun (v : Port) t => t.forAll fun (k : Fin 2) u =>
    if u.slotCode v k == l.val && keep != some (v, k) && u.bit ((F.VLK_n_STATUS_TARGET_OWN v).at k) then
      (u.setFld ((F.VLK_n_STATUS_TARGET_OWN v).at k) 0).alertSlot v k 1
    else u

end Sys2Proof.Machine
end

