-- ==== Sys2Proof/Machine/PortOps.lean ====
section
/-!
DEFINITION. The ports: attach states, contracts, hard resets, FETs and starts of the port loops (R208-R219,
R243-R263).
-/

namespace Sys2Proof.Machine

def State.port (s : State) (p : Port) : PortState := s.ports[p]

def State.modPort (s : State) (p : Port) (f : PortState → PortState) : State :=
  { s with ports := s.ports.set p.val (f s.ports[p]) p.isLt }

def State.path (s : State) (p : Port) : PathState := s.paths[p]

def State.modPath (s : State) (p : Port) (f : PathState → PathState) : State :=
  { s with paths := s.paths.set p.val (f s.paths[p]) p.isLt }

/-- TCSTATE (Table 7.2). -/
def State.tc (s : State) (p : Port) : Nat := s.fld (F.PD_Pp_STATUS_TCSTATE p)

def State.setTc (s : State) (p : Port) (v : Nat) : State := s.setFld (F.PD_Pp_STATUS_TCSTATE p) v

/-- Attached as a source, or as a sink (Table 7.2). -/
def State.isSource (s : State) (p : Port) : Bool := s.tc p == 7
def State.isSink (s : State) (p : Port) : Bool := s.tc p == 4
def State.attached (s : State) (p : Port) : Bool :=
  s.tc p == 4 || s.tc p == 7 || s.tc p == 12 || s.tc p == 13 || s.tc p == 14

/-- Raise an event of PD_Pp_EVENT (Table 7.11). -/
def State.pdEvent (s : State) (p : Port) (bit : Nat) : State := s.setFld ((F.PD_Pp_EVENT_EVENTS p).at bit) 1

/-- SOP, SOP' and SOP'' by number (Table 7.11). -/
def sopIdx (k : Sop) : Fin 3 := match k with | .sop => 0 | .prime => 1 | .double => 2

/-- MODE (Table 8.7): 0 off, 1 source, 2 sink, 3 FRS armed, 4 dead-battery pass. -/
def State.mode (s : State) (p : Port) : Nat := s.fld (F.PP_Pp_STATUS_MODE p)

def State.setMode (s : State) (p : Port) (v : Nat) : State := s.setFld (F.PP_Pp_STATUS_MODE p) v

/-! ### FETs and discharge (R257, R258) -/

/-- Tell the FETs to close; DSCHG_Pp never conducts while they are closed. -/
def State.closeFets (s : State) (p : Port) : State :=
  (s.modPath p fun k => { k with closing := true }).setBit (F.PP_Pp_STATUS_DSCHG p) false

/-- Pull the gate to its source; a dead-battery pass through this port ends (R259). -/
def State.openFets (s : State) (p : Port) : State :=
  let s1 := (s.modPath p fun k => { k with closing := false }).setBit (F.PP_Pp_STATUS_FETS p) false
  if s1.fld F.PP_DB_DB_ACTIVE = p.val then (s1.setFld F.PP_DB_DB_ACTIVE 7).setMode p 0 else s1

/-- R258: a command to reach vSafe0V. -/
def State.discharge (s : State) (p : Port) : State :=
  if (s.path p).safe0V then s else s.setBit (F.PP_Pp_STATUS_DSCHG p) true

/-! ### The port loop -/

/-- The port loop stops at once: both legs safe, no mode; a latched loop stays latched (R252, R262). -/
def State.pathOff (s : State) (p : Port) : State :=
  let l := portLoop p
  let s1 := ((s.loopTrip l true).loopMid l).modPath p fun k => { k with uvWait := false, frsHold := false }
  let s2 := (((s1.setMode p (if s1.mode p = 4 then 4 else 0)).setBit (F.PP_Pp_STATUS_CL p) false).setBit
    (F.PP_Pp_STATUS_VREACHED p) false).setFld (F.PP_Pp_STATUS_REGION p) 0
  if s2.loopSt l = 6 then s2 else (s2.modLoop l fun k => { k with stopping := false, fbHigh := none }).setLoopSt l 0

/-- R243: C2 writes TOP and the phases to both legs' shadows, SRC = 0 and EN = 1, and sets LOAD_ALL for them. -/
def State.loadLegs (s : State) (p : Port) : State :=
  let top := s.fld (F.PP_Pp_FSW_TOP p)
  let leg (s : State) (n : Chan) (phase : Nat) : State :=
    ((((s.setShadow (F.PE_CHn_TOP_TOP n) top).setShadow (F.PE_CHn_PHASE_PHASE n) phase).setShadow (F.PE_CHn_CTRL_SRC n)
      0).setShadow (F.PE_CHn_CTRL_EN n) 1).setFld (F.PE_LOAD_SEL_SEL.at n.val) 1
  ((leg (leg s (buckLeg p) 0) (boostLeg p) (s.fld (F.PP_Pp_FSW_BPHASE p))).setBit F.PE_CTRL_LOAD_ALL true)

/-- A port loop starts in a mode with a target and limit: STATE 1, as a rail start into a charged output (R248,
R251, Table 4.1). -/
def State.startPort (s : State) (p : Port) (mode vref ilim : Nat) : State :=
  let l := portLoop p
  let s1 := (((s.loadLegs p).setFld (F.PP_Pp_RUN_VREF p) vref).setFld (F.PP_Pp_RUN_ILIM p) ilim).setMode p mode
  let s2 := (s1.modPath p fun k => { k with vrefNow := 0, uvWait := false }).setBit
    (F.PP_Pp_STATUS_VREACHED p) false
  ((s2.loopTrip l false).modLoop l fun k =>
    { k with measured := false, cmpFail := false, passed := false, ramp := 0, vpb := 0, stopping := false, e1 := 0, e2 := 0,
             order := [buckLeg p, boostLeg p], fbHigh := none }).setLoopSt l 1

/-- R248: the source start, VREF 5.00 V with the FETs open. Before a contract the manual states no I_LIM: a free
value (log 13). -/
def State.sourceStart (s : State) (p : Port) : State :=
  let (i, s1) := s.fresh 10
  s1.startPort p 1 250 i.toNat

/-- The Type-C current of PARTNER_RP in 10 mA: 0.50, 1.50 or 3.00 A (R251). -/
def State.typeCCurrent (s : State) (p : Port) : Nat :=
  match s.fld (F.PD_Pp_STATUS_PARTNER_RP p) with
  | 3 => 300 | 2 => 150 | _ => 50

/-- R251: the sink's VSYS_IN target in 5 mV steps: VSYS_REF less rank x SINK_OFS. -/
def State.sinkTarget (s : State) (p : Port) : Nat :=
  4 * s.fld F.PP_VSYS_VSYS_REF - s.fld (F.PP_Pp_CFG_SNK_RANK p) * s.fld F.PP_VSYS_SINK_OFS

/-- The loop of the port runs: STATE 1-5. -/
def State.portRuns (s : State) (p : Port) : Bool :=
  decide (1 ≤ s.loopSt (portLoop p)) && decide (s.loopSt (portLoop p) ≤ 5)

/-- R252: the sink loop starts once the FETs are closed, a contract is in force and C0 has granted its intake. The
dead-battery pass ends there, with the FETs closed (R260). -/
def State.sinkStart (s : State) (p : Port) : State :=
  if s.bit (F.PP_Pp_STATUS_FETS p) && s.isSink p && decide (0 < (s.path p).intake) && !s.portRuns p
      && s.loopSt (portLoop p) != 6 && !s.houseOp && !s.seedling then
    let ilim := if s.bit (F.PD_Pp_STATUS_CONTRACT p) then s.fld (F.PD_Pp_VI_CURR p) else s.typeCCurrent p
    let s1 := if s.fld F.PP_DB_DB_ACTIVE = p.val then s.setFld F.PP_DB_DB_ACTIVE 7 else s
    s1.startPort p 2 (s1.sinkTarget p / 4) ilim
  else s

/-! ### Contracts -/

/-- The contract ends: PD_Pp_VI, RDO and PDO no longer hold one, and EPR mode and the grants end. -/
def State.endContract (s : State) (p : Port) : State :=
  let s1 := ((((s.setBit (F.PD_Pp_STATUS_CONTRACT p) false).setBit (F.PD_Pp_STATUS_EPR_MODE p) false).setReg
    (A.PD_Pp_VI p) 0).setReg (A.PD_Pp_RDO p) 0).setReg (A.PD_Pp_PDO p) 0
  (s1.setBit (F.PD_Pp_STATUS_FRS_ARMED p) false).modPath p fun k =>
    { k with intakeOn := false, held := 0, want := 0 }

/-- R216: the MessageID of a line advances. -/
def State.nextId (s : State) (p : Port) (line : Sop) : State :=
  s.modPort p fun k => { k with txId := k.txId.set (sopIdx line).val ((k.txId[sopIdx line] + 1) % 8) (sopIdx line).isLt }

/-- R240: a VDM of the owner host has been sent or has failed. -/
def State.vdmResult (s : State) (p : Port) (v : Nat) : State :=
  (s.setBit (F.PD_Pp_VDM_TXCTL_GO p) false).setFld (F.PD_Pp_VDM_TXCTL_RESULT p) v

/-- R215, R218, R226: own transmissions are discarded, but for those to be kept; a VDM of the owner host has failed. One
that was on the line takes its MessageID with it (PRESUMED, log 96). -/
def State.dropTx (s : State) (p : Port) (keep : PdTx → Bool) : State :=
  let k := s.port p
  let gone := (k.tx.toList ++ k.waiting).filter fun x => !keep x
  let s1 := match k.tx with
    | some x => if keep x then s else (s.nextId p x.msg.sop).modPort p fun k =>
        { k with tx := none, retries := 0, timers := k.timers.erase .receive }
    | none => s
  let s2 := s1.modPort p fun k => { k with waiting := k.waiting.filter keep }
  if gone.any fun x => x.host then s2.vdmResult p 2 else s2

/-- The timers that end with an AMS (R220). -/
def amsTimer : PdTimer → Bool
  | .senderResponse | .enterEpr | .psTransition | .psSourceOn => true
  | _ => false

/-- The AMS in flight is over: its flags, its deal and its timers (R218, R220). -/
def State.clearAms (s : State) (p : Port) : State :=
  (s.setBit (F.PD_Pp_STATUS_AMS p) false).modPort p fun k =>
    { k with ams := .none, own := false, step := 0, deal := none, txNg := false, refresh := false, modeAsk := none,
             timers := k.timers.filter fun t => !amsTimer t }

/-- Every AMS of the port is abandoned, with what it was sending or was to send. -/
def State.endAms (s : State) (p : Port) : State :=
  let s1 := ((s.clearAms p).dropTx p fun _ => false).modPort p fun k => { k with vdmDue := false, rxExt := none, txExt := [] }
  if (s.port p).vdmDue then s1.vdmResult p 2 else s1

/-- A Soft Reset or Hard Reset resets the MessageIDs (R216). -/
def State.resetIds (s : State) (p : Port) : State :=
  s.modPort p fun k => { k with txId := Vector.replicate 3 0, rxId := Vector.replicate 3 none }

/-- Leave every mode; a change raises event MODE (R232). -/
def State.leaveModes (s : State) (p : Port) : State :=
  if s.fld (F.PD_Pp_MODES_ENTERED p) = 0 then s else (s.setFld (F.PD_Pp_MODES_ENTERED p) 0).pdEvent p 11

/-- R219, R256: the protocol layer is reset, and the power path begins its hard-reset sequence. -/
def State.hardReset (s : State) (p : Port) (sent : Bool) : State :=
  let s1 := if sent then (s.emit (.hardReset p)).pdEvent p 4 else s.pdEvent p 3
  let s2 := (((s1.satInc (F.PD_Pp_CNT_HARD_RESETS p)).endAms p).endContract p).resetIds p
  let s3 := (s2.leaveModes p).modPort p fun k =>
    { k with span := .hardReset, rx := [], rxPrime := [], timers := [.noResponse, .hardReset], caps := 0,
             eprOffered := false, resets := if sent then k.resets + 1 else k.resets }
  if s3.isSource p then s3.modPath p fun k => { k with hr := .sourceWait }
  else ((s3.pathOff p).openFets p).modPath p fun k => { k with hr := .sinkWait, intake := 0 }

/-- R262: a port stop. Both legs safe on the trip bus, FETs open; a source discharges and sends Hard Reset. -/
def State.portStop (s : State) (p : Port) : State :=
  let s1 := (s.pathOff p).openFets p
  if s1.isSource p then (s1.discharge p).hardReset p true else s1

/-- R226, R227: VCONN off; a port that does not source VCONN knows no cable. -/
def State.vconnOffNow (s : State) (p : Port) : State :=
  (((s.setBit (F.PD_Pp_STATUS_VCONN_SRC p) false).setBit (F.PD_Pp_STATUS_CABLE_5A p) false).setBit
    (F.PD_Pp_STATUS_CABLE_EPR p) false).modPort p fun k =>
    { k with discovers := 0, cableKnown := false, cable50V := false, cableActive := false, cableDouble := false, cableId := [] }

/-- R208: ROLE, TRY, RP, PD_EN and ACC_EN take effect. -/
def State.latchRole (s : State) (p : Port) : State :=
  s.modPort p fun k =>
    { k with role := s.fld (F.PD_Pp_CFG_ROLE p), try_ := s.fld (F.PD_Pp_CFG_TRY p), rp := min (s.fld (F.PD_Pp_CFG_RP p)) 2,
             pdEn := s.bit (F.PD_Pp_CFG_PD_EN p), accEn := s.bit (F.PD_Pp_CFG_ACC_EN p) }

/-- The Unattached state of a role (R210, Table 7.2). -/
def State.unattached (s : State) (p : Port) : State :=
  let s1 := s.latchRole p
  s1.setTc p (match (s1.port p).role with | 3 => 0 | 1 => 5 | _ => 2)

/-- The device keeps dead-battery Rd: no core runs firmware on the ports (R210, R381, Table 2.6). -/
def State.deadBattery (s : State) : Bool := s.houseOp || s.seedling || s.bit F.THM_STATUS_SHUT_HOLD || decide (s.fld F.START_STATUS_PHASE < 6)

/-- R269: the cap that FLOOR gives the Rp of a source port: 15 W for 3.0 A, 7.5 W for 1.5 A, in steps of 0.25 W. -/
def State.rpCap (s : State) (p : Port) : Nat :=
  let f := s.fld (F.PP_Pp_BUD_FLOOR p)
  if 60 ≤ f then 2 else if 30 ≤ f then 1 else 0

/-- R238: C2 is being replaced: the copy has begun and the new firmware is not yet alive. -/
def State.c2Replaced (s : State) : Bool := s.live.handover == some 2 && s.fld (F.LIVE_HOk_STATE 2) != 1

/-- R209, R218, R238, R269: the level of the Rp of a source port, 0 default, 1 1.5 A, 2 3.0 A: SinkTxNG while C2 is
replaced and, in an explicit contract, during an AMS of this port; SinkTxOK in the rest of a contract; else RP, capped. -/
def State.rpLevel (s : State) (p : Port) : Fin 3 :=
  if s.isSource p && s.c2Replaced then 1
  else if s.isSource p && s.bit (F.PD_Pp_STATUS_CONTRACT p) then if (s.port p).txNg then 1 else 2
  else Fin.ofNat 3 (min (min (s.port p).rp 2) (s.rpCap p))

/-- What a port presents on its CC pins by its attach state (Table 7.2, R209-R211): open, Rd or Rp. -/
def State.presented (s : State) (p : Port) : CcTerm :=
  match s.tc p with
  | 0 | 1 => .vacant
  | 2 | 3 | 4 | 9 | 10 | 13 => .rd
  | _ => .rp (s.rpLevel p)

/-- What the partner memory would hold of the partner now (Table 7.9). -/
def State.facts (s : State) (p : Port) : PartnerFacts :=
  let k := s.port p
  { id := k.idHash, quick := k.quick, source := !s.bit (F.PD_Pp_VI_SOURCING p), epr := k.eprOffered, rev := k.rev,
    modes := s.fld (F.PD_Pp_MODES_SEEN p), rdo := s.reg (A.PD_Pp_RDO p), pdo := s.reg (A.PD_Pp_PDO p),
    cable := s.fld (F.PD_Pp_STATUS_CABLE_5A p) + k.cable50V.toNat * 2 + s.fld (F.PD_Pp_STATUS_CABLE_EPR p) * 4
      + k.cableActive.toNat * 8,
    cableId := k.cableId }

/-- R215, R252: a detach. The path is made safe first; AMSs, contract, VCONN and buffers end. A partner memory write
that is pending keeps what it is to store (R237). ORIENT, PWR_ROLE and DATA_ROLE tell of no partner (R44). -/
def State.detachBase (s : State) (p : Port) : State :=
  let source := s.isSource p
  let s0 := if (s.port p).pmemDue && s.bit (F.PD_Pp_CFG_PMEM_EN p) then
      s.modPort p fun k => { k with pmemKept := k.pmemKept ++ [s.facts p] } else s
  let s1 := (s0.pathOff p).openFets p
  let s2 := if source then s1.discharge p else s1
  let s3 := ((((s2.endAms p).endContract p).vconnOffNow p).leaveModes p).resetIds p
  let s4 := s3.modPort p fun k =>
    { k with rx := [], rxPrime := [], timers := [], span := .none, vconnOff := false, partnerVconn := false, rev := 0,
             offered := [], eprOffered := false, refreshDue := false, capsDue := false,
             idHash := [], quick := 0, firstCaps := false, asked := false, askSvids := false, svids := [], entering := false,
             modeNext := 0, modePos := [], resets := 0, caps := 0, pmemDue := false }
  let s5 := ((((s4.setFld (F.PD_Pp_MODES_SEEN p) 0).setFld (F.PD_Pp_STATUS_PARTNER_RP p) 0).setFld
    (F.PD_Pp_STATUS_ORIENT p) 0).setBit (F.PD_Pp_STATUS_PWR_ROLE p) false).setBit (F.PD_Pp_STATUS_DATA_ROLE p) false
  (s5.modPath p fun k => { k with intake := 0, hr := .none }).pdEvent p 1

/-- R263: a port latched off: both legs and the FETs off, the CC pins open as in Disabled, so that an attach ends. -/
def State.latchPort (s : State) (p : Port) : State :=
  (if s.attached p then s.detachBase p else (s.pathOff p).openFets p).setTc p 0

/-- Enter ErrorRecovery: CC open, the path safe (R208, Table 7.2). -/
def State.errorRecovery (s : State) (p : Port) : State :=
  let s1 := if s.attached p then s.detachBase p else s
  (s1.latchRole p).setTc p 1

end Sys2Proof.Machine
end

