-- ==== Sys2Proof/Machine/FaultOps.lean ====
section
/-!
DEFINITION. The fault ladder: severities, reports, handlings, nesting and escalation (R188-R205, R262), and the
on, off and VREF commands that end handlings (R125, R140, R190).
-/

namespace Sys2Proof.Machine

/-! ### Causes (Tables 6.2 and 8.4) -/

/-- Severity of a cause; UV and FALLBACK depend on the loop's settings. -/
def State.severity (s : State) (l : Loop) (cause : Nat) : Nat :=
  match cause with
  | 0x01 | 0x13 => 0
  | 0x0D | 0x19 => 1
  | 0x06 => if s.bit (F.PROT_Ln_UV_UV_ACT l) then 3 else 1
  | 0x07 | 0x09 | 0x0A | 0x0C | 0x16 | 0x1A | 0x1B => 2
  | 0x0E => if s.loopSt l = 5 then 2 else 3
  | _ => 3

/-- The causes whose action is a hiccup (Table 6.2). -/
def isHiccup (cause sev : Nat) : Bool :=
  cause == 0x02 || cause == 0x03 || cause == 0x08 || (cause == 0x06 && sev == 3) || (cause == 0x0E && sev == 3)

/-- The causes whose action is a port stop (Table 8.4; R264). -/
def isPortStop (cause : Nat) : Bool :=
  cause == 0x14 || cause == 0x15 || cause == 0x17 || cause == 0x18 || cause == 0x1C

/-! ### Actions -/

/-- R191: latch off without an over-voltage latch: channels mid-level, STATE 6. STG_ENn falls 10 us later. -/
def State.latchOff (s : State) (l : Loop) (cause : Nat) : State :=
  if s.bit (F.PROT_Ln_STATUS_OV_LATCH l) then s else
  let s1 := match loopPort? l with
    | some p => s.latchPort p
    | none => ((s.loopTrip l true).loopMid l).clearSc l
  ((((s1.modLoop l fun k => { k with stopping := true, stopLow := false, fbHigh := none, fbWait := false }).setBit
    (F.PROT_Ln_STATUS_HICCUP l) false).setBit (F.PROT_Ln_STATUS_LATCHED l) true).setFld
    (F.PROT_Ln_STATUS_LATCH_CAUSE l) cause).setLoopSt l 6

/-- R188: a hiccup stop: every channel on the trip bus, STATE 1, HICCUP. STG_ENn falls 10 us later. -/
def State.hiccupStop (s : State) (l : Loop) (fallback : Bool) : State :=
  let s1 := (((s.loopTrip l true).loopMid l).clearSc l).stopInject l 9
  ((s1.modLoop l fun k => { k with stopping := true, stopLow := false, fbHigh := none, fbWait := fallback }).setBit
    (F.PROT_Ln_STATUS_HICCUP l) true).setLoopSt l 1

/-- R179: the tracking threshold, VREF_NOW + OV_OFS x 5 mV, in 0.25 mV. -/
def State.ovTrack (s : State) (l : Loop) : Rat :=
  (s.vrefNowQ l : Rat) + 20 * (s.fld (F.PROT_Ln_OV_OV_OFS l) : Rat)

/-- R180, R263: the over-voltage latch: channels low, STG_ENn high, STATE 6; a port's FETs and CC open. -/
def State.ovLatch (s : State) (l : Loop) (cause : Nat) : State :=
  let frozen := s.ovTrack l
  let s1 := match loopPort? l with
    | some p => s.latchPort p
    | none => s.clearSc l
  let s2 := s1.modLoop l fun k =>
    { k with stgEn := true, stopping := false, fbHigh := none, fbWait := false,
             ovFrozen := some (k.ovFrozen.getD frozen) }
  ((((s2.setBit (F.PROT_Ln_STATUS_OV_LATCH l) true).setBit (F.PROT_Ln_STATUS_HICCUP l) false).setBit
    (F.PROT_Ln_STATUS_LATCHED l) true).setFld (F.PROT_Ln_STATUS_LATCH_CAUSE l) cause).setLoopSt l 6

/-- The action a handling takes when it starts, where it has not been taken at once (R199, R201). -/
def State.faultAction (s : State) (l : Loop) (q : QFault) : State :=
  if isHiccup q.cause q.sev then
    match loopPort? l with
    | some p => if s.portRuns p then s.portStop p else s
    | none => if s.bit (F.PROT_Ln_STATUS_HICCUP l) then s else s.hiccupStop l (q.cause == 0x0E)
  else if isPortStop q.cause then
    match loopPort? l with
    | some p => s.portStop p
    | none => s
  else
    match q.cause with
    | 0x09 | 0x0A =>
      match q.chan with
      | some n => if s.bit (F.PROT_Ln_RET_RET_EN l) then s.modChan n fun c => { c with retire := true } else s
      | none => s
    | 0x0B | 0x0F | 0x10 => s.latchOff l q.cause
    | 0x16 =>
      match loopPort? l with
      | some p => (s.pathOff p).modPath p fun k => { k with uvWait := true }
      | none => s
    | _ => s

/-- Does the handling end at the instant it starts (Table 6.2, Table 8.4)? -/
def State.endsAtOnce (s : State) (l : Loop) (q : QFault) : Bool :=
  match q.cause with
  | 0x01 | 0x0D | 0x13 | 0x19 => true
  | 0x06 => q.sev == 1
  | 0x09 | 0x0A => !s.bit (F.PROT_Ln_RET_RET_EN l)
  | _ => s.loopSt l == 6 && q.sev == 3

/-- R186: V_s, as last sampled, is below V_t - UV_OFS x 1 mV; a window code of 0 lies below every such limit. -/
def State.belowUv (s : State) (l : Loop) : Bool :=
  decide (((s.loop l).vs : Rat) < 250 * s.vt l - 1000 * (s.fld (F.PROT_Ln_UV_UV_OFS l) : Rat))

/-- R187: V_s, as last sampled, is below V_t - TRACK_ERR x 1 mV. -/
def State.belowTrack (s : State) (l : Loop) : Bool :=
  decide (((s.loop l).vs : Rat) < 250 * s.vt l - 1000 * (s.fld (F.PROT_Ln_TRK_TRACK_ERR l) : Rat))

/-- R203: has a queued fault's condition gone, or its action been taken? A fault queued for a hiccup waits behind another
severity-3 handling: SC_SHUT stands while its trip-bus hold does, the others while the loop is where they are checked. -/
def State.conditionGone (s : State) (l : Loop) (q : QFault) : Bool :=
  match q.cause with
  | 0x02 => s.loopSt l == 0 || s.loopSt l == 6 || (s.loopChans l).all fun n => !(s.chan n).tripHold
  | 0x03 => s.loopSt l != 2
  | 0x06 => s.loopSt l != 3 || !s.belowUv l
  | 0x07 => !s.bit (F.PROT_Ln_STATUS_OL_OVER l)
  | 0x08 => !s.bit (F.PROT_Ln_STATUS_OL_OVER l) || (s.loopSt l != 3 && s.loopSt l != 5)
  | 0x09 | 0x0A => match q.chan with | some n => s.retired n | none => true
  | 0x0C => (s.serving l).all fun n => !s.bit (F.PE_CHn_STATUS_FAULT_HOLD n)
  | 0x0E => if q.sev = 2 then s.loopSt l != 5 else s.loopSt l == 0 || s.loopSt l == 6 || s.loopSt l == 3
  | 0x16 => match loopPort? l with | some p => !(s.path p).uvWait | none => true
  | 0x1A => match loopPort? l with | some p => !(s.path p).dbRetry | none => true
  | _ => s.loopSt l == 0 || s.loopSt l == 6

/-- The best of a queue: highest severity, earliest among equals (R203). -/
def bestOf (q : List QFault) : Option QFault :=
  [3, 2, 1, 0].findSome? fun sev => q.find? fun x => x.sev == sev

/-- The running handling as PROT_Ln_LADDER shows it. -/
def State.setHandling (s : State) (l : Loop) (q : Option QFault) : State :=
  let s1 := s.modLoop l fun k => { k with handling := q }
  match q with
  | some x => (s1.setFld (F.PROT_Ln_LADDER_SEV l) x.sev).setFld (F.PROT_Ln_LADDER_CAUSE l) x.cause
  | none => (s1.setFld (F.PROT_Ln_LADDER_SEV l) 7).setFld (F.PROT_Ln_LADDER_CAUSE l) 0

def State.setQueue (s : State) (l : Loop) (q : List QFault) : State :=
  (s.modLoop l fun k => { k with queue := q }).setFld (F.PROT_Ln_LADDER_NEST l) q.length

/-- R203: the running handling has ended; queued faults are taken, best first, until one keeps its handling.
A queue never holds three (R202), so the fuel covers it. -/
def State.takeQueue : Nat → Loop → State → State
  | 0, l, s => s.setHandling l none
  | fuel + 1, l, s =>
    match bestOf (s.loop l).queue with
    | none => s.setHandling l none
    | some q =>
      let s1 := s.setQueue l ((s.loop l).queue.erase q)
      if s1.conditionGone l q then State.takeQueue fuel l s1
      else
        let s2 := (s1.setHandling l (some q)).faultAction l q
        if s2.endsAtOnce l q then State.takeQueue fuel l s2 else s2

/-- A handling ends (R203). -/
def State.endHandling (s : State) (l : Loop) : State := State.takeQueue 4 l s

/-- End the handling if one of these causes is being handled. -/
def State.endIf (s : State) (l : Loop) (p : QFault → Bool) : State :=
  match (s.loop l).handling with
  | some q => if p q then s.endHandling l else s
  | none => s

/-- Start a handling (R199, R200). -/
def State.startHandling (s : State) (l : Loop) (q : QFault) : State :=
  let s1 := (s.setHandling l (some q)).faultAction l q
  if s1.endsAtOnce l q then s1.endHandling l else s1

/-- The crown cause of a report (R346): G1 for rail loops, G6 for port loops, by severity. -/
def State.raiseFault (s : State) (l : Loop) (sev : Nat) : State :=
  match loopPort? l with
  | none => if 2 ≤ sev then s.raise 1 l.val else s.raise 1 (8 + l.val)
  | some p => if 2 ≤ sev then s.raise 6 p.val else s.raise 6 (4 + p.val)

/-- Set a latched PMBus status bit of a page for every host (R319). -/
def State.latchAll (s : State) (f : Nat → Fld) : State := s.forAll fun (h : HostId) t => t.setFld (f h.val) 1

/-- The latched bits of Table 10.4 that a recorded fault sets. -/
def State.pmbusFault (s : State) (l : Loop) (cause sev : Nat) : State :=
  let vout (b : Nat) (h : Nat) : Fld := (F.HP_PGn_STATh_VOUT l h).at b
  let iout (b : Nat) (h : Nat) : Fld := (F.HP_PGn_STATh_IOUT l h).at b
  let s1 := match cause with
    | 0x04 | 0x05 | 0x11 | 0x12 => s.latchAll (vout 7)
    | 0x06 => s.latchAll (vout (if sev = 3 then 4 else 5))
    | 0x03 => s.latchAll (vout 0)
    | 0x02 | 0x08 | 0x14 | 0x15 => s.latchAll (iout 7)
    | 0x07 => s.latchAll (iout 5)
    | _ => s
  if 2 ≤ sev then s1.latchAll (F.HP_PGn_STATh_MFR l) else s1

/-- R447: a fault of severity 2 or more aborts a re-trim of its loop. -/
def State.hitRetrim (s : State) (l : Loop) : State :=
  { s with live := { s.live with retrim := s.live.retrim.map fun r => if r.loop = l then { r with hit := true } else r } }

/-- R198, R205, R346: the report of a fault, its crown cause, and what any severity of 2 or more does. -/
def State.recordFault (s : State) (l : Loop) (cause sev : Nat) (chan : Option Chan) (detail : Word) : State :=
  let s1 := ((s.report l.val cause sev (chan.map Fin.val) detail).raiseFault l sev).pmbusFault l cause sev
  if 2 ≤ sev then ((s1.stopInject l 9).alertLoop l 2).hitRetrim l else s1

/-- R200: a handling is abandoned: a retirement that it has marked does not take place. One on command stands (R444). -/
def State.abandonHandling (s : State) (l : Loop) : State :=
  match (s.loop l).handling with
  | some ⟨c, _, some n⟩ =>
    if (c = 0x09 ∨ c = 0x0A) ∧ s.live.retire.map Fin.val ≠ some n.val then s.modChan n fun k => { k with retire := false } else s
  | _ => s

/-- R202: the third nested fault. The loop latches off, queued retirements are marked, queue and NEST clear, and
ESCALATED's own handling runs. -/
def State.escalate (s : State) (l : Loop) : State :=
  let s1 := ((s.recordFault l 0x10 3 none 0).satInc (F.PROT_Ln_CNT_ESC_CNT l)).abandonHandling l
  let s2 := (s1.loop l).queue.foldl (fun t q =>
    if q.cause = 0x09 ∨ q.cause = 0x0A then
      match q.chan with
      | some n => t.setBit (F.LP_CHn_CARD_RETIRED n) true
      | none => t
    else t) s1
  (s2.setQueue l []).startHandling l ⟨0x10, 3, none⟩

/-- R199, R200, R202: how a recorded fault enters the ladder. A recurrence is neither queued nor nested; a fault whose action is
a hiccup, recurring in its own restart, stops the loop again (R188, Table 6.1). -/
def State.ladder (s : State) (l : Loop) (q : QFault) : State :=
  match (s.loop l).handling with
  | none => (s.setFld (F.PROT_Ln_LADDER_RECUR l) 0).startHandling l q
  | some h =>
    if h.cause = q.cause then
      let s1 := s.satInc (F.PROT_Ln_LADDER_RECUR l)
      if isHiccup q.cause q.sev && isHiccup h.cause h.sev && !s.bit (F.PROT_Ln_STATUS_HICCUP l) then s1.faultAction l q else s1
    else if (s.loop l).queue.any (fun x => x.cause == q.cause) then s.satInc (F.PROT_Ln_LADDER_RECUR l)
    else if h.sev < q.sev then (s.abandonHandling l).startHandling l q
    else
      let s1 := s.setQueue l ((s.loop l).queue ++ [q])
      if (s1.loop l).queue.length < 3 then s1 else s1.escalate l

/-- R197: a handling that ends where STATE first reads 6 ends there. -/
def State.settleLadder (s : State) (l : Loop) : State :=
  match (s.loop l).handling with
  | some q => if s.loopSt l == 6 && q.sev == 3 then s.endHandling l else s
  | none => s

/-- R349: a reaction of Table 11.2 is still under way on a loop: a retirement awaits its commit, or a FALLBACK with
the action of a hiccup awaits its restart (log 36). -/
def State.reacting (s : State) (l : Loop) : Bool :=
  (s.loopChans l).any (fun n => (s.chan n).retire) || (s.loop l).fbWait

/-- R197, R201: what acts at once whatever handling runs: the trip-bus hold of SC_SHUT, an over-voltage latch, and the hiccup of
FALLBACK with FALLBACK_EN = 0, or a port stop in its place (R146, R264). -/
def State.actAtOnce (s : State) (l : Loop) (cause sev : Nat) : State :=
  match cause with
  | 0x02 => s.loopTrip l true
  | 0x04 | 0x05 | 0x11 | 0x12 => s.ovLatch l cause
  | 0x0E => if sev = 3 then s.faultAction l ⟨0x0E, 3, none⟩ else s
  | _ => s

/-- R189: HICCUP_END takes the place of a hiccup fault: it ends any running handling and starts its own. -/
def State.hiccupEnd (s : State) (l : Loop) (cause : Nat) : State :=
  let s2 := if cause = 0x02 then s.loopTrip l true else s
  let s3 := if (s2.loop l).handling.isNone then s2.setFld (F.PROT_Ln_LADDER_RECUR l) 0 else s2.abandonHandling l
  (s3.recordFault l 0x0F 3 none 0).startHandling l ⟨0x0F, 3, none⟩

/-- R198: one detection of one cause on a loop, of a given severity. A hiccup fault with HIC_CNT at HICCUP_MAX is reported,
and HICCUP_END takes its place (R189). -/
def State.faultSev (s : State) (l : Loop) (cause sev : Nat) (chan : Option Chan) (detail : Word) : State :=
  let s0 := if (cause = 0x09 ∨ cause = 0x0A ∨ cause = 0x0E) ∧ s.reacting l then s.raise 13 11 else s
  let s1 := s0.recordFault l cause sev chan detail
  if isHiccup cause sev ∧ l.val < 8 ∧ s.fld (F.PROT_Ln_HIC_HICCUP_MAX l) ≤ s.fld (F.PROT_Ln_STATUS_HIC_CNT l) then
    s1.hiccupEnd l cause
  else ((s1.actAtOnce l cause sev).ladder l ⟨cause, sev, chan⟩).settleLadder l

/-- R198: one detection of one cause on a loop. -/
def State.fault (s : State) (l : Loop) (cause : Nat) (chan : Option Chan := none) (detail : Word := 0) : State :=
  s.faultSev l cause (s.severity l cause) chan detail

/-- R146, R264: hand a loop over to its fallback loop, or take the action of Table 6.2 or a port stop. A loop whose channels
have gone MID or LOW in a stop drives nothing, and its stop goes on. -/
def State.handover (s : State) (l : Loop) : State :=
  let regulating := s.loopSt l == 2 || s.loopSt l == 3
    || (s.loopSt l == 4 && !(s.loop l).stopping && !(s.loop l).stopLow)
  if !regulating then s else
  let able := match loopPort? l with
    | none => s.bit (F.LP_Ln_CTRL_FALLBACK_EN l)
    | some p => s.bit (F.PP_Pp_CFG_FB_EN p) && s.fld (F.PP_Pp_STATUS_REGION p) == 0
                  && (s.mode p == 1 || s.mode p == 2 || s.mode p == 3)
  if able then
    let s1 := s.modLoop l fun k =>
      { k with round := match loopPort? l with
                 | none => k.order
                 | some p => [if s.mode p = 1 then buckLeg p else boostLeg p],
               fbHigh := none, ovFrozen := some (s.ovTrack l), dff := 0, ffLeft := 0, ipre := 0, olSum := 0, olNum := 0,
               olRun := 0 }
    ((((s1.setBit (F.LP_Ln_STATUS_FULLING l) false).setBit (F.LP_Ln_STATUS_FF_ACT l) false).setBit
      (F.PROT_Ln_STATUS_FOLDING l) false).setLoopSt l 5).fault l 0x0E
  else s.fault l 0x0E

/-- R149, R189, R203: the handlings that reaching STATE 3 ends. -/
def State.reachRegulation (s : State) (l : Loop) : State :=
  (s.enterRegulation l).endIf l fun q => isHiccup q.cause q.sev || q.cause == 0x0E

/-- R190: an off command during a hiccup's off time ends the hiccup. -/
def State.endHiccup (s : State) (l : Loop) : State :=
  (((((s.setBit (F.PROT_Ln_STATUS_HICCUP l) false).setFld (F.PROT_Ln_STATUS_HIC_CNT l) 0).loopEnds l).modLoop l fun k =>
    { k with fbWait := false }).setLoopSt l 0).endIf l fun q => isHiccup q.cause q.sev || q.cause == 0x0E

/-- R140, R190: an off command to a rail loop. -/
def State.offCommand (s : State) (l : Loop) : State :=
  let st := s.loopSt l
  if s.bit (F.PROT_Ln_STATUS_HICCUP l) then s.endHiccup l
  else if st = 1 ∨ st = 2 ∨ st = 3 ∨ st = 5 then s.stopLoop l
  else s

/-- R125, R138, R141, R144, R170: VREF takes a code. 0 turns off a loop that belongs to no sequencer state, and is
discarded on one that does. `by_` is the link slot of an accepted SET_TARGET. -/
def State.writeVref (s : State) (l : Loop) (code : Nat) (by_ : Option (Port × Fin 2)) : State :=
  if code = 0 ∧ s.sequenced l then s else
  let s1 := ((s.setFld (F.LP_Ln_VREF_VREF l) code).setBit (F.LP_Ln_STATUS_SETTLED l) false).stopInject l 4
  let s2 := s1.overrideTargets l by_
  if code = 0 then s2.offCommand l
  else if s2.loopSt l = 2 ∧ vrefTarget code < (s2.loop l).ramp then
    if (s2.loop l).passed then s2.reachRegulation l
    else (s2.startEndsBelow l).endIf l fun q => isHiccup q.cause q.sev
  else s2

/-- STATE 0 at the end of a stop, and the handlings that end with the loop do. -/
def State.loopOffDone (s : State) (l : Loop) : State :=
  (((s.loopEnds l).modLoop l fun k => { k with stopping := false, stopLow := false, stgEn := false }).setLoopSt l 0).endIf l
    fun q => q.cause == 0x0E

/-- A detach: R215, and the handlings that a detach ends (Table 8.4). -/
def State.detach (s : State) (p : Port) : State :=
  (s.detachBase p).endIf (portLoop p) fun q =>
    isPortStop q.cause || q.cause == 0x16 || q.cause == 0x1B || q.cause == 0x0E

end Sys2Proof.Machine
end

