-- ==== Sys2Proof/Machine/Engine.lean ====
section
/-!
DEFINITION. The pulse engine (chapter 03): turning points, commits, triggers, calibration and safe states.
-/

namespace Sys2Proof.Machine

/-! ### Domains and the PLL (R36, Table 1.5) -/

/-- Any channel of a range is enabled. -/
def State.anyEn (s : State) (p : Chan → Bool) : Bool := (upto 32).any fun n => p n && s.chanEn n

/-- Any loop is enabled. -/
def State.anyLoop (s : State) : Bool := (upto 12).any s.loopOn

/-- The PLL runs while any channel is enabled, a LOAD_ALL is pending or PLL_FORCE is 1, outside house operation
(Table 1.5). -/
def State.pllWanted (s : State) : Bool :=
  !s.houseOp && s.bit F.CLK_STATUS_FRC_RUN
    && (s.anyEn (fun _ => true) || s.bit F.PE_CTRL_LOAD_ALL || s.bit F.CLK_CFG_PLL_FORCE)

/-- R368: the master timebase stops: a frame-locked conversion restarts with a timed window. -/
def State.unlockConv (s : State) : State :=
  let timed (r : TcvRun) : TcvRun :=
    if r.window.locked then
      { r with window := .timed (min (max (s.fld (F.TCV_INn_CFG_WIN r.input.val)) 10) 1000), fb := true }
    else r
  { s with tcv := { s.tcv with run := s.tcv.run.map timed } }

/-- The PLL has lost its reason to run: lock and the core clock fall, and the timebase stops (R35, R87). -/
def State.pllOff (s : State) : State :=
  ((((s.unlockConv).setBit F.CLK_STATUS_PLL_LOCK false).setFld F.CLK_STATUS_CORE_CLK 0).setBit F.PE_STATUS_SYNC_LOCKED
    false).modEngine fun e => { e with timebase := false, firstValley := false, valleyPhase := none }

/-- R87: the timebase starts at the later of D9 coming on and PLL_LOCK. -/
def State.startTimebase (s : State) : State :=
  if s.domOn 9 && s.bit F.CLK_STATUS_PLL_LOCK && !s.engine.timebase then
    s.modEngine fun e => { e with timebase := true, firstValley := true, shadowLog := [] }
  else s

/-- Stop the PLL where nothing keeps it running. -/
def State.settlePll (s : State) : State := if s.pllWanted then s else s.pllOff

/-! ### Commits (R103) -/

/-- A shadow register as it stood before the newest `late` shadow writes. -/
def State.shadowBefore (s : State) (late : Nat) (a : Nat) : Word :=
  match ((s.engine.shadowLog.take late).filter fun x => x.1 == a).getLast? with
  | some x => x.2
  | none => s.reg a

/-- The SH registers of a channel (R103). -/
def shadowRegs (n : Chan) : List Nat :=
  [A.PE_CHn_CTRL n, A.PE_CHn_TOP n, A.PE_CHn_PHASE n, A.PE_CHn_CMP_DN n, A.PE_CHn_CMP_UP n, A.PE_CHn_TRIM n,
   A.PE_CHn_MIN n, A.PE_CHn_DT n, A.PE_CHn_TRGk n 0, A.PE_CHn_TRGk n 1, A.PE_CHn_TRGk n 2, A.PE_CHn_TRGk n 3]

/-- The PLL takes SYNC_IN as its reference (R34). -/
def State.onSync (s : State) : Bool := s.bit F.CLK_STATUS_PLL_REF

/-- R109: SYNC_LOCKED reads 1 while the master valley falls where PHASE places it. -/
def State.settleSync (s : State) : State :=
  s.setBit F.PE_STATUS_SYNC_LOCKED (s.onSync && s.engine.valleyPhase == some (s.fld F.PE_SYNC_CFG_PHASE))

/-- R34, R108, R109: the reference the PLL takes: SYNC_IN where it is enabled, seen and gives 784-816 MHz. Where its valleys
fall when it first locks to SYNC_IN is not stated: a free value (log 86). -/
def State.chooseRef (s : State) : State :=
  let f := s.power.syncHz * 2 * s.top 0
  if s.bit F.CLK_CFG_SYNC_EN && s.bit F.CLK_STATUS_SYNC_SEEN && decide (784000000 ≤ f) && decide (f ≤ 816000000) then
    let s1 := s.setBit F.CLK_STATUS_PLL_REF true
    if s.bit F.CLK_STATUS_PLL_LOCK && s.engine.valleyPhase.isNone then
      let (x, s2) := s1.fresh 10
      (s2.modEngine fun e => { e with valleyPhase := some x.toNat }).settleSync
    else s1.settleSync
  else
    let s1 := if s.bit F.CLK_CFG_SYNC_EN && s.bit F.CLK_STATUS_SYNC_SEEN then s.setBit F.PE_STATUS_SYNC_BAD true else s
    ((s1.setBit F.CLK_STATUS_PLL_REF false).modEngine fun e => { e with valleyPhase := none }).settleSync

/-- R109: each master frame moves the valley by at most one step toward PHASE; the direction is the code's (log 86). -/
def State.moveValley (s : State) : State :=
  (s.modEngine fun e => { e with valleyPhase := e.valleyPhase.map fun v => toward v (s.fld F.PE_SYNC_CFG_PHASE) }).settleSync

/-- R115: a channel that FAULTn holds. -/
def State.faultHold (s : State) (n : Chan) : State :=
  (s.setBit (F.PE_CHn_STATUS_FAULT_HOLD n) true).setFld (F.PE_FAULT_STATUS_HELD.at n.val) 1

/-- Every loop with a held member channel raises FAULTN (R196). -/
def State.faultnLoops (s : State) (held : List Chan) : State :=
  s.forAll fun (l : Loop) t =>
    match held.find? fun n => (t.serving l).contains n with
    | some n => t.fault l 0x0C (some n)
    | none => t

/-- The commit of LOAD_ALL for one channel (R103, R104, R110, R112, R115, R117). A channel held from its commit is marked,
and raises no FAULTN of its own (log 87). -/
def State.commitChan (s : State) (late : Nat) (n : Chan) : State :=
  let wasEn := s.chanEn n
  let refused := n.val == 0 && s.onSync
    && getBits (s.shadowBefore late (A.PE_CHn_TOP n)) 0 12 != s.afld (F.PE_CHn_TOP_TOP n)
  let regs := (shadowRegs n).filter fun a => !(refused && a == A.PE_CHn_TOP n)
  let s1 := regs.foldl (fun t a => t.setAct a (s.shadowBefore late a)) s
  let s2 := if refused then s1.setBit F.PE_STATUS_TOP0_REFUSED true else s1
  let ready := s2.bit F.PE_CTRL_ENGINE_EN && !s2.bit F.PE_STATUS_FROZEN
  let en := s2.chanEn n
  let s3 := s2.modChan n fun c =>
    let k := { c with needLoad := c.needLoad && !ready, pllLoad := c.pllLoad && s2.bit F.PE_STATUS_SAFE_PLL }
    if wasEn && en then k
    else { k with begun := false, waitCal := en && !s2.chanCal n, placed := none, keep := none, cmpUp := 0, cmpDn := 0,
                  next := if en then k.next else none }
  if s3.engine.faultnLow && s3.chanEn n && s3.bit (F.PE_FAULT_MASK_MASK.at n.val) then s3.faultHold n else s3

/-- R89, R103: the commit, for the channels of PE_LOAD_SEL as it stands; every channel takes its TOP. -/
def State.commitAll (s : State) (late : Nat) : State :=
  let sel := (upto 32).filter fun n => s.bit (F.PE_LOAD_SEL_SEL.at n.val)
  let s1 := sel.foldl (fun t n => t.commitChan late n) s
  (s1.forAll fun (n : Chan) t => t.takeTop n).setBit F.PE_CTRL_LOAD_ALL false

/-- A channel's position at a master valley, in taps from its valley: as its phase gives it where its TOP keeps a fixed
relation to CH0's (R88), else as at its last turning point (UNVERIFIED, log 88). -/
def State.posNow (s : State) (n : Chan) : Nat :=
  match (s.chan n).placed with
  | some (t, p) => 80 * (if s.top 0 % t = 0 then (2 * t - p % (2 * t)) % (2 * t) else s.fld (F.PE_CHn_POS_POS n))
  | none => 0

/-- R104: what a reload to position `new` keeps of the interval that it meets at position `x`: a high interval until MIN_ON
has passed since its start, a rail's low interval until MIN_OFF has (DEDUCED, log 88). -/
def State.reloadKeep (s : State) (n : Chan) (x new : Nat) : Option Keep :=
  let c := s.chan n
  let t := s.topTaps n
  if !s.pulseActs n || c.halfNow != .pwm || c.scHold then none
  else if s.levelAt n x then
    let since := if x < t then x + c.cmpDn else x + c.cmpDn - 2 * t
    if since < s.minOn n then some ⟨true, new, s.minOn n - since⟩ else none
  else if isRail n && decide (x - c.cmpUp < s.minOff n) then some ⟨false, new, s.minOff n - (x - c.cmpUp)⟩
  else none

/-- R104: a reload repositions a channel so that its next valley falls PHASE counts after this master valley. `was` is the
state before the changes of the master valley. -/
def State.reload (s was : State) (n : Chan) : State :=
  let t := 2 * s.top n
  let pos := (t - s.phase n % t) % t
  let s1 := s.modChan n fun c =>
    { c with placed := some (s.top n, s.phase n), keep := was.reloadKeep n (was.posNow n) (80 * pos) }
  (s1.setFld (F.PE_CHn_POS_POS n) pos).setBit (F.PE_CHn_POS_DOWN n) (decide (s.top n ≤ pos))

/-- R87, R88, R104, R112: at a master valley a running channel whose TOP or phase is not that of its last reload reloads; CH0
is at p = 0. -/
def State.replace (s was : State) (n : Chan) : State :=
  if !s.chanEn n || (s.chan n).waitCal then s
  else if (s.chan n).placed ≠ some (s.top n, s.phase n) then s.reload was n
  else if n.val = 0 then (s.setFld (F.PE_CHn_POS_POS n) 0).setBit (F.PE_CHn_POS_DOWN n) false
  else s

/-! ### Retirement and joining (R137, R195) -/

/-- R137: the spare joins for member n: in its slot, in its half state, with trim 0. -/
def State.joinSpare (s : State) (l : Loop) (n c : Chan) : State :=
  let s1 := (((s.setBit (F.LP_CHn_CARD_JOINED c) true).setFld (F.LP_CHn_CARD_TRIM c) 0).modLoop l fun k =>
    { k with joinedFor := some n, cardBroken := true }).modChan c fun k => { k with half := (s.chan n).half, next := none }
  (s1.setOrder l ((s.loop l).order.map fun m => if m == n then c else m)).raise 3 (8 + l.val)

/-- The spare that would join if member n were retired (R137). -/
def State.spareFor (s : State) (l : Loop) (n : Chan) : Option Chan :=
  if s.bit (F.LP_Ln_CTRL_SPARE_EN l) then (s.spare l).filter fun c => !s.joined c && !s.retired c && c != n else none

/-- A marked channel is retired at a master valley; the spare joins in its slot (R137, R195). -/
def State.retireChan (s : State) (l : Loop) (n : Chan) : State :=
  let s0 := s.modChan n fun c => { c with retire := false }
  let spare := if (s.members l).contains n then s.spareFor l n else none
  if ((s.available l).filter (· != n)).isEmpty && spare.isNone then s0.fault l 0x0B (some n)
  else
    let s1 := (s0.setBit (F.LP_CHn_CARD_RETIRED n) true).raise 3 (8 + l.val)
    let s2 := match spare with
      | some c => s1.joinSpare l n c
      | none => if s.spare l = some n then s1.modLoop l fun k => { k with joinedFor := none } else s1
    (s2.modChan n fun c => { c with half := .mid, next := none }).endIf l fun q =>
      (q.cause == 0x09 || q.cause == 0x0A) && q.chan == some n

/-- Does the loop regulate with its digital path: STATE 2 with the ramp past V_pb, 3, or 4 while ramping down? -/
def State.digital (s : State) (l : Loop) : Bool :=
  (s.loopSt l == 2 && (s.loop l).passed) || s.loopSt l == 3
    || (s.loopSt l == 4 && !(s.loop l).stopping && !(s.loop l).stopLow)

/-- Bring the active set to what R121 gives, with the order of R122; inactive channels take MID. -/
def State.updateActive (s : State) (l : Loop) : State :=
  if !s.digital l then s else
  let new := s.activeSet l (s.loop l).entry
  let old := (s.loop l).order
  let order := reorder old new none
  if order = old then s else
  let s1 := (s.setOrder l order).modLoop l fun k => { k with cardBroken := true }
  let s2 := (s.serving l).foldl (fun t n => t.modChan n fun c =>
    if new.contains n then { c with half := .pwm } else { c with half := .mid, next := none }) s1
  if order.length = old.length then s2 else s2.stopInject l 6

/-- R107: a rotation of one loop's slots. -/
def State.rotate (s : State) (l : Loop) : State :=
  let o := (s.loop l).order
  if o.length ≤ 1 then s else
  s.setOrder l (if s.bit (F.PE_ROTk_DIR l) then o.drop 1 ++ o.take 1 else o.drop (o.length - 1) ++ o.take (o.length - 1))

/-- R135, R136, R185: what a loop takes at each master valley: i_sum, the phase table, fulling and overload. -/
def State.loopSample (s : State) (l : Loop) : State :=
  if !(s.digital l || s.loopSt l == 5) then s else
  let i := s.isum l
  let rise := match (s.loop l).isums with | p :: _ => i - p | [] => 0
  let fullDi := s.fld (F.LP_Ln_FULL_FULL_DI l)
  let s1 := s.modLoop l fun k =>
    { k with isums := (i :: k.isums).take (2 ^ s.fld (F.LP_Ln_PHCFG_PH_AVG l)), olSum := k.olSum + i, olNum := k.olNum + 1 }
  let e := s1.tableEntry l (s1.loop l).entry
  let s2 := s1.modLoop l fun k =>
    { k with entryNext := if e = k.entry then none else some e,
             fullTrig := k.fullTrig || (s.bit (F.LP_Ln_CTRL_FULL_EN l) && fullDi != 0 && decide ((16 * fullDi : Int) ≤ rise)) }
  let s3 := s2.extreme l.val (openRat (s2.iph l)) true
  if (s.loop l).inject.isSome ∧ ((16 * s.fld (F.LP_Ln_BLK_CFG_IMAX l) : Nat) : Rat) < s3.iph l then s3.stopInject l 7
  else s3

/-- R147: while FB_TRACK is 1 and the digital loop runs, FB_DAC follows V_t, rounded down to its step. -/
def State.trackFb (s : State) (l : Loop) : State :=
  if s.digital l && s.bit (F.LP_Ln_FB_FB_TRACK l) then
    s.setFld (F.LP_Ln_FB_FB_DAC l) (clamp ((s.vt l) / 10).floor 0 1023).toNat
  else s

/-- The channels that serve a loop reload in their slots (R104, R149). -/
def State.reloadLoop (s : State) (l : Loop) : State :=
  (s.serving l).foldl (fun t n => if t.chanEn n then t.reload s n else t) s

/-- R149: the return to digital control, from the output as measured then: a rail's in its start range (log 15). -/
def State.fbReturn (s : State) (l : Loop) : State :=
  let ok := s.bit (F.LP_Ln_CTRL_FB_RET l) && s.loopSt l == 5 && s.bit F.PE_CTRL_ENGINE_EN
    && s.bit F.CLK_STATUS_PLL_LOCK && s.bit F.IRQ_CONT_STATUS_CHECKER_OK
    && (s.serving l).all fun n => s.chanCal n
  if !ok then s else
  let s1 := (s.setBit (F.LP_Ln_CTRL_FB_RET l) false).modLoop l fun k => { k with fbHigh := none, ovFrozen := none }
  let s2 := match loopPort? l with
    | none =>
      let v := (clamp ((s.loop l).vs / 1250) 0 2046).toNat
      (s1.setFld (F.LP_Ln_VNOW_VREF_NOW l) v).preset l v
    | some p => (s1.modPath p fun k => { k with vrefNow := ((s.loop l).vs / 5000).toNat }).presetPort l
  ((s2.activeHalves l).reloadLoop l).reachRegulation l

/-- R133: the bank swap. -/
def State.bankSwap (s : State) (l : Loop) : State :=
  if s.bit (F.LP_Ln_CTRL_SWAP l) && s.loopSt l != 5 then
    (s.setBit (F.LP_Ln_STATUS_BANK l) (!s.bit (F.LP_Ln_STATUS_BANK l))).setBit (F.LP_Ln_CTRL_SWAP l) false
  else s

/-- R136: fulling starts. -/
def State.startFulling (s : State) (l : Loop) : State :=
  if (s.loop l).fullTrig then
    ((s.modLoop l fun k => { k with fullTrig := false }).setBit (F.LP_Ln_STATUS_FULLING l) true).stopInject l 5
  else s

/-- R107: count the master frames of a loop's rotation period, and rotate when it has passed. PE_ROTk is no SH field, so no
commit makes PERIOD nonzero: DESIGN CHOICE (log 89), the first master valley after the write counts as the end of the first
frame. -/
def State.rotationDue (s : State) (l : Loop) : State :=
  let per := s.fld (F.PE_ROTk_PERIOD l)
  if per = 0 then s.modLoop l fun k => { k with rotFrames := 0 }
  else if (s.loop l).rotFrames + 1 < per then s.modLoop l fun k => { k with rotFrames := k.rotFrames + 1 }
  else (s.modLoop l fun k => { k with rotFrames := 0 }).rotate l

/-- R143: an injection begins. -/
def State.beginInject (s : State) (l : Loop) : State :=
  match (s.loop l).inject with
  | some i => if i.running then s else
    ((s.modLoop l fun k =>
      { k with inject := some { i with running := true }, blkSet := s.fld (F.LP_Ln_STATUS_CSET l) }).setBit (F.LP_Ln_BLK_CTRL_RUN l)
      true).setFld F.LP_BLK_USER_LOOP l.val
  | none => s

/-- Retirements of every loop (R106, first line). -/
def State.retireAll (s : State) : State :=
  s.forAll fun (l : Loop) t => (t.loopChans l).foldl (fun u n => if (u.chan n).retire then u.retireChan l n else u) t

/-- R115: FAULTn holds end where the status bit is clear and FAULTn is high; then FAULTN handlings do. -/
def State.releaseFaultn (s : State) (high : Bool) : State :=
  let s1 := s.modEngine fun e => { e with faultnLow := e.faultnLow && !high }
  if s1.engine.faultnLow then s1 else
  let s2 := s1.forAll fun (n : Chan) t =>
    if t.bit (F.PE_CHn_STATUS_FAULT_HOLD n) && !t.bit (F.PE_FAULT_STATUS_HELD.at n.val) then
      t.setBit (F.PE_CHn_STATUS_FAULT_HOLD n) false
    else t
  s2.forAll fun (l : Loop) t =>
    if (t.serving l).all fun n => !t.bit (F.PE_CHn_STATUS_FAULT_HOLD n) then
      t.endIf l fun q => q.cause == 0x0C
    else t

/-- R112: the code of one half moves one step toward its new code, and GO reads 0 when it is reached; that a step of the code
moves no edge by more than a tap is the model's reading (DESIGN CHOICE, log 90). -/
def State.applyCalHalf (s : State) (code go : Fld) (i : Fin 2) : State :=
  match s.engine.calNext[i] with
  | some c =>
    let s1 := s.setFld code (toward (s.fld code) c.toNat)
    if s1.fld code = c.toNat then
      (s1.setBit go false).modEngine fun e => { e with calNext := e.calNext.set i.val none i.isLt }
    else s1
  | none => s

/-- R112: at a master valley the delay lines move toward their new codes. -/
def State.applyCal (s : State) : State :=
  (s.applyCalHalf F.PE_CAL_CODE_CODE_W F.PE_CAL_CTRL_GO_W 0).applyCalHalf F.PE_CAL_CODE_CODE_E F.PE_CAL_CTRL_GO_E 1

/-- The order of R106 up to the bank swap: retirements and joins, sheds and additions, rotations, the LOAD_ALL commit, the
swaps; then the channels of a loop whose slots moved take its TOP (R89). -/
def State.valleyChanges (s : State) (late : Nat) (due : Bool) : State :=
  let s1 := s.retireAll
  let s2 := s1.forAll fun (l : Loop) t =>
    if l.val < 8 then ((t.startFulling l).modLoop l fun k =>
      { k with entry := k.entryNext.getD k.entry, entryNext := none }).updateActive l else t
  let s3 := s2.forAll fun (l : Loop) t => if l.val < 8 then t.rotationDue l else t
  let s4 := if due then s3.commitAll late else s3
  let s5 := s4.forAll fun (l : Loop) t => t.bankSwap l
  s5.forAll fun (l : Loop) t =>
    if (t.loop l).moved then ((t.serving l).foldl State.takeTop t).modLoop l fun k => { k with moved := false } else t

/-- R106: the changes of one master valley, in their order; then the returns, samples and releases that fall on it. -/
def State.masterValley (s : State) (late : Nat) (loadLate faultnHigh : Bool) : State :=
  let s0 := s.releaseFaultn faultnHigh
  let s1 := s0.valleyChanges late (s0.bit F.PE_CTRL_LOAD_ALL && !loadLate && !s.engine.firstValley)
  let s2 := s1.forAll fun (n : Chan) t =>
    if (t.chan n).waitCal && t.chanCal n then t.modChan n fun c => { c with waitCal := false } else t
  let s3 := s2.forAll fun (n : Chan) t => t.replace s n
  let s4 := if s3.top 0 ≠ s.top 0 then s3.chooseRef else s3.moveValley
  let s5 := s4.applyCal.forAll fun (l : Loop) t => (((t.fbReturn l).loopSample l).trackFb l).beginInject l
  (s5.modEngine fun e => { e with firstValley := false, shadowLog := [] }).settlePll


/-! ### Turning points (R91-R99, R130, R131) -/

/-- R131: corrections are subtracted from a compare within 0 to TOP x 80, oldest first, each as far as that range allows. -/
def applyCorrections (cmp : Int) (top : Nat) : List Correction → Int × List Correction
  | [] => (clamp cmp 0 top, [])
  | k :: ks =>
    let base := clamp cmp 0 top
    let x := clamp (base - k.taps) 0 top
    let left := k.taps - (base - x)
    let r := applyCorrections x top ks
    (r.1, if left = 0 then r.2 else { k with taps := left } :: r.2)

/-- R131: the compare and half state a loop delivers to a channel, from its duty d. -/
def State.deliver (s : State) (n : Chan) (cmp d : Int) : State :=
  let trim := if isRail n ∧ 0 < cmp then s.sfld (F.LP_CHn_CARD_TRIM n) else 0
  let r := applyCorrections (cmp + trim) (s.topTaps n) (s.chan n).corrections
  s.modChan n fun c => { c with next := some (r.1, .pwm), duty := d, corrections := r.2 }

/-- R130: the compare of a duty. -/
def dutyCmp (d : Int) (topTaps : Nat) : Int := roundDiv (d * topTaps) (2 ^ 24)

/-- R244: the fractions of a port loop's duty, in 2^-24: input-leg high side, output-leg low side. -/
def State.portFractions (s : State) (p : Port) (d : Int) : Int × Int :=
  let a := 2 * d
  let dbk : Int := (s.fld (F.PP_Pp_DUTY_DBK p) * 256 : Nat)
  let dbst : Int := (s.fld (F.PP_Pp_DUTY_DBST p) * 256 : Nat)
  (min a dbk, min (max (a - dbk) 0) dbst)

/-- The port sinks: sink mode, or armed for a fast role swap (R244, R254). -/
def State.sinks (s : State) (p : Port) : Bool := s.mode p == 2 || s.mode p == 3

/-- The input leg of a port: the VSYS-side leg but in sink mode (R244). -/
def State.inputLeg (s : State) (p : Port) : Chan := if s.sinks p then boostLeg p else buckLeg p

/-- R130, R244: the compare that a duty means for a channel of a loop. -/
def State.loopCmp (s : State) (l : Loop) (n : Chan) (d : Int) : Int :=
  match loopPort? l with
  | none => dutyCmp d (s.topTaps n)
  | some p =>
    let f := s.portFractions p d
    if n = s.inputLeg p then dutyCmp f.1 (s.topTaps n) else dutyCmp (2 ^ 24 - f.2) (s.topTaps n)

/-- R129: a turning point whose update was not made takes the duty of the earlier one: the update whose turning point came
last (DEDUCED, log 91). -/
def State.ensureNext (s : State) (n : Chan) : State :=
  match s.chanLoop n with
  | none => s
  | some l =>
    if (s.chan n).next.isSome then s.modLoop l fun k => { k with dLast := (s.chan n).duty }
    else if s.digital l && (s.loop l).order.contains n then s.deliver n (s.loopCmp l n (s.loop l).dLast) (s.loop l).dLast
    else s

/-- R92: the compare and half state for the half that begins, before the rules of R93 and R96-R98. -/
def State.requested (s : State) (n : Chan) (up : Bool) : Int × HalfState :=
  if s.abit (F.PE_CHn_CTRL_SRC n) then
    (((if up then s.afld (F.PE_CHn_CMP_UP_CMP_UP n) else s.afld (F.PE_CHn_CMP_DN_CMP_DN n)) : Nat), .pwm)
  else
    match s.chanLoop n with
    | none => (0, .mid)
    | some l =>
      if s.loopSt l = 0 ∨ s.loopSt l = 6 ∨ s.loopSt l = 7 then (0, .mid)
      else match (s.chan n).half with
        | .mid => (0, .mid)
        | .low => (0, .low)
        | .pwm => (s.chan n).next.getD (((if up then (s.chan n).cmpUp else (s.chan n).cmpDn) : Nat), .pwm)

/-- R99, R131: a correction's age counts the turning points since its decision; it is reported at the first, and what remains
of it goes at the fourth after that. -/
def ageCorrections (ks : List Correction) : List Correction :=
  (ks.map fun k => { k with age := k.age + 1 }).filter fun k => k.age < 5

/-- A correction that the engine tells; none of no taps. -/
def telling (taps : Int) : List Correction := if taps = 0 then [] else [⟨taps, 0⟩]

/-- What a reload keeps, carried over a turning point at position `tp` to the new count from `start` (R104). -/
def carryKeep (k : Option Keep) (tp start : Nat) : Option Keep :=
  k.bind fun k => if tp - k.start < k.taps then some ⟨k.high, start, k.taps - (tp - k.start)⟩ else none

/-- R143, R144: the end of a frame of the slot-0 channel while an injection runs. Which sign of the injection a bit of the
sequence gives is not stated: 1 gives plus (DESIGN CHOICE, log 106). -/
def State.injectFrame (s : State) (n : Chan) : State :=
  match s.chanLoop n with
  | some l =>
    if (s.loop l).order.head? != some n then s else
    match (s.loop l).inject with
    | some i =>
      if !i.running then s else
      let len := if s.bit (F.LP_Ln_BLK_CFG_LEN l) then 1023 else 511
      -- the sequence: PRBS-9 x^9 + x^5 + 1, PRBS-10 x^10 + x^7 + 1
      let w := if len = 511 then 9 else 10
      let tap := if len = 511 then 5 else 7
      let bit := ((i.lfsr >>> (w - 1)) ^^^ (i.lfsr >>> (tap - 1))) % 2
      let next := (i.lfsr * 2 + bit) % 2 ^ w
      -- mean error in 1/64 mV (16 of an error step), mean duty in 2^-16 of a frame; roundings log 2
      let s1 := if i.updates = 0 ∨ i.frame = 0 then s else
        (s.setSFld (F.LP_BLK_BUF_E (i.frame - 1)) (openDiv (16 * i.sumE) i.updates)).setFld
          (F.LP_BLK_BUF_D (i.frame - 1)) (openDiv i.sumD (256 * (i.updates : Int))).toNat
      match i.stop with
      | some r => s1.endInject l r
      | none =>
        if len ≤ i.frame then s1.modLoop l fun k => { k with inj := 0, inject := some { i with frame := len + 1 } }
        else
          let amp : Int := s.fld (F.LP_Ln_BLK_CFG_AMP l) + 1
          s1.modLoop l fun k =>
            { k with inj := if bit = 1 then amp else -amp,
                     inject := some { i with frame := i.frame + 1, lfsr := next, sumE := 0, sumD := 0, updates := 0 } }
    | none => s
  | none => s

/-- Dead times of a leg, in coarse counts (R94). -/
def State.dead (s : State) (n : Chan) : Nat := s.afld (F.PE_CHn_DT_DT_AB n) + s.afld (F.PE_CHn_DT_DT_BA n)

/-- R98: a leg's B interval is suppressed when it is foreseen below MIN_OFF (0 switches the check off, R95). -/
def State.foreseeB (s : State) (n : Chan) (up dn : Nat) : State :=
  let b := bInterval (s.topTaps n) up dn (s.dead n) 0
  if s.minOff n != 0 && decide (b < s.minOff n) && decide (up + dn < 2 * s.topTaps n) then
    let s1 := s.modChan n fun c => { c with bOff := true }
    if s.pulseActs n then s1.countMinPulse n .suppression else s1
  else s.modChan n fun c => { c with bOff := false }

/-- R139: during a start, a channel in its low interval whose latest sample is 0 or less takes MID. -/
def State.startEmulates (s : State) (n : Chan) : Bool :=
  match s.chanLoop n with
  | some l => s.loopSt l == 2 && (match (s.chan n).samples with | i :: _ => decide (i ≤ 0) | [] => false)
  | none => false

/-- R97, R99, R100: a channel reaches its valley. A stretch is told as one difference, once its whole high interval is decided
(log 16). -/
def State.valley (s : State) (n : Chan) : State :=
  let s0 := (s.ensureNext n).injectFrame n
  let c := s0.chan n
  let (req, half) := s0.requested n true
  let up := trimmed req (s0.safld (F.PE_CHn_TRIM_TRIM n)) (s0.topTaps n)
  let r := valleyRules c.cmpDn up (s0.minOn n) (s0.stretches n) c.dropped
  let pwm := half == .pwm
  let cmpUp := if pwm then r.1 else 0
  let longer := pwm && r.2 == some .stretch
  let s1 := s0.modChan n fun c =>
    { c with cmpUp := cmpUp, half := half, halfNow := half, next := none, begun := true,
             dropped := false, owed := 0, stretched := false, bOff := false, keep := carryKeep c.keep (2 * s0.topTaps n) 0,
             emulating := cmpUp == 0 && ((c.emulating && c.cmpDn == 0) || s0.startEmulates n) }
  let s2 := (s1.setFld (F.PE_CHn_POS_POS n) 0).setBit (F.PE_CHn_POS_DOWN n) false
  let live := s2.pulseActs n && !c.scHold
  let told := if live && (c.stretched || longer) then c.owed + (if longer then (cmpUp : Int) - up else 0) else 0
  let s3 := s2.modChan n fun c => { c with corrections := ageCorrections c.corrections ++ telling told }
  let s4 := if live && (c.stretched || longer) then s3.countMinPulse n .stretch
    else if live && pwm && r.2 == some .drop then s3.countMinPulse n .drop else s3
  if isRail n || !pwm || s4.topTaps n ≤ cmpUp then s4 else s4.foreseeB n cmpUp cmpUp

def doValley (n : Chan) (s : State) : Answer := s.onlyIf (s.chanRun n) fun s => s.valley n

/-- R98: B has begun by the peak: DT_AB has passed since A fell, or A had no high interval. -/
def State.bBegun (s : State) (n : Chan) : Bool :=
  let c := s.chan n
  !c.bOff && decide (c.cmpUp < s.topTaps n)
    && (c.cmpUp == 0 || decide (c.cmpUp + s.afld (F.PE_CHn_DT_DT_AB n) * 80 ≤ s.topTaps n))

/-- R96, R98: the highest CMP_DN the low interval allows. -/
def State.peakLimit (s : State) (n : Chan) : Nat :=
  let t := s.topTaps n
  let up := (s.chan n).cmpUp
  if s.minOff n = 0 then t
  else if isRail n then 2 * t - up - s.minOff n
  else if s.bBegun n then 2 * t - up - s.dead n * 80 - s.minOff n
  else t

/-- R96, R98-R100, R182, R183: a channel reaches its peak. -/
def State.peak (s : State) (n : Chan) : State :=
  let s0 := (s.ensureNext n).drawJitter n
  let c := s0.chan n
  let (req, half) := s0.requested n false
  let dn := trimmed req (s0.safld (F.PE_CHn_TRIM_TRIM n)) (s0.topTaps n)
  let r := peakRules dn (s0.peakLimit n) (s0.minOn n) (s0.stretches n)
  let pwm := half == .pwm
  let cmpDn := if pwm then r.cmpDn else 0
  let t := s0.topTaps n
  -- a high interval ended at its compare
  let ended := s0.pulseActs n && !c.scHold && c.halfNow == .pwm && (decide (0 < c.cmpDn) || decide (0 < c.cmpUp))
    && !(decide (t ≤ c.cmpUp) && decide (t ≤ cmpDn))
  let s1 := s0.modChan n fun c =>
    { c with cmpDn := cmpDn, half := half, halfNow := half, next := none, begun := true,
             dropped := pwm && r.dropped, scHold := false, scRun := if ended then 0 else c.scRun,
             keep := carryKeep c.keep t t, emulating := c.emulating || s0.startEmulates n }
  let s2 := (s1.setFld (F.PE_CHn_POS_POS n) (s1.top n)).setBit (F.PE_CHn_POS_DOWN n) true
  let live := pwm && s2.pulseActs n
  let diff : Int := (cmpDn : Int) - dn
  let s3 := s2.modChan n fun c =>
    { c with owed := if live && r.kind == some .stretch then diff else 0, stretched := live && r.kind == some .stretch,
             corrections := ageCorrections c.corrections ++ telling (if live && r.kind == some .clamp then diff else 0) }
  let s4 := if live && r.kind == some .drop then s3.countMinPulse n .drop
    else if live && r.kind == some .clamp then s3.countMinPulse n .clamp else s3
  if isRail n || !pwm || c.cmpUp < t then s4 else s4.foreseeB n c.cmpUp cmpDn

def doPeak (n : Chan) (s : State) : Answer := s.onlyIf (s.chanRun n) fun s => s.peak n

/-! ### Triggers and current samples (R101, R102, R128, R193) -/

/-- The current ADC of a channel (R102). -/
def adcOf (n : Chan) : Fin 4 := ⟨n.val % 4, by omega⟩

/-- R101, R102, R124: a trigger fires: it marks a window sample of an active member's loop, or captures a current sample. -/
def State.triggerFire (s : State) (n : Chan) (k : Fin 4) (x : Int) : State :=
  if s.afld (F.PE_CHn_TRGk_DEST n k) = 1 then
    match s.chanLoop n with
    | some l =>
      if !(s.loop l).order.contains n then s else
      let w := s.windowCode l x
      (s.modLoop l fun q => { q with mark := some (BitVec.ofNat 10 w), vs := x }).windowSat l [w]
    | none => s
  else if (s.chan n).held.isSome then
    let f : Fld := ⟨A.PE_TRG_DROP, 8 * (adcOf n).val, 8⟩
    (s.satInc f).raise 0 13
  else
    (s.modChan n fun c => { c with held := some (BitVec.ofNat 12 (clamp x 0 4095).toNat) }).modEngine fun e =>
      { e with adc := e.adc.set (adcOf n).val (e.adc[adcOf n] ++ [n]) (adcOf n).isLt }

/-- The half in progress has the direction a DIR code selects (R101). -/
def dirMatches (dir : Nat) (down : Bool) : Bool := if down then 2 ≤ dir else dir % 2 == 1

def doTriggerFire (n : Chan) (k : Fin 4) (x : Int) (s : State) : Answer :=
  s.onlyIf (s.chanRun n && s.afld (F.PE_CHn_TRGk_DIR n k) != 0
      && (dirMatches (s.afld (F.PE_CHn_TRGk_DIR n k)) (s.bit (F.PE_CHn_POS_DOWN n))
        || s.afld (F.PE_CHn_TRGk_VALUE n k) == 0 || decide (s.topTaps n ≤ s.afld (F.PE_CHn_TRGk_VALUE n k))))
    fun s => s.triggerFire n k x

/-- R128: a current sample in 1/16 A; GAIN 0 acts as 1. The rounding is not stated (log 2). -/
def State.sampleAmps (s : State) (l : Loop) (code : Nat) : Int :=
  openDiv (((code : Int) - s.fld (F.LP_Ln_IMON_ZERO l)) * 640) (max (s.fld (F.LP_Ln_IMON_GAIN l)) 1 : Nat)

/-- R193: STG_FAULT once for each unbroken run of STG_N samples of 4095. -/
def State.stgCheck (s : State) (l : Loop) (n : Chan) (code : Nat) : State :=
  if code = 4095 then
    let k := (s.chan n).stgRun + 1
    let s1 := s.modChan n fun c => { c with stgRun := k }
    if k = max (s.fld (F.PROT_Ln_RET_STG_N l)) 1 then s1.fault l 0x09 (some n) code else s1
  else s.modChan n fun c => { c with stgRun := 0 }

/-- R102, R128: the oldest held sample of an ADC is converted and reaches the loop datapath: a rail channel's in 1/16 A, a
port leg's as the ADC's code, whose scale the manual does not state. -/
def State.convertCurrent (s : State) (k : Fin 4) : State :=
  match s.engine.adc[k] with
  | [] => s
  | n :: rest =>
    let code : Nat := match (s.chan n).held with | some c => c.toNat | none => 0
    let s1 := (s.modEngine fun e => { e with adc := e.adc.set k.val rest k.isLt }).modChan n fun c =>
      { c with held := none }
    if !isRail n then s1.modChan n fun c => { c with samples := ((code : Int) :: c.samples).take 2 }
    else
      match s1.homeLoop n with
      | some l =>
        let i := s1.sampleAmps l code
        let s2 := s1.modChan n fun c =>
          { c with samples := (i :: c.samples).take 2, cardSum := c.cardSum + i, cardNum := c.cardNum + 1 }
        (s2.setSFld (F.LP_CHn_I_ILAST n) (s2.latest n)).stgCheck l n code
      | none => s1

def doCurrentConversionDone (k : Fin 4) (s : State) : Answer := .next (s.convertCurrent k)

/-! ### Calibration (R112) -/

def halfDom (h : Half) : Nat := match h with | .west => 7 | .east => 8
def halfOk (h : Half) : Fld := match h with | .west => F.PE_STATUS_CAL_W_OK | .east => F.PE_STATUS_CAL_E_OK
def halfGo (h : Half) : Fld := match h with | .west => F.PE_CAL_CTRL_GO_W | .east => F.PE_CAL_CTRL_GO_E
def halfCode (h : Half) : Fld := match h with | .west => F.PE_CAL_CODE_CODE_W | .east => F.PE_CAL_CODE_CODE_E
def halfIdx (h : Half) : Fin 2 := match h with | .west => 0 | .east => 1

def doDelayLineCalDone (h : Half) (code : BitVec 10) (s : State) : Answer :=
  s.onlyIf (s.domOn (halfDom h) && !s.bit (halfOk h)) fun s => (s.setBit (halfOk h) true).setFld (halfCode h) code.toNat

/-- R112: a replica-line recalibration; the line in use moves to its code at master valleys. -/
def State.recalibrate (s : State) (h : Half) (code : BitVec 10) : State :=
  s.modEngine fun e => { e with calNext := e.calNext.set (halfIdx h).val (some code) (halfIdx h).isLt }

/-! ### Safe states (R114, R115, R117) -/

/-- R114: bench debug freezes the engine, which needs the debug port unlocked (R21). -/
def State.debugOpen (s : State) : Bool := s.bit F.IMG_STATUS_ACCEPTED && s.fullOp && !s.seedling && s.bit F.TST_CFG_DEBUG_OPEN

def doEngineFreeze (s : State) : Answer :=
  s.onlyIf (s.debugOpen && s.domOn 9) fun s => (s.setBit F.PE_STATUS_FROZEN true).allNeedLoad

def doFreezeEnd (s : State) : Answer :=
  s.onlyIf (s.bit F.PE_STATUS_FROZEN) fun s => (s.setBit F.PE_STATUS_FROZEN false).allNeedLoad

/-- R115, R196: FAULTn low for 20 ns. -/
def State.faultnFalls (s : State) : State :=
  let held := (upto 32).filter fun n => s.chanEn n && s.bit (F.PE_FAULT_MASK_MASK.at n.val)
  let s1 := s.modEngine fun e => { e with faultnLow := true }
  (held.foldl (fun t n => t.faultHold n) s1).faultnLoops held

def doFaultnLow (s : State) : Answer := .next s.faultnFalls

/-- R114, R146: the clock monitor trips: SAFE_PLL, lock lost, every loop hands over. -/
def State.clockTrip (s : State) : State :=
  let lost := s.anyEn fun _ => true
  let s1 := ((s.setBit F.PE_STATUS_SAFE_PLL true).allPllLoad).pllOff
  let s2 := if lost then s1.setBit F.CLK_STATUS_PLL_LOST true else s1
  s2.forAll fun (l : Loop) t => t.handover l

def doClockMonitorTrip (s : State) : Answer :=
  s.onlyIf (s.domOn 9 && s.bit F.CLK_STATUS_PLL_LOCK) fun s => s.clockTrip

/-- R114: ENGINE_EN is cleared. -/
def State.engineOff (s : State) : State := (s.setBit F.PE_CTRL_ENGINE_EN false).allNeedLoad

/-- R115: a write of PE_FAULT_MASK while FAULTn is low holds the enabled channels that it newly selects. -/
def State.maskWritten (s : State) : State :=
  if !s.engine.faultnLow then s else
  s.forAll fun (n : Chan) t =>
    if t.chanEn n && t.bit (F.PE_FAULT_MASK_MASK.at n.val) && !t.bit (F.PE_CHn_STATUS_FAULT_HOLD n) then t.faultHold n else t

/-- PE_CNT_CLR: bit n clears PE_CHn_MINP_CNT (Table 3.7). -/
def State.clearMinp (s : State) (mask : Word) : State :=
  s.forAll fun (n : Chan) t => if mask.getLsbD n.val then t.setReg (A.PE_CHn_MINP_CNT n) 0 else t

end Sys2Proof.Machine
end

