-- ==== Sys2Proof/Machine/Loops.lean ====
section
/-!
DEFINITION. Regulation, starting and stopping, carding, fulling, blocking and the fallback loop (chapter 04), and
the port loops' share of them (R244-R249).
-/

namespace Sys2Proof.Machine

/-! ### The compensator (R123, R124, R128-R131, R136, R143, R246) -/

/-- R124: the mean of window codes, to the nearest whole code with ties away from zero. -/
def meanCode (ws : List (BitVec 10)) : Int := roundDiv ((ws.map fun w => (w.toNat : Int)).sum) (max ws.length 1)

/-- R124: the codes an update uses, of those the window ADC gave last, newest first. -/
def State.updateCodes (s : State) (l : Loop) (w : List (BitVec 10)) : List (BitVec 10) :=
  match s.bit (F.LP_Ln_SENSE_MARK l), (s.loop l).mark with
  | true, some m => [m]
  | _, _ => w.take (2 ^ s.fld (F.LP_Ln_SENSE_WAVG l))

/-- R246: the current error of a port loop; its rounding is not stated (log 2). -/
def State.currentError (s : State) (p : Port) (ibus : Int) : Int :=
  clamp (openDiv ((s.fld (F.PP_Pp_RUN_ILIM p) : Int) - (if s.sinks p then -ibus else ibus)) 4) (-511) 512

/-- R245: I_BUS in 10 mA from the voltage across the shunt, in codes of 31.25 uV held to ±64 mV; RSNS counts 0.1 mOhm, 0
acting as 1. Its rounding is not stated (log 2). -/
def State.busCurrent (s : State) (p : Port) (shunt : Int) : Int :=
  openDiv (clamp shunt (-2048) 2047 * 125) (4 * (max (s.fld (F.PP_Pp_CFG_RSNS p)) 1 : Nat))

/-- A signed coefficient code of the bank and set in use (R130, R132, R151). -/
def State.coef (s : State) (l : Loop) (k : Nat) : Int :=
  s.sfld (F.LP_Ln_COEF_CODE l (32 * s.fld (F.LP_Ln_STATUS_BANK l) + 8 * s.fld (F.LP_Ln_STATUS_CSET l) + k))

/-- GSHIFT of the set in use (R151). -/
def State.gshift (s : State) (l : Loop) : Nat :=
  getBits (s.reg (A.LP_Ln_COEF l (32 * s.fld (F.LP_Ln_STATUS_BANK l) + 8 * s.fld (F.LP_Ln_STATUS_CSET l) + 5))) 0 4

/-- DMAX in 2^-16 of a frame; fixed at 0xFFFF on a port loop (R244). -/
def State.dmax (s : State) (l : Loop) : Nat := if l.val < 8 then s.fld (F.LP_Ln_DUTY_DMAX l) else 0xFFFF

/-- R128: the load-line filter, one step. -/
def State.filterIll (s : State) (l : Loop) : Rat :=
  (s.loop l).ill + ((s.isum l : Rat) - (s.loop l).ill) / (2 ^ s.fld (F.LP_Ln_LL_LL_AVG l) : Nat)

/-- R136: i_pre after i_ll has reached `ill`: the notice's current less what i_ll has moved in its direction, and
0 for good once there. -/
def LoopState.shrink (k : LoopState) (ill : Rat) : Rat :=
  if k.ipre = 0 then 0
  else if 0 < k.ipre0 then max 0 (k.ipre0 - max 0 (ill - k.ipreFrom))
  else min 0 (k.ipre0 - min 0 (ill - k.ipreFrom))

/-- R130: the arithmetic of one update, up to the duty. -/
def State.compStep (s : State) (l : Loop) (e0 : Int) : LoopState :=
  let k := s.loop l
  let hi : Int := (s.dmax l * 256 : Nat)
  let sum := s.coef l 0 * e0 + s.coef l 1 * k.e1 + s.coef l 2 * k.e2
  let u := clamp (k.u + roundDiv (sum * (2 ^ s.gshift l : Nat)) (2 ^ 18)) 0 hi
  let v1 := k.v1 + roundDiv (s.coef l 3 * (u - k.v1)) (2 ^ 18)
  let v2 := k.v2 + roundDiv (s.coef l 4 * (v1 - k.v2)) (2 ^ 18)
  { k with u := u, v1 := v1, v2 := v2, e1 := e0, e2 := k.e1, d := clamp (v2 + k.dff) 0 hi }

/-- R244: REGION of a port loop's duty: 0 buck, 1 buck-boost, 2 boost. -/
def State.region (s : State) (p : Port) (d : Int) : Nat :=
  let f := s.portFractions p d
  if 0 < f.2 then 2 else if f.1 < ((s.fld (F.PP_Pp_DUTY_DBK p) * 256 : Nat) : Int) then 0 else 1

/-- R404: the highest sensed output of a rail in STATE 3, here the highest of the codes taken. -/
def State.highestVs (s : State) (l : Loop) (codes : List Nat) : State :=
  if l.val < 8 ∧ s.loopSt l = 3 then s.extreme (8 + l.val) (openRat (s.vt l + ((codes.foldl max 0 : Nat) : Rat) - 512)) true
  else s

/-- R123, R124, R130: one update, for a turning point of channel n. -/
def State.compUpdate (s : State) (l : Loop) (n : Chan) (vs : Vector Int 8) (shunt : Int) : State :=
  let w := vs.toList.map (s.windowCode l)
  let ev := 512 - meanCode (s.updateCodes l (w.map (BitVec.ofNat 10)))
  let e := match loopPort? l with | some p => min ev (s.currentError p (s.busCurrent p shunt)) | none => ev
  let ill := if l.val < 8 then s.filterIll l else 0
  let full := s.fld (F.LP_Ln_FULL_FULL_ERR l)
  let run := if l.val < 8 ∧ full ≠ 0 ∧ (full : Int) ≤ e then (s.loop l).errRun + 1 else 0
  let k := s.compStep l e
  let dff := if k.ffLeft ≤ 1 then 0 else k.dff
  let s1 := s.modLoop l fun _ =>
    { k with ill := ill, ipre := k.shrink ill, mark := none, ffLeft := k.ffLeft - 1, dff := dff, errRun := run,
             vs := vs[0],
             fullTrig := k.fullTrig || (s.bit (F.LP_Ln_CTRL_FULL_EN l) && decide (2 ≤ run)),
             inject := k.inject.map fun i =>
               if i.running then { i with sumE := i.sumE + e, sumD := i.sumD + k.d, updates := i.updates + 1 } else i }
  let s2 := match loopPort? l with
    | none => s1.setBit (F.LP_Ln_STATUS_FF_ACT l) (dff != 0)
    | some p => ((s1.setBit (F.PP_Pp_STATUS_CL p) (decide (e < ev))).setFld (F.PP_Pp_STATUS_REGION p)
        (s1.region p k.d)).setSFld (F.PP_Pp_MEAS_IBUS p) (s.busCurrent p shunt)
  ((s2.windowSat l w).highestVs l w).deliver n (s2.loopCmp l n k.d) k.d

def doCompensatorUpdate (n : Chan) (vs : Vector Int 8) (shunt : Int) (s : State) : Answer :=
  match s.chanLoop n with
  | some l => s.onlyIf (s.digital l && (s.loop l).order.contains n) fun s => s.compUpdate l n vs shunt
  | none => .next s

/-! ### References (R125, R126, R138, R140, R249) -/

/-- The code a loop's reference moves toward: 1.25 mV steps on a rail, 5 mV steps on a port (R123, R126, R249). -/
def State.refTarget (s : State) (l : Loop) : Nat :=
  match loopPort? l with
  | none => vrefTarget (s.fld (F.LP_Ln_VREF_VREF l))
  | some p => if s.sinks p then s.sinkTarget p else 4 * s.fld (F.PP_Pp_RUN_VREF p)

/-- The reference as it stands, in the same steps. -/
def State.refNow (s : State) (l : Loop) : Nat :=
  match loopPort? l with
  | none => s.fld (F.LP_Ln_VNOW_VREF_NOW l)
  | some p => (s.path p).vrefNow

def State.setRef (s : State) (l : Loop) (v : Nat) : State :=
  match loopPort? l with
  | none => s.setFld (F.LP_Ln_VNOW_VREF_NOW l) v
  | some p => s.modPath p fun k => { k with vrefNow := v }

/-- PWM begins on a port's two legs, in a start with diode emulation (R139, R248). -/
def State.portBegins (s : State) (l : Loop) : State :=
  let s1 := (s.presetPort l).modLoop l fun k => { k with passed := true }
  (s1.serving l).foldl (fun t n => t.modChan n fun c => { c with half := .pwm, emulating := false }) s1

/-- The ramp passes V_pb (R138). -/
def State.passRamp (s : State) (l : Loop) : State :=
  if l.val < 8 then s.rampPasses l else (s.setRef l (s.loop l).vpb).portBegins l

/-- The ramp reaches the target while still below V_pb (R138). -/
def State.rampEndsBelow (s : State) (l : Loop) : State :=
  (if l.val < 8 then s.startEndsBelow l else ((s.setRef l (s.refTarget l)).portBegins l).enterRegulation l).endIf l
    fun q => isHiccup q.cause q.sev

/-- What the position of the soft-start ramp brings: passing V_pb, and the end of the start (R138). -/
def State.rampAt (s : State) (l : Loop) : State :=
  let k := s.loop l
  let s1 := if k.measured && !k.passed && decide (k.vpb ≤ k.ramp) then s.passRamp l else s
  let s2 := if (s1.loop l).passed then s1.setRef l (max k.ramp (s1.refNow l)) else s1
  if decide (k.ramp < s2.refTarget l) || !k.measured then s2
  else if (s2.loop l).passed then s2.reachRegulation l
  else s2.rampEndsBelow l

/-- R126: one step of the reference, in the loop's state. On the fallback loop none is made: VREF_NOW is preset at the return,
and slews from there (R149, R168). -/
def State.refStep (s : State) (l : Loop) : State :=
  let st := s.loopSt l
  if st = 2 then
    if (s.loop l).ramp < s.refTarget l then
      (s.modLoop l fun k => { k with ramp := k.ramp + 1 }).rampAt l
    else s.rampAt l
  else if st = 3 then s.setRef l (toward (s.refNow l) (s.refTarget l))
  else if st = 4 ∧ !(s.loop l).stopping ∧ !(s.loop l).stopLow then
    let v := s.refNow l - 1
    let s1 := s.setRef l v
    if v ≠ 0 then s1
    else if s.fld (F.LP_Ln_CTRL_STOP_MODE l) ≤ 1 then s1.stopMid l
    else (s1.loopHalf l .low).modLoop l fun k => { k with stopLow := true }
  else s

def doReferenceStep (l : Loop) (s : State) : Answer := .next (s.refStep l)

/-- R138, R354: the pre-bias measurement ends, in steps of 1.25 mV on a rail and 5 mV on a port. -/
def State.prebiasDone (s : State) (l : Loop) (uv : Nat) (selfTest : Bool) : State :=
  let v := if l.val < 8 then min uv 2557500 / 1250 else min uv 51150000 / 5000
  let s1 := (s.setRef l v).modLoop l fun k => { k with vpb := v, vs := uv, measured := true, cmpFail := !selfTest }
  let s2 := if selfTest then s1 else s1.raise 13 14
  if s2.loopSt l = 2 then
    if selfTest then s2.rampAt l else s2.setLoopSt l 1
  else s2

def doPrebiasDone (l : Loop) (uv : Nat) (selfTest : Bool) (s : State) : Answer :=
  s.onlyIf ((s.loopSt l == 1 || s.loopSt l == 2) && !s.bit (F.PROT_Ln_STATUS_HICCUP l) && !(s.loop l).measured)
    fun s => s.prebiasDone l uv selfTest

/-- R138: STG_DELAY after t0 the ramp begins. A loop whose self-test failed stays in STATE 1 (R354). -/
def doRampStart (l : Loop) (s : State) : Answer :=
  s.onlyIf (s.loopSt l == 1 && !s.bit (F.PROT_Ln_STATUS_HICCUP l) && !(s.loop l).cmpFail)
    fun s => (s.setLoopSt l 2).rampAt l

/-- R140: the LOW of STOP_MODE 2 or 3 ends. -/
def doStopLowEnd (l : Fin 8) (s : State) : Answer :=
  s.onlyIf ((s.loop (railLoop l)).stopLow) fun s => s.stopMid (railLoop l)

/-- R140, R181, R188, R191: STG_ENn falls 10 us after the last channel entered MID; a stop then ends in STATE 0. -/
def State.stgEnFall (s : State) (l : Loop) : State :=
  if s.loopSt l = 4 then s.loopOffDone l
  else s.modLoop l fun k => { k with stgEn := false, stopping := false }

def doStgEnFall (l : Fin 8) (s : State) : Answer :=
  s.onlyIf ((s.loop (railLoop l)).stopping && !s.bit (F.PROT_Ln_STATUS_OV_LATCH l)) fun s => s.stgEnFall (railLoop l)

/-- R141, R170, R171: SETTLED rises, and LNK_SETTLED of each slot that owns the target. -/
def State.settledRise (s : State) (l : Loop) : State :=
  (s.setBit (F.LP_Ln_STATUS_SETTLED l) true).forAll fun (v : Port) t => t.forAll fun (k : Fin 2) u =>
    if u.slotLoop v k == some l && u.bit ((F.VLK_n_STATUS_TARGET_OWN v).at k) then u.alertSlot v k 0 else u

/-- R141: V_s, as last sampled, is within BAND x 0.25 mV of V_t. -/
def State.inBand (s : State) (l : Loop) : Bool :=
  let diff : Rat := ((s.loop l).vs : Rat) / 250 - s.vt l
  let band : Rat := s.fld (F.LP_Ln_SETTLE_BAND l)
  decide (-band ≤ diff) && decide (diff ≤ band)

def doSettledRise (l : Fin 8) (s : State) : Answer :=
  s.onlyIf (s.loopSt (railLoop l) == 3 && s.refNow (railLoop l) == s.refTarget (railLoop l)
      && !s.bit (F.LP_Ln_STATUS_SETTLED l) && s.inBand (railLoop l))
    fun s => s.settledRise (railLoop l)

/-! ### Carding (R134, R194) -/

/-- The mean current of a channel in the period, 1/16 A; open with no sample (log 12). -/
def State.iavg (s : State) (n : Chan) : Int :=
  if (s.chan n).cardNum = 0 then Config.emptyMean n.val (s.sfld (F.LP_CHn_I_IAVG n)) else openDiv (s.chan n).cardSum (s.chan n).cardNum

/-- The carding period restarts. -/
def State.cardRestart (s : State) (l : Loop) (broken : Bool) : State :=
  (s.serving l).foldl (fun t n => t.modChan n fun c => { c with cardSum := 0, cardNum := 0 })
    (s.modLoop l fun k => { k with cardBroken := broken })

/-- R134: a channel's trim before the mean is taken out. -/
def cardTrim (trim mAvg iavg : Int) (shift : Nat) : Int := trim + clamp ((mAvg - iavg) / (2 ^ shift : Nat)) (-8) 8

/-- R194: DIVERGE on a channel, from its new trim. `off` counts steps while the three enables are 1; a DIVERGE raised begins a
new count (DESIGN CHOICE, log 93). `sum` is that of IAVG over the `cnt` active channels. -/
def State.diverge (s : State) (l : Loop) (n : Chan) (trim sum iavg : Int) (cnt : Nat) : State :=
  let lim : Int := s.fld (F.LP_Ln_CARD_LIM l)
  let away := if cnt * iavg < sum then sum - cnt * iavg else cnt * iavg - sum
  let off := decide (4 * cnt * (s.fld (F.PROT_Ln_RET_DIV_LIM l) : Int) < away)
  if (trim = lim ∨ trim = -lim) ∧ off ∧ s.bit (F.PROT_Ln_RET_DIV_EN l) then
    let k := (s.chan n).divRun + 1
    let due := decide (max (s.fld (F.PROT_Ln_RET_DIV_N l)) 1 ≤ k)
    let s1 := s.modChan n fun c => { c with divRun := if due then 0 else k }
    if due then s1.fault l 0x0A (some n) else s1
  else s.modChan n fun c => { c with divRun := 0 }

/-- R134: one carding step. -/
def State.cardStep (s : State) (l : Loop) : State :=
  let act := (s.loop l).order
  let cnt := act.length
  let mAvg := roundDiv ((act.map fun n => s.iavg n).sum) cnt
  let shift := s.fld (F.LP_Ln_CARD_SHIFT l)
  let lim : Int := s.fld (F.LP_Ln_CARD_LIM l)
  let raw (n : Chan) : Int := cardTrim (s.sfld (F.LP_CHn_CARD_TRIM n)) mAvg (s.iavg n) shift
  let mean := roundDiv ((act.map raw).sum) cnt
  let s1 := act.foldl (fun t n => (t.setSFld (F.LP_CHn_CARD_TRIM n) (clamp (raw n - mean) (-lim) lim)).setSFld
    (F.LP_CHn_I_IAVG n) (s.iavg n)) s
  let s2 := s1.cardRestart l false
  let sum := (act.map fun n => s.iavg n).sum
  act.foldl (fun t n => t.diverge l n (clamp (raw n - mean) (-lim) lim) sum (s.iavg n) cnt) s2

def doCardingStep (l : Fin 8) (s : State) : Answer :=
  let n := railLoop l
  let hurt := s.loopSt n != 3 || (s.loop n).cardBroken || ((s.loop n).inject.any fun i => i.running)
  s.onlyIf (s.bit (F.LP_Ln_CTRL_CARD_EN l)) fun s =>
    if hurt || decide ((s.loop n).order.length < 2) then s.cardRestart n (s.loopSt n != 3) else s.cardStep n

/-! ### Fulling and notices (R136, R172) -/

def doFullingEnd (l : Fin 8) (s : State) : Answer :=
  s.onlyIf (s.bit (F.LP_Ln_STATUS_FULLING l)) fun s =>
    (s.setBit (F.LP_Ln_STATUS_FULLING l) false).modLoop (railLoop l) fun k => { k with ipre := 0 }

/-- R136: the notice acts at its noticed instant. -/
def State.noticed (s : State) (l : Loop) (n : Notice) : State :=
  let s1 := s.modLoop l fun k => { k with notice := none }
  if s1.bit (F.LP_Ln_CTRL_FF_EN l) then
    let hold := s1.fld (F.LP_Ln_FF_FF_HOLD l)
    let dff : Int := if hold = 0 then 0 else n.di * s1.fld (F.LP_Ln_FF_KFF l)
    (s1.modLoop l fun k =>
      { k with dff := dff, ffLeft := hold, ipre := 16 * (n.di : Rat), ipre0 := 16 * (n.di : Rat), ipreFrom := k.ill }).setBit
      (F.LP_Ln_STATUS_FF_ACT l) (dff != 0)
  else s1

def doNoticedInstant (l : Fin 8) (s : State) : Answer :=
  match (s.loop (railLoop l)).notice with
  | some n => .next (s.noticed (railLoop l) n)
  | none => .next s

/-! ### Blocking (R142, R143, R145) -/

/-- R142, R447: a write of GO. DESIGN CHOICE (log 92): with another loop injecting RESULT is 3 whatever else fails, and a GO
while the loop itself injects gives 2. -/
def State.blkGo (s : State) (l : Loop) : State :=
  let other := (upto 12).any fun k => k != l && (s.loop k).inject.isSome
  let ok := s.loopSt l == 3 && s.bit (F.LP_Ln_STATUS_SETTLED l) && !s.bit (F.LP_Ln_STATUS_FULLING l)
    && decide (s.iph l ≤ ((16 * s.fld (F.LP_Ln_BLK_CFG_IMAX l) : Nat) : Rat)) && (s.loop l).inject.isNone
    && s.live.retrim.isNone
  if other then (s.setFld (F.LP_Ln_BLK_CTRL_RESULT l) 3).raise 3 l.val
  else if !ok then (s.setFld (F.LP_Ln_BLK_CTRL_RESULT l) 2).raise 3 l.val
  else
    -- the manual gives no start value of the sequence: a free value, not 0 (log 18)
    let (x, s1) := s.fresh 9
    s1.modLoop l fun k =>
      { k with inject := some { frame := 0, lfsr := max x.toNat 1, sumE := 0, sumD := 0, updates := 0, running := false,
                                stop := none } }

def doInjectionEnd (l : Fin 8) (s : State) : Answer :=
  let n := railLoop l
  s.onlyIf ((s.loop n).inject.any fun i => i.running && decide ((if s.bit (F.LP_Ln_BLK_CFG_LEN l) then 1023 else 511) < i.frame))
    fun s => s.endInject n 1

/-- A coefficient within ±1.99 (R145); its code counts 2^-18. -/
def coefInRange (c : BitVec 20) : Bool := decide (-521666 ≤ c.toInt) && decide (c.toInt ≤ 521666)

/-- R145: the verdict that the limits of LP_Ln_BLK_ACC give: the first of them that fails, in the order of their codes
(DESIGN CHOICE, log 94), or 1. -/
def State.fitVerdict (s : State) (l : Loop) (f : Fit) (set : Vector (BitVec 20) 6) : Nat :=
  let xo := 10000 * s.fld (F.LP_Ln_BLK_CFG_XO l)
  let off := if f.crossover < xo then xo - f.crossover else f.crossover - xo
  if 50 * s.fld (F.LP_Ln_BLK_ACC_RESID l) < f.residual then 2
  else if s.fld (F.LP_Ln_BLK_ACC_XO_TOL l) * xo < 100 * off then 3
  else if f.phase < 100 * (s.fld (F.LP_Ln_BLK_ACC_PM_MIN l) : Int) then 4
  else if f.gain < 25 * (s.fld (F.LP_Ln_BLK_ACC_GM_MIN l) : Int) then 5
  else if (set.toList.take 5).all coefInRange then 1 else 6

/-- R145: on acceptance C1 copies the active bank to the inactive one, replaces in it the set that was in use during the
injection, and writes SWAP (R132, R133). -/
def State.verdict (s : State) (l : Loop) (f : Fit) (set : Vector (BitVec 20) 6) : State :=
  let v := s.fitVerdict l f set
  let s1 := (s.setFld (F.LP_Ln_BLK_CTRL_VERDICT l) v).raise 3 l.val
  if v = 1 ∧ !s.bit (F.LP_Ln_CTRL_SWAP l) then
    let bank := s.fld (F.LP_Ln_STATUS_BANK l)
    let cset := (s.loop l).blkSet
    let s2 := (List.range 32).foldl (fun t j =>
      t.setReg (A.LP_Ln_COEF l (32 * (1 - bank) + j)) (s.reg (A.LP_Ln_COEF l (32 * bank + j)))) s1
    let s3 := (upto 6).foldl (fun t k =>
      t.setFld ⟨A.LP_Ln_COEF l (32 * (1 - bank) + 8 * cset + k.val), 0, if k.val = 5 then 4 else 20⟩ (set[k]).toNat) s2
    s3.setBit (F.LP_Ln_CTRL_SWAP l) true
  else s1

def doVerdict (l : Fin 8) (f : Fit) (set : Vector (BitVec 20) 6) (s : State) : Answer :=
  .next (s.verdict (railLoop l) f set)

/-! ### The fallback loop (R146, R147, R192) -/

/-- A write of FB_FORCE: a handover now (R146, R350). -/
def State.fbForce (s : State) (l : Loop) : State :=
  let st := s.loopSt l
  if st = 2 ∨ st = 3 ∨ st = 4 then (s.handover l).raise 15 12 else s

/-- R192: the fold-back limit in amperes; FB_DAC counts 10 window steps on either kind of loop. -/
def State.foldLimit (s : State) (l : Loop) (vs : Int) : Rat :=
  let hi : Rat := s.fld (F.PROT_Ln_FB_I_FB_MAX l)
  let lo : Rat := min (s.fld (F.PROT_Ln_FB_I_FB_MIN l) : Rat) hi
  let vfb : Rat := (10 * windowStep l * s.fld (F.LP_Ln_FB_FB_DAC l) : Nat)
  if vfb = 0 then lo else lo + (hi - lo) * min (vs : Rat) vfb / vfb

/-- R182, R192: the comparator threshold in microvolts that a current in amperes has at an IMON pin, held to 1 638 mV; of a
port, across its inductor shunt of ISNS_R (R261, R264). -/
def State.ampsThreshold (s : State) (l : Loop) (a : Rat) : Rat :=
  match loopPort? l with
  | none => min (400 * (s.fld (F.LP_Ln_IMON_ZERO l) : Rat) + 10 * (max (s.fld (F.LP_Ln_IMON_GAIN l)) 1 : Nat) * a) 1638000
  | some p => 100 * (max (s.fld (F.PP_Pp_CFG_ISNS_R p)) 1 : Nat) * a

/-- R192: a channel whose current shows as `imon` is above its fold-back limit. -/
def State.aboveFold (s : State) (l : Loop) (vs imon : Int) : Bool :=
  decide (s.ampsThreshold l (s.foldLimit l vs) < (imon : Rat))

/-- R147, R192: the next channel of the round starts a pulse, or is withheld. -/
def State.fbPulse (s : State) (l : Loop) (vs imon : Int) : State :=
  match (s.loop l).round.filter fun n => !s.retired n && !s.chanHeld n && s.chanEn n with
  | [] => s
  | c :: _ =>
    let s1 := s.modLoop l fun k => { k with round := k.round.erase c ++ [c], vs := vs }
    if s1.aboveFold l vs imon then
      if s1.bit (F.PROT_Ln_STATUS_FOLDING l) then s1
      else (s1.setBit (F.PROT_Ln_STATUS_FOLDING l) true).fault l 0x0D (some c)
    else s1.modLoop l fun k => { k with fbHigh := some c }

def doFallbackPulseStart (l : Loop) (vs imon : Int) (s : State) : Answer :=
  s.onlyIf (s.loopSt l == 5 && (s.loop l).fbHigh.isNone
      && decide (vs < (10 * windowStep l * s.fld (F.LP_Ln_FB_FB_DAC l) : Nat)))
    fun s => s.fbPulse l vs imon

/-- R147, R183: a fallback pulse ends of itself, and with it a run of tripped intervals (DEDUCED, log 95). -/
def State.fbPulseEnd (s : State) (l : Loop) : State :=
  let s1 := match (s.loop l).fbHigh with
    | some c => s.modChan c fun k => { k with scRun := 0 }
    | none => s
  s1.modLoop l fun k => { k with fbHigh := none }

def doFallbackPulseEnd (l : Loop) (s : State) : Answer := .next (s.fbPulseEnd l)

def doFoldingQuiet (l : Loop) (s : State) : Answer := .next (s.setBit (F.PROT_Ln_STATUS_FOLDING l) false)

/-- R137: RETIRED is cleared only while the channel's loop is off. -/
def State.retiredClear (s : State) (n : Chan) : State :=
  let loops := (upto 12).filter fun l => decide (l.val < 8) && (s.loopChans l).contains n
  if loops.all fun l => !s.loopOn l then s.setBit (F.LP_CHn_CARD_RETIRED n) false else s

end Sys2Proof.Machine
end

