-- ==== Sys2Proof/Machine/Protection.lean ====
section
/-!
DEFINITION. Rail protection (chapter 06): comparators, overload blocks, hiccups and the clearing of latches.
-/

namespace Sys2Proof.Machine

/-! ### Over-voltage (R179-R181) -/

/-- The STATEs in which a comparator acts (R179). -/
def State.ovActs (s : State) (l : Loop) (tracking : Bool) : Bool :=
  let st := s.loopSt l
  if tracking then decide (2 ≤ st) && decide (st ≤ 5) && s.fld (F.PROT_Ln_OV_OV_OFS l) != 0
  else decide (1 ≤ st) && decide (st ≤ 6)

/-- R179: the threshold of a rail's over-voltage comparator in microvolts; the tracking one is frozen at the handover in
STATE 5. -/
def State.ovLimit (s : State) (l : Loop) (tracking : Bool) : Rat :=
  if tracking then 250 * (if s.loopSt l = 5 then (s.loop l).ovFrozen.getD (s.ovTrack l) else s.ovTrack l)
  else 5000 * (max (s.fld (F.PROT_Ln_OV_OV_ABS l)) 60 : Nat)

/-- R179: a crossing trips a comparator that acts; reaching its threshold counts as crossing it (DEDUCED, log 95). -/
def doOvTrip (l : Fin 8) (x : OvCrossing) (s : State) : Answer :=
  s.onlyIf (s.ovActs (railLoop l) x.tracking && s.domOn 9 && decide (s.ovLimit (railLoop l) x.tracking ≤ x.uv))
    fun s => s.fault (railLoop l) (if x.tracking then 0x05 else 0x04)

/-- A latch of a loop ends: STATE 0, HIC_CNT 0, and a port enters ErrorRecovery (R181, R190, R191, R263). -/
def State.unlatch (s : State) (l : Loop) : State :=
  let s1 := ((((s.setBit (F.PROT_Ln_STATUS_LATCHED l) false).setFld (F.PROT_Ln_STATUS_LATCH_CAUSE l) 0).setFld
    (F.PROT_Ln_STATUS_HIC_CNT l) 0).loopEnds l).setLoopSt l 0
  match loopPort? l with
  | some p => s1.errorRecovery p
  | none => s1

/-- The contract voltage in 20 mV, or 5.00 V before a contract (R261). -/
def State.contractVolt (s : State) (p : Port) : Nat :=
  if s.bit (F.PD_Pp_STATUS_CONTRACT p) then s.fld (F.PD_Pp_VI_VOLT p) else 250

/-- R261: the over-voltage threshold of a port in microvolts: VREF + max(OV_ADD x 0.1 V, VREF / 8). -/
def State.portOvLimit (s : State) (p : Port) : Int :=
  let v : Int := 20000 * s.contractVolt p
  v + max (100000 * (s.fld (F.PP_Pp_SRC_OV_ADD p) : Int)) (v / 8)

/-- R261: the VSYS_IN over-voltage threshold in microvolts. -/
def State.vsysOvLimit (s : State) : Int := 20000 * (s.fld F.PP_VSYS_PROT_VSYS_OV : Nat)

/-- R181: both comparators read below their thresholds: the absolute one of R179, and the tracking one as it stood when the
latch was set; of a port, its own comparator and that of VSYS_IN (R261, R263). -/
def State.ovBelow (s : State) (l : Loop) (x : OvSense) : Bool :=
  match loopPort? l with
  | none => decide ((x.uv : Rat) < s.ovLimit l false) && (s.fld (F.PROT_Ln_OV_OV_OFS l) == 0
      || decide ((x.uv : Rat) < 250 * (s.loop l).ovFrozen.getD (s.ovTrack l)))
  | some p => decide (x.uv < s.portOvLimit p) && decide (x.vsys < s.vsysOvLimit)

/-- R181: a write of OV_CLR that the writer may make, with what the comparators then read. -/
def State.ovClr (s : State) (l : Loop) (x : OvSense) : State :=
  if !s.ovBelow l x then s.setBit (F.PROT_Ln_CLR_CLR_REFUSED l) true
  else if !s.bit (F.PROT_Ln_STATUS_OV_LATCH l) then s
  else
    let s1 := (s.setBit (F.PROT_Ln_STATUS_OV_LATCH l) false).modLoop l fun k =>
      { k with ovFrozen := none, stopping := true, stopLow := false }
    (s1.loopMid l).unlatch l

/-- R191: a write of LOFF_CLR. -/
def State.loffClr (s : State) (l : Loop) : State :=
  if s.bit (F.PROT_Ln_STATUS_LATCHED l) && !s.bit (F.PROT_Ln_STATUS_OV_LATCH l) then s.unlatch l else s

/-! ### Short circuits (R182, R183) -/

/-- R182: the short-circuit threshold of a rail loop's channels, in microvolts at IMONm. -/
def State.scLimit (s : State) (l : Loop) : Rat := s.ampsThreshold l (s.fld (F.PROT_Ln_SC_SC_LIM l) : Rat)

/-- R182, R183: a trip ends the high interval; the SC_COUNT-th in a row is SC_SHUT. -/
def State.scTrip (s : State) (l : Loop) (n : Chan) : State :=
  let k := (s.chan n).scRun + 1
  let s1 := (s.modChan n fun c => { c with scHold := s.loopSt l != 5, scRun := k }).modLoop l fun q =>
    { q with fbHigh := if q.fbHigh = some n then none else q.fbHigh }
  let s2 := (s1.satInc (F.PROT_Ln_CNT_SC_TRIPS l)).fault l 0x01 (some n)
  if max (s.fld (F.PROT_Ln_SC_SC_COUNT l)) 1 ≤ k then s2.fault l 0x02 (some n) else s2

/-- R182: a crossing in a high interval, past the blanking of its rising edge, of a loop that has pulsed. -/
def doScTrip (x : ScCrossing) (s : State) : Answer :=
  let c : Chan := ⟨x.chan.val, by omega⟩
  match s.chanLoop c with
  | some l => s.onlyIf (s.pulsing c && decide (l.val < 8) && decide (s.fld (F.PROT_Ln_SC_SC_BLANK l) ≤ x.since)
      && decide (s.scLimit l ≤ (x.uv : Rat))) fun s => s.scTrip l c
  | none => .next s

/-! ### Overload (R184, R185) -/

/-- The throttle step k (R380). -/
def State.throttle (s : State) : Nat := s.fld F.THM_STATUS_STEP

/-- R184: ol_eff in sixteenths of an ampere. -/
def State.olEff (s : State) (l : Loop) : Nat :=
  min (s.fld (F.PROT_Ln_OL_OL_LIM l)) (s.fld (F.PROT_Ln_OLCAP_CAP l)) * (16 - s.throttle)

/-- R185: a block ends: i_ol is the mean of its master-valley samples. -/
def State.overloadBlock (s : State) (l : Loop) : State :=
  let k := s.loop l
  let isOver := k.olNum != 0 && s.fld (F.PROT_Ln_OL_OL_LIM l) != 0 && decide (((s.olEff l * k.olNum : Nat) : Int) < k.olSum)
  let s1 := (s.modLoop l fun q => { q with olSum := 0, olNum := 0, olRun := if isOver then q.olRun + 1 else 0 }).setBit
    (F.PROT_Ln_STATUS_OL_OVER l) isOver
  if !isOver then s1.endIf l fun q => q.cause == 0x07
  else
    let s2 := if k.olRun = 0 then s1.fault l 0x07 else s1
    if max (s.fld (F.PROT_Ln_OL_OL_COUNT l)) 1 ≤ k.olRun + 1 then s2.fault l 0x08 else s2

def doOverloadBlockEnd (l : Fin 8) (s : State) : Answer :=
  s.onlyIf ((s.loopSt (railLoop l) == 3 || s.loopSt (railLoop l) == 5) && s.bit F.CLK_STATUS_PLL_LOCK)
    fun s => s.overloadBlock (railLoop l)

/-! ### Under-voltage and tracking (R186, R187) -/

def doUv (l : Fin 8) (s : State) : Answer :=
  s.onlyIf (s.loopSt (railLoop l) == 3 && s.fld (F.PROT_Ln_UV_UV_OFS l) != 0 && s.belowUv (railLoop l)) fun s => s.fault (railLoop l) 0x06

def doStartShort (l : Fin 8) (s : State) : Answer :=
  s.onlyIf (s.loopSt (railLoop l) == 2 && (s.loop (railLoop l)).passed && s.fld (F.PROT_Ln_TRK_TRACK_ERR l) != 0
      && s.belowTrack (railLoop l))
    fun s => s.fault (railLoop l) 0x03

/-! ### Hiccups (R189, R190) -/

/-- R149: the engine is enabled, locked and calibrated, and the checker is well. -/
def State.returnReady (s : State) (l : Loop) : Bool :=
  s.bit F.PE_CTRL_ENGINE_EN && s.bit F.CLK_STATUS_PLL_LOCK && s.bit F.IRQ_CONT_STATUS_CHECKER_OK
    && (s.loopChans l).all fun n => s.chanCal n

/-- R189: the restart, as an on command: R120 may give a configuration error, which ends the handling with the loop off
(DEDUCED, log 95). -/
def State.hiccupRestart (s : State) (l : Loop) : State :=
  let s1 := ((s.setFld (F.PROT_Ln_STATUS_HIC_CNT l) (min (s.fld (F.PROT_Ln_STATUS_HIC_CNT l) + 1) 7)).satInc
    (F.PROT_Ln_CNT_HIC_TOTAL l)).modLoop l fun k => { k with fbWait := false }
  if s.configBad l then
    ((((s1.setBit (F.PROT_Ln_STATUS_HICCUP l) false).loopTrip l false).loopEnds l).setLoopSt l 7).endIf l fun q =>
      isHiccup q.cause q.sev
  else s1.startAt l

def doHiccupRestart (l : Fin 8) (s : State) : Answer :=
  let n := railLoop l
  s.onlyIf (s.bit (F.PROT_Ln_STATUS_HICCUP l) && !s.bit (F.PROT_Ln_STATUS_OV_LATCH l)
      && (!(s.loop n).fbWait || s.returnReady n))
    fun s => s.hiccupRestart n

/-- R190: HICCUP_CLEAN has passed in STATE 3. -/
def doHiccupClean (l : Fin 8) (s : State) : Answer :=
  s.onlyIf (s.loopSt (railLoop l) == 3) fun s => s.setFld (F.PROT_Ln_STATUS_HIC_CNT l) 0

end Sys2Proof.Machine
end

