-- ==== Sys2Proof/Machine/PolicyTable.lean ====
section
/-!
DEFINITION. The policy table of the ports in the system RAM (R234, Table 7.8).
-/

namespace Sys2Proof.Machine

/-! ### The policy table (Table 7.8) -/

/-- A mode table entry. -/
structure ModeEntry where
  svid : Nat
  auto : Bool
  mask : Word
  deriving DecidableEq, Repr

/-- A preference entry. -/
structure Pref where
  kind : Nat
  prio : Nat
  vMin : Nat
  vMax : Nat
  pMin : Nat
  deriving DecidableEq, Repr

/-- A port record. -/
structure PortPolicy where
  src : List Word
  snk : List Word
  prefs : List Pref
  flags : Nat
  deriving DecidableEq, Repr

/-- A fixed PDO of `mv` millivolts and `ma` x 10 mA. -/
def fixedPdo (mv ma : Nat) : Word := BitVec.ofNat 32 (mv / 50 * 1024 + ma)

/-- R234: the factory defaults: sink only, one sink PDO of 5 V at 3 A, no preference. -/
def PortPolicy.factory : PortPolicy := { src := [], snk := [fixedPdo 5000 300], prefs := [], flags := 0 }

def State.sbyte (s : State) (a : Nat) : Nat := (s.sram.get sramDefault a).toNat
def State.shalf (s : State) (a : Nat) : Nat := s.sbyte a + 256 * s.sbyte (a + 1)

def State.modeEntry (s : State) (a : Nat) : ModeEntry :=
  { svid := s.shalf a, auto := s.shalf (a + 2) % 2 == 1, mask := s.sramWord (a + 4) }

def State.prefEntry (s : State) (a : Nat) : Pref :=
  { kind := s.sbyte a, prio := s.sbyte (a + 1), vMin := s.shalf (a + 2), vMax := s.shalf (a + 4), pMin := s.shalf (a + 6) }

/-- The size of the port record at `a`. -/
def State.recordSize (s : State) (a : Nat) : Nat := 4 + 4 * s.sbyte a + 4 * s.sbyte (a + 1) + 8 * s.sbyte (a + 2)

def State.portRecord (s : State) (a : Nat) : PortPolicy :=
  let n := s.sbyte a; let k := s.sbyte (a + 1); let q := s.sbyte (a + 2)
  { src := (List.range n).map fun i => s.sramWord (a + 4 + 4 * i),
    snk := (List.range k).map fun i => s.sramWord (a + 4 + 4 * n + 4 * i),
    prefs := (List.range q).map fun i => s.prefEntry (a + 4 + 4 * n + 4 * k + 8 * i), flags := s.sbyte (a + 3) }

def State.policyAt (s : State) : Nat := s.fld F.PD_POLICY_OFFSET

/-- The SRAM offset of port p's record: those of the lower ports present come first. -/
def State.recordAt (s : State) (p : Nat) : Nat :=
  (List.range p).foldl (fun a q => if s.sbyte (s.policyAt + 6) / 2 ^ q % 2 = 1 then a + s.recordSize a else a)
    (s.policyAt + 8 + 8 * s.sbyte (s.policyAt + 7))

/-- The kind of a fixed contract by its voltage in mV: only those of Table 7.6. -/
def fixedKind (mv : Nat) : Nat :=
  if mv ∈ [5000, 9000, 15000, 20000] then 1 else if mv ∈ [28000, 36000, 48000] then 4 else 0

/-- PDO kinds of Table 7.6; 0 for one the port does not use (R223). -/
def pdoKind (w : Word) : Nat :=
  match getBits w 30 2, getBits w 28 2 with
  | 0, _ => fixedKind (50 * getBits w 10 10)
  | 3, 0 => 2
  | 3, 2 => 3
  | 3, 1 => 5
  | _, _ => 0

/-- R234: is one port record within the ranges, with 5 V fixed first among its source PDOs? -/
def State.recordOk (s : State) (p : Nat) : Bool :=
  let a := s.recordAt p
  decide (s.sbyte a ≤ 11) && decide (1 ≤ s.sbyte (a + 1)) && decide (s.sbyte (a + 1) ≤ 11) && decide (s.sbyte (a + 2) ≤ 8)
    && (s.sbyte a == 0 || (getBits (s.sramWord (a + 4)) 30 2 == 0 && getBits (s.sramWord (a + 4)) 10 10 == 100))

/-- R234: the table's checks: magic, version, counts, length within the SRAM (log 26), 5 V first. -/
def State.policyOk (s : State) : Bool :=
  let a := s.policyAt
  s.sramWord a == 0x54504450 && s.shalf (a + 4) == 1 && decide (s.sbyte (a + 7) ≤ 16) && decide (s.sbyte (a + 6) < 16)
    && (List.range 4).all (fun p => s.sbyte (a + 6) / 2 ^ p % 2 == 0 || s.recordOk p)
    && decide (s.recordAt 4 ≤ 0x200000)

/-- R234, R241: a failed check sets PD_POLICY.BAD and leaves every port at its factory defaults, sink only with PD_EN = 1;
offset 0 names no table. -/
def State.checkPolicy (s : State) : State :=
  let bad := s.policyAt != 0 && !s.policyOk
  let s1 := s.setBit F.PD_POLICY_BAD bad
  if bad then s1.forAll fun (p : Port) t => (t.setFld (F.PD_Pp_CFG_ROLE p) 0).setBit (F.PD_Pp_CFG_PD_EN p) true else s1

def State.policyOn (s : State) : Bool := s.policyAt != 0 && !s.bit F.PD_POLICY_BAD

def State.policy (s : State) (p : Port) : PortPolicy :=
  if s.policyOn && s.sbyte (s.policyAt + 6) / 2 ^ p.val % 2 == 1 then s.portRecord (s.recordAt p.val) else PortPolicy.factory

def State.modeTable (s : State) : List ModeEntry :=
  if s.policyOn then (List.range (s.sbyte (s.policyAt + 7))).map fun i => s.modeEntry (s.policyAt + 8 + 8 * i) else []

/-- The FRS current that the Sink_Capabilities declare, in 10 mA; 0 none (Table 7.8). -/
def State.frsCurrent (s : State) (p : Port) : Nat :=
  match (s.policy p).flags / 8 % 4 with | 1 => 50 | 2 => 150 | 3 => 300 | _ => 0

end Sys2Proof.Machine
end

