-- ==== Sys2Proof/Machine/Budget.lean ====
section
/-!
DEFINITION. The shared power budget of C0 (R265-R267): supply, costs, allotment and grants.
-/

namespace Sys2Proof.Machine

/-! ### Who computes -/

/-- Core k runs the firmware of an accepted image: STATE 1 or 2, and it has been released (R67, CORE_Ck_STATUS). -/
def State.coreActs (s : State) (k : Fin 4) : Bool :=
  (s.boot.entry[k]).isSome && (s.fld (F.CORE_Ck_STATUS_STATE k) == 1 || s.fld (F.CORE_Ck_STATUS_STATE k) == 2)

/-! ### Figures, in 0.25 W at VSYS_IN (R265) -/

/-- An efficiency code; 0 acts as 1 (Table 8.8). -/
def effOf (code : Nat) : Nat := max code 1

/-- R265: what enters. -/
def State.supply (s : State) : Rat :=
  (s.fld F.PP_BUDGET_SYS_P : Rat) + ((upto 4).map fun p =>
    if (s.path p).intakeOn then ((s.path p).intake : Rat) * effOf (s.fld F.PP_EFF_SNK_EFF) / 256 else 0).sum

/-- R265: the cost of `x` steps of 0.25 W of a source port. -/
def State.portCost (s : State) (x : Nat) : Rat := (x : Rat) * 256 / effOf (s.fld F.PP_EFF_SRC_EFF)

/-- R265: the cost of `x` amperes of a rail, its voltage from LP_Lk_VREF: 1.25 mV x 4 = 1/200 of 0.25 W per ampere. -/
def State.railCost (s : State) (l : Loop) (x : Nat) : Rat :=
  (x : Rat) * vrefTarget (s.fld (F.LP_Ln_VREF_VREF l)) / 200 * 256 / effOf (s.fld F.PP_EFF_RAIL_EFF)

/-- The power of a contract in 0.25 W, rounded up: 20 mV x 10 mA x 4 = 0.0008. -/
def contractPower (volt curr : Nat) : Nat := (volt * curr * 8 + 9999) / 10000

/-! ### Consumers (R265, R266) -/

inductive Consumer where
  | rail (l : Loop)
  | port (p : Port)
  deriving DecidableEq, Repr

/-- R265: a rail in STATE 1-5 with OL_LIM above 0; a port attached as source. -/
def State.counted (s : State) : Consumer → Bool
  | .rail l => decide (1 ≤ s.loopSt l) && decide (s.loopSt l ≤ 5) && s.fld (F.PROT_Ln_OL_OL_LIM l) != 0
  | .port p => s.isSource p

/-- R266: a port's want: the Request under evaluation, else the contract; before either, its floor, which covers
the Type-C current of an attach (R269; log 21). -/
def State.portWant (s : State) (p : Port) : Nat :=
  if (s.path p).want ≠ 0 then (s.path p).want
  else if s.bit (F.PD_Pp_STATUS_CONTRACT p) then contractPower (s.fld (F.PD_Pp_VI_VOLT p)) (s.fld (F.PD_Pp_VI_CURR p))
  else s.fld (F.PP_Pp_BUD_FLOOR p)

def State.wantOf (s : State) : Consumer → Nat
  | .rail l => s.fld (F.PROT_Ln_OL_OL_LIM l)
  | .port p => max (s.portWant p) (s.path p).held

def State.floorOf (s : State) : Consumer → Nat
  | .rail l => min (s.fld (F.PP_RAILk_CAP_MIN l)) (s.wantOf (.rail l))
  | .port p => min (s.fld (F.PP_Pp_BUD_FLOOR p)) (s.wantOf (.port p))

def State.prioOf (s : State) : Consumer → Nat
  | .rail l => s.fld (F.PP_RAILk_PRIO l)
  | .port p => s.fld (F.PP_Pp_BUD_PRIO p)

def State.costOf (s : State) : Consumer → Nat → Rat
  | .rail l, x => s.railCost l x
  | .port _, x => s.portCost x

/-- Rails L0-L7, then ports P0-P3 (R266). -/
def consumers : List Consumer := ((upto 8).map fun l => .rail (railLoop l)) ++ ((upto 4).map .port)

/-- R266: SRC_PMAX, held to (16 - k)/16, in 0.25 W. -/
def State.srcMax (s : State) : Nat := s.fld F.PP_BUDGET_SRC_PMAX * (16 - s.throttle) / 16

/-- R254: the standing budget of a sink whose FRS detection is armed: 5 V x the declared FRS current. -/
def State.standing (s : State) (p : Port) : Rat :=
  if s.isSink p && s.bit (F.PD_Pp_STATUS_FRS_ARMED p) then s.portCost (contractPower 250 (s.frsCurrent p)) else 0

/-- What C0 holds back before it allots: the reserve and the standing budgets (R254, R266; log 21). -/
def State.heldBack (s : State) : Rat := (s.fld F.PP_BUDGET_RESERVE : Rat) + ((upto 4).map s.standing).sum

/-- An allotment in the making: what is left, and the steps given. -/
structure Allot where
  avail : Rat
  given : List (Consumer × Nat)
  deriving DecidableEq, Repr

def Allot.of (a : Allot) (c : Consumer) : Nat := match a.given.find? fun x => x.1 == c with | some x => x.2 | none => 0

/-- The sum of the source allotments. -/
def Allot.sources (a : Allot) : Nat :=
  (a.given.map fun x => match x.1 with | .port _ => x.2 | .rail _ => 0).sum

/-- R266: the largest step of one consumer that its want, what is left and SRC_PMAX allow. -/
def State.addStep (s : State) (a : Allot) (c : Consumer) : Nat :=
  let unit := s.costOf c 1
  let want := s.wantOf c - a.of c
  let byCost := if unit ≤ 0 then want else (max a.avail 0 / unit).floor.toNat
  let room := match c with | .port _ => s.srcMax - a.sources | .rail _ => want
  min want (min byCost room)

/-- R266: the allotment; a consumer not counted has none. -/
def State.allot (s : State) : Allot :=
  let cs := consumers.filter s.counted
  let base : Allot := { avail := s.supply - s.heldBack - (cs.map fun c => s.costOf c (s.floorOf c)).sum,
                        given := cs.map fun c => (c, s.floorOf c) }
  (List.range 8).foldl (fun a prio =>
    (cs.filter fun c => s.prioOf c == prio).foldl (fun a c =>
      let x := s.addStep a c
      { avail := a.avail - s.costOf c x,
        given := a.given.map fun g => if g.1 = c then (c, g.2 + x) else g }) a) base

/-- Are the floors alone above what there is (R266)? -/
def State.budgetShort (s : State) : Bool :=
  let cs := consumers.filter s.counted
  decide (s.supply - s.heldBack - (cs.map fun c => s.costOf c (s.floorOf c)).sum < 0)

/-- R266: write a rail's CAP; a lowered one raises CAP_LOWER (G7.15). -/
def State.writeCap (s : State) (l : Loop) (cap : Nat) : State :=
  let old := s.fld (F.PROT_Ln_OLCAP_CAP l)
  let s1 := s.setFld (F.PROT_Ln_OLCAP_CAP l) cap
  if cap < old then s1.raise 7 15 else s1

/-- R266: a recomputation: every CAP and ALLOT, SUPPLY, DEMAND (with what is held back) and SHORT. An uncounted rail has CAP 1 023 (R265). -/
def State.recompute (s : State) : State :=
  let a := s.allot
  let demand : Rat := (a.given.map fun g => s.costOf g.1 g.2).sum + s.heldBack
  let s1 := s.forAll fun (l : Fin 8) t =>
    if s.domOn 9 then t.writeCap (railLoop l) (if s.counted (.rail (railLoop l)) then a.of (.rail (railLoop l)) else 1023) else t
  let s2 := s1.forAll fun (p : Port) t => t.setFld (F.PP_Pp_MEAS_ALLOT p) (a.of (.port p))
  ((s2.setFld F.PP_BUD_STATUS_SUPPLY (min (openRat s.supply).toNat 4095)).setFld F.PP_BUD_STATUS_DEMAND
    (min (openRat demand).toNat 4095)).setBit F.PP_BUD_STATUS_SHORT s.budgetShort

/-- R225, R267: C2 asks for a source grant. It is held from C0's answer until its contract begins or its AMS ends. -/
def State.askSource (s : State) (p : Port) (want : Nat) : Bool × State :=
  let s1 := (s.modPath p fun k => { k with want := want }).recompute
  if want ≤ s1.fld (F.PP_Pp_MEAS_ALLOT p) then (true, s1.modPath p fun k => { k with want := 0, held := want })
  else (false, ((s1.modPath p fun k => { k with want := 0 }).recompute).raise 7 (5 + p.val))

/-- R230: a sink that is to become the source asks for 15 W (5 V, 3 A), as the source it would be. -/
def State.grantSource (s : State) (p : Port) : Bool × State :=
  let r := (s.setTc p 7).askSource p 60
  (r.1, r.2.setTc p 4)

/-- R225: C2 asks for a sink's intake; the largest granted is SNK_PMAX (Table 8.7). The answer is the grant. -/
def State.askIntake (s : State) (p : Port) (want : Nat) : Nat × State :=
  let max := s.fld (F.PP_Pp_BUD_SNK_PMAX p)
  if want ≤ max then (want, s) else (max, s.raise 7 (5 + p.val))

/-- The grant of R225 for whichever role the port has. -/
def State.grantRequest (s : State) (p : Port) (want : Nat) : State :=
  if s.isSource p then (s.askSource p want).2
  else
    let r := s.askIntake p want
    if want ≤ r.1 then r.2.modPath p fun k => { k with intake := want } else r.2

def doGrantRequest (p : Port) (want : Fin 1024) (s : State) : Answer :=
  s.onlyIf (s.coreActs 0 && s.coreActs 2 && s.attached p) fun s => s.grantRequest p want.val

end Sys2Proof.Machine
end

