-- ==== Sys2Proof/Machine/Policy.lean ====
section
/-!
DEFINITION. The policy table, PDOs and Requests of the port core C2 (R223, R234, R235). The bit places inside a
PDO, a Request and a structured VDM header are those of USB Power Delivery Revision 3.2, which the manual names but
does not print (log 25).
-/

namespace Sys2Proof.Machine

/-! ### PDOs (Table 7.6) -/

/-- Lowest and highest voltage in mV, within the range of the PDO's kind (Table 7.6). -/
def pdoRange (w : Word) : Nat × Nat :=
  match pdoKind w with
  | 2 => (max 3300 (100 * getBits w 8 8), min 21000 (100 * getBits w 17 8))
  | 3 => (9000, if getBits w 0 10 = 0 then 15000 else 20000)
  | 5 => (max 15000 (100 * getBits w 8 8), min 48000 (100 * getBits w 17 9))
  | _ => (50 * getBits w 10 10, 50 * getBits w 10 10)

/-- The current a PDO offers at a voltage, in 10 mA, within Table 7.6: 3 A for SPR fixed below 20 V, 5 A above and for PPS.
With it no contract exceeds 240 W (R223). -/
def pdoCurrent (w : Word) (mv : Nat) : Nat :=
  match pdoKind w with
  | 1 => min (getBits w 0 10) (if mv < 20000 then 300 else 500)
  | 2 => min (5 * getBits w 0 7) 500
  | 3 => if mv ≤ 15000 then getBits w 10 10 else getBits w 0 10
  | 5 => min 500 (if mv = 0 then 0 else getBits w 0 8 * 100000 / mv)
  | _ => min (getBits w 0 10) 500

/-- A voltage on the steps of a kind: 20 mV for PPS, 100 mV for AVS (Table 7.6). -/
def onSteps (kind mv : Nat) : Nat :=
  match kind with | 2 => mv / 20 * 20 | 3 | 5 => mv / 100 * 100 | _ => mv

/-- The cable's current in 10 mA (R227): what discovery found, else, on a port that is not the VCONN source, the
highest offered, capped at 5 A; a source without an ACK counts 3 A. -/
def State.cableCurrent (s : State) (p : Port) : Nat :=
  if (s.port p).cableKnown then if s.bit (F.PD_Pp_STATUS_CABLE_5A p) then 500 else 300
  else if s.bit (F.PD_Pp_STATUS_VCONN_SRC p) || s.isSource p then 300
  else min 500 ((s.port p).offered.foldl (fun m w => max m (pdoCurrent w (pdoRange w).2)) 0)

/-- The sink PDOs' limit at a voltage: the highest current among those that reach it, in 10 mA (log 22). -/
def sinkLimit (snk : List Word) (mv : Nat) : Nat :=
  snk.foldl (fun m w => if mv ≤ (pdoRange w).2 then max m (pdoCurrent w (min mv (pdoRange w).2)) else m) 0

/-- A candidate of R235: position, PDO, voltage in mV, current in 10 mA. -/
structure Choice where
  pos : Nat
  pdo : Word
  mv : Nat
  curr : Nat
  mismatch : Bool
  deriving DecidableEq, Repr

/-- Power in units of 1/25 of a 0.25 W step: mV x 10 mA = 10^-5 W. -/
def Choice.power (c : Choice) : Nat := c.mv * c.curr

/-- 0.25 W in the same units. -/
def quarterWatt : Nat := 25000

/-- The offered PDOs with their positions. -/
def positions (ws : List Word) : List (Nat × Word) := (ws.zipIdx 1).map fun x => (x.2, x.1)

/-- R235: the candidate an offered PDO makes under one preference, at the highest voltage that the PDO, the
preference and the sink PDOs share (log 22), its power within a grant. -/
def candidate (pol : PortPolicy) (cable grant : Nat) (f : Pref) (x : Nat × Word) : Option Choice :=
  let r := pdoRange x.2
  let top := onSteps (pdoKind x.2) (min (min r.2 (20 * f.vMax)) (pol.snk.foldl (fun m w => max m (pdoRange w).2) 0))
  if pdoKind x.2 ≠ f.kind ∨ x.2 = 0 ∨ top < r.1 ∨ top < 20 * f.vMin then none else
  let i := min (min (pdoCurrent x.2 top) cable) (sinkLimit pol.snk top)
  let i' := if top = 0 then 0 else min i (grant * quarterWatt / top)
  if f.pMin * quarterWatt ≤ top * i' then some ⟨x.1, x.2, top, i', false⟩ else none

/-- The better of two candidates: more power, or the same at a lower voltage. -/
def better (best : Option Choice) (c : Choice) : Option Choice :=
  match best with
  | none => some c
  | some b => if b.power < c.power ∨ (b.power = c.power ∧ c.mv < b.mv) then some c else some b

/-- Preferences in priority order, ties in table order (R235). -/
def sortedPrefs (ps : List Pref) : List Pref := (List.range 256).flatMap fun k => ps.filter fun f => f.prio == k

/-- R235: the choice among the offered PDOs, within a grant in 0.25 W; the 5 V PDO too keeps within it (R225). -/
def State.choose (s : State) (p : Port) (grant : Nat) : Choice :=
  let pol := s.policy p
  let offered := positions (s.port p).offered
  let cable := s.cableCurrent p
  let best := (sortedPrefs pol.prefs).findSome? fun f =>
    (offered.filterMap fun x => candidate pol cable grant f x).foldl better none
  best.getD
    { pos := 1, pdo := (s.port p).offered.headD 0, mv := 5000,
      curr := min (min (sinkLimit pol.snk 5000) (pdoCurrent ((s.port p).offered.headD 0) 5000)) (grant * quarterWatt / 5000),
      mismatch := true }

/-- R235: the Request of a choice: position, capability mismatch, USB communications, No USB Suspend, EPR, and the
operating and maximum current. -/
def State.rdo (s : State) (p : Port) (c : Choice) : Word :=
  let fl := (s.policy p).flags
  let head := c.pos * 2 ^ 28 + c.mismatch.toNat * 2 ^ 26 + fl % 2 * 2 ^ 25 + 2 ^ 24 + fl / 4 % 2 * 2 ^ 22
  BitVec.ofNat 32 (match pdoKind c.pdo with
    | 2 => head + c.mv / 20 * 512 + c.curr / 5
    | 3 | 5 => head + c.mv / 25 * 512 + c.curr / 5
    | _ => head + c.curr * 1024 + c.curr)

/-- What a Request on a PDO asks for: kind, 20 mV, 10 mA. -/
def dealOf (rdo pdo : Word) : Deal :=
  let k := pdoKind pdo
  { kind := k, rdo := rdo, pdo := pdo,
    volt := if k = 2 then getBits rdo 9 12 else if k = 3 ∨ k = 5 then getBits rdo 9 12 * 25 / 20 else (pdoRange pdo).1 / 20,
    curr := if k = 1 ∨ k = 4 then getBits rdo 10 10 else 5 * getBits rdo 0 7 }

/-- R235: the source PDOs a port advertises with a grant in 0.25 W: each current capped by the table, the cable and
the grant over the voltage; below 0.50 A a PDO is left out, but for 5 V. EPR PDOs stand from position 8 (Table 7.8). -/
def State.advertise (s : State) (p : Port) (grant : Nat) (epr : Bool) : List Word :=
  let src := (s.policy p).src
  let cable := s.cableCurrent p
  let cap (w : Word) : Nat :=
    let v := (pdoRange w).2
    if v = 0 then 0 else min (min (pdoCurrent w v) cable) (grant * quarterWatt / v)
  let set (w : Word) : Word :=
    match pdoKind w with
    | 2 => putBits w 0 7 (cap w / 5)
    | 3 => putBits (putBits w 0 10 (min (getBits w 0 10) (cap w))) 10 10 (min (getBits w 10 10) (cap w))
    | 5 => putBits w 0 8 (min (getBits w 0 8) (grant / 4))
    | _ => putBits w 0 10 (cap w)
  let keep (ws : List (Word × Nat)) : List Word :=
    (ws.filter fun x => x.2 == 0 || decide (50 ≤ cap x.1)).map fun x => set x.1
  let spr := keep (src.take 7).zipIdx
  if epr then spr ++ List.replicate (7 - spr.length) 0 ++ keep ((src.drop 7).zipIdx 7) else spr

/-- The highest power of a port's source PDOs, in 0.25 W. -/
def State.tableMax (s : State) (p : Port) : Nat :=
  (s.policy p).src.foldl (fun m w => max m (contractPower ((pdoRange w).2 / 20) (pdoCurrent w (pdoRange w).2))) 0

/-- The grant a port advertises by: what R266 would allot it as a source that wanted its table's highest power (log 21). -/
def State.offer (s : State) (p : Port) : Nat :=
  ((s.setTc p 7).modPath p fun k => { k with want := max k.want (s.tableMax p) }).allot.of (.port p)

end Sys2Proof.Machine
end

