-- ==== Sys2Proof/Machine/PartnerMem.lean ====
section
/-!
DEFINITION. The partner memory (R236, R237, R241).
-/

namespace Sys2Proof.Machine

/-- What a byte of the partner memory that nothing has written reads as: no entry is valid. -/
def pmemDefault (_ : Nat) : Byte := 0

/-- The 32 bytes of an entry. -/
def State.entry (s : State) (i : Nat) : List Byte := (List.range 32).map fun k => s.pmem.get pmemDefault (32 * i + k)

def leBytes (n x : Nat) : List Byte := (List.range n).map fun i => BitVec.ofNat 8 (x / 256 ^ i)
def leNat (bs : List Byte) : Nat := bs.foldr (fun b n => 256 * n + b.toNat) 0

/-- A field of an entry. -/
def part (e : List Byte) (off n : Nat) : List Byte := (e.drop off).take n

/-- R236: an entry is used if its CHECK holds and its valid bit is set; else it is free. -/
def entryValid (e : List Byte) : Bool :=
  crc32 (e.take 28) == BitVec.ofNat 32 (leNat (part e 28 4)) && leNat (part e 12 2) % 2 == 1

/-- Table 7.9: the entry is a cable's. -/
def entryCable (e : List Byte) : Bool := leNat (part e 12 2) / 2 % 2 == 1

def entryPinned (e : List Byte) : Bool := leNat (part e 12 2) / 4 % 2 == 1

/-- An entry with its CHECK. -/
def withCheck (body : List Byte) : List Byte := body.take 28 ++ wordBytes (crc32 (body.take 28))

/-- PD_PMEM_STATUS.USED: valid entries. -/
def State.pmemUsed (s : State) : Nat := ((List.range 1024).filter fun i => entryValid (s.entry i)).length

/-- R236: the number of entries persisted. -/
def State.persisted (s : State) : Nat := min (s.fld F.PD_PMEM_CFG_PERSIST) 1024

/-- R236, R392: store an entry; a persisted one is written to the keeper, unless the user area is protected. -/
def State.putEntry (s : State) (i : Nat) (e : List Byte) : State :=
  let s1 := { s with pmem := s.pmem.setBytes pmemDefault (32 * i) e }
  if s.persisted ≤ i then s1
  else if s1.fld F.KPR_PROT_UA_PROT = 3 then s1.raise 12 15
  else s1.kprPmem ((List.range 8).map fun k => (0xE000 + 32 * i + 4 * k, BitVec.ofNat 32 (leNat (part e (4 * k) 4))))

/-- R236: at a start, the persisted entries come from the keeper. -/
def State.loadPmem (s : State) : State :=
  { s with pmem := (List.range s.persisted).foldl (fun m i =>
      let e := (List.range 32).map fun k => s.kpr.cells.get kprDefault (0xE000 + 32 * i + k)
      if entryValid e then m.setBytes pmemDefault (32 * i) e else m) [] }

/-- The valid entries with their indices. -/
def State.entries (s : State) : List (Nat × List Byte) :=
  (((List.range 1024).map fun i => (i, s.entry i)).filter fun x => entryValid x.2)

/-- A seed as an entry: valid and pinned. -/
def seedEntry (seed : List Byte) : List Byte :=
  let e := seed ++ List.replicate 28 0
  withCheck (e.take 12 ++ leBytes 2 (leNat (part e 12 2) ||| 5) ++ (e.drop 14).take 14)

/-- R237: a seed whose IDHASH is not yet present takes a free entry, if there is one. -/
def State.placeSeed (s : State) (seed : List Byte) : State :=
  let e := seedEntry seed
  if s.entries.any fun x => part x.2 0 8 == part e 0 8 then s
  else
    match (List.range 1024).find? fun i => !entryValid (s.entry i) with
    | some i => s.putEntry i e
    | none => s

/-- R237: the seed entries of an image's CONST sections (log 23). -/
def State.placeSeeds (s : State) (sections : List (List Byte)) : State :=
  (Config.partnerSeeds sections).foldl State.placeSeed s

/-- R237: the entry of a partner: by QUICK as sink, by IDHASH as source. -/
def State.findFacts (s : State) (quick : Word) (id : List Byte) : Option (Nat × List Byte) :=
  if quick ≠ 0 then s.entries.find? fun x => !entryCable x.2 && part x.2 8 4 == wordBytes quick
  else if id ≠ [] then s.entries.find? fun x => !entryCable x.2 && part x.2 0 8 == id
  else none

def State.findPartner (s : State) (p : Port) : Option (Nat × List Byte) :=
  if s.bit (F.PD_Pp_CFG_PMEM_EN p) then s.findFacts (s.port p).quick (s.port p).idHash else none

/-- R237: the entry of a cable, by the IDHASH of its SOP' Discover Identity. -/
def State.findCable (s : State) (id : List Byte) : Option (Nat × List Byte) :=
  s.entries.find? fun x => entryCable x.2 && part x.2 0 8 == id

/-- R237: the place of a new entry: a free one, else the unpinned one with the lowest LASTUSE. -/
def State.freePlace (s : State) : Option Nat :=
  match (List.range 1024).find? fun i => !entryValid (s.entry i) with
  | some i => some i
  | none =>
    (s.entries.filter fun x => !entryPinned x.2).foldl (fun best x =>
      match best with
      | none => some x
      | some b => if leNat (part x.2 0x19 3) < leNat (part b.2 0x19 3) then some x else some b) none |>.map Prod.fst

/-- Is the entry that another replaces pinned? -/
def wasPinned (old : Option (List Byte)) : Nat := ((old.map entryPinned).getD false).toNat

/-- Table 7.9: a partner's entry, with LASTUSE. -/
def partnerEntry (f : PartnerFacts) (stamp : Nat) (old : Option (List Byte)) : List Byte :=
  let flags := 1 + wasPinned old * 4 + f.source.toNat * 8 + f.epr.toNat * 16 + f.rev * 32
  let id := if f.id = [] then (old.map fun e => part e 0 8).getD (leBytes 8 0) else f.id
  withCheck (id ++ wordBytes f.quick ++ leBytes 2 flags ++ leBytes 2 f.modes ++ wordBytes f.rdo ++ wordBytes f.pdo
    ++ leBytes 1 f.cable ++ leBytes 3 stamp)

/-- Table 7.9: a cable's entry: its IDHASH and its capabilities (DEDUCED, log 100). -/
def cableEntry (f : PartnerFacts) (stamp : Nat) (old : Option (List Byte)) : List Byte :=
  let flags := 3 + wasPinned old * 4 + f.cable / 4 % 2 * 16
  withCheck (f.cableId ++ leBytes 4 0 ++ leBytes 2 flags ++ leBytes 2 0 ++ leBytes 8 0 ++ leBytes 1 f.cable ++ leBytes 3 stamp)

/-- R237: an entry is written: it replaces its own, takes a free or least-used one, or raises PMEM_FULL. -/
def State.placeEntry (s : State) (own : Option (Nat × List Byte)) (mk : Option (List Byte) → List Byte) : State :=
  match own with
  | some x => s.putEntry x.1 (mk (some x.2))
  | none =>
    match s.freePlace with
    | some i => s.putEntry i (mk none)
    | none => s.setBit F.PD_PMEM_STATUS_PMEM_FULL true

/-- R237: C2 writes a partner's entry, and with it the entry of a cable it has identified. -/
def State.writeFacts (s : State) (f : PartnerFacts) : State :=
  let stamp := s.fld F.PD_PMEM_STAMP_STAMP
  let s1 := s.placeEntry (s.findFacts f.quick f.id) (partnerEntry f stamp)
  if f.cableId = [] then s1 else s1.placeEntry (s1.findCable f.cableId) (cableEntry f stamp)

/-- R237: the write that is due: first one that was pending as a partner detached, which is still completed. -/
def State.pmemWrite (s : State) (p : Port) : State :=
  match (s.port p).pmemKept with
  | f :: rest => (s.modPort p fun k => { k with pmemKept := rest }).writeFacts f
  | [] => (s.modPort p fun k => { k with pmemDue := false }).writeFacts (s.facts p)

def doPmemWrite (p : Port) (s : State) : Answer :=
  s.onlyIf (((s.port p).pmemDue || !(s.port p).pmemKept.isEmpty) && s.bit (F.PD_Pp_CFG_PMEM_EN p) && s.coreActs 2) fun s => s.pmemWrite p

/-- R237: a match raises PMEM_HIT and advances STAMP, and the entry's LASTUSE takes it (Tables 7.9, 7.12). -/
def State.pmemMatch (s : State) (p : Port) (x : Nat × List Byte) : State :=
  let stamp := (s.fld F.PD_PMEM_STAMP_STAMP + 1) % 2 ^ 24
  let s1 := (s.setFld F.PD_PMEM_STAMP_STAMP stamp).pdEvent p 15
  let e := withCheck (x.2.take 0x19 ++ leBytes 3 stamp)
  (s1.putEntry x.1 e).setFld (F.PD_Pp_MODES_SEEN p) (leNat (part x.2 14 2))

/-! ### PD_PMEM_CTRL (R241) -/

/-- An entry with its pinned bit set or cleared. -/
def setPinned (e : List Byte) (b : Bool) : List Byte :=
  let f := leNat (part e 12 2)
  withCheck (e.take 12 ++ leBytes 2 (f - f / 4 % 2 * 4 + b.toNat * 4) ++ (e.drop 14).take 14)

/-- OP 4: an entry is forgotten: its bytes read 0, so it is free. -/
def State.pmemForget (s : State) (i : Nat) : State := s.putEntry i (List.replicate 32 0)

/-- R241: the operation of PD_PMEM_CTRL at its GO. -/
def State.pmemOp (s : State) (op i : Nat) : State :=
  match op with
  | 1 => (List.range 8).foldl (fun t k =>
      t.setReg (A.PD_PMEM_DATAk k) (BitVec.ofNat 32 (leNat (part (s.entry i) (4 * k) 4)))) s
  | 2 => if entryValid (s.entry i) then s.putEntry i (setPinned (s.entry i) true) else s
  | 3 => if entryValid (s.entry i) then s.putEntry i (setPinned (s.entry i) false) else s
  | 4 => s.pmemForget i
  | 5 => (s.entries.filter fun x => !entryPinned x.2).foldl (fun t x => t.pmemForget x.1) s
  | _ => s

end Sys2Proof.Machine
end

