-- ==== Sys2Proof/Machine/Pd.lean ====
section
/-!
DEFINITION. The protocol layer and the steps the policy engine shares: sending, AMSs, capabilities, contracts,
swaps and discovery (R216-R237).
-/

namespace Sys2Proof.Machine

/-! ### Sending (R216, R218) -/

/-- The port core runs its policy engine on the ports (R207, R210). -/
def State.c2Acts (s : State) : Bool := s.coreActs 2 && !s.deadBattery && s.domOn 10

/-- Arm PD timers, or stop them (R220). -/
def State.arm (s : State) (p : Port) (t : PdTimer) : State :=
  s.modPort p fun k => { k with timers := t :: k.timers.erase t }
def State.disarm (s : State) (p : Port) (t : PdTimer) : State := s.modPort p fun k => { k with timers := k.timers.erase t }
def State.armed (s : State) (p : Port) (t : PdTimer) : Bool := (s.port p).timers.contains t

/-- A message goes out on the line with its MessageID, and awaits its GoodCRC within tReceive (R216). -/
def State.transmit (s : State) (p : Port) (x : PdTx) : State :=
  let m : PdMsg := { x.msg with id := Fin.ofNat 8 (s.port p).txId[sopIdx x.msg.sop] }
  ((s.emit (.pd p m)).modPort p fun k => { k with tx := some { x with msg := m }, retries := 0 }).arm p .receive

/-- A transmission of the port: it waits while another awaits its GoodCRC. -/
def State.queueTx (s : State) (p : Port) (x : PdTx) : State :=
  if (s.port p).tx.isNone then s.transmit p x else s.modPort p fun k => { k with waiting := k.waiting ++ [x] }

/-- The transmission in flight is over; the next that waits goes out. -/
def State.nextTx (s : State) (p : Port) : State :=
  let s1 := s.modPort p fun k => { k with tx := none, retries := 0, timers := k.timers.erase .receive }
  match (s1.port p).waiting with
  | x :: rest => (s1.modPort p fun k => { k with waiting := rest }).transmit p x
  | [] => s1

/-! ### Extended messages in chunks (R222; log 97) -/

/-- The extended messages of Table 7.5 that carry a data block. -/
def extended : PdType → Bool
  | .sourceCapabilitiesExt | .status | .ppsStatus | .batteryCapabilities | .manufacturerInfo | .eprSourceCapabilities
  | .eprSinkCapabilities => true
  | _ => false

/-- The length of a data block of `n` words: the specification fixes that of some. -/
def extSize (t : PdType) (n : Nat) : Nat :=
  match t with
  | .sourceCapabilitiesExt => 25 | .status => 7 | .batteryCapabilities => 9 | .manufacturerInfo => 26 | _ => 4 * n

/-- Bytes as words, the last one filled up with zeros. -/
def bytesWords (bs : List Byte) : List Word :=
  (List.range ((bs.length + 3) / 4)).map fun i =>
    bs.getD (4 * i + 3) 0 ++ bs.getD (4 * i + 2) 0 ++ bs.getD (4 * i + 1) 0 ++ bs.getD (4 * i) 0

/-- The words of a chunk: the extended header (chunked, chunk number, request, data size), then up to 26 bytes. -/
def chunkWords (n size : Nat) (request : Bool) (bs : List Byte) : List Word :=
  let h := 0x8000 + n * 2048 + request.toNat * 1024 + size
  bytesWords ([BitVec.ofNat 8 h, BitVec.ofNat 8 (h / 256)] ++ bs)

def chunkBytes : Nat := 26

/-- Chunk `n` of a data block. -/
def chunkOf (data : List Byte) (n : Nat) : List Word :=
  chunkWords n data.length false ((data.drop (chunkBytes * n)).take chunkBytes)

/-- Send a message; an extended one begins with its first chunk. -/
def State.send (s : State) (p : Port) (line : Sop) (t : PdType) (objs : List Word) : State :=
  if extended t then
    let data := (objs.flatMap wordBytes).take (extSize t objs.length)
    (s.modPort p fun k => { k with txExt := data }).queueTx p { msg := { sop := line, type := t, id := 0, objs := chunkOf data 0 }, host := false }
  else s.queueTx p { msg := { sop := line, type := t, id := 0, objs := objs }, host := false }

/-- Send on SOP without objects. -/
def State.sendCtl (s : State) (p : Port) (t : PdType) : State := s.send p .sop t []

/-- Collect `n` free words: a payload that the manual names but does not print (log 25). -/
def State.freshWords : Nat → State → List Word × State
  | 0, s => ([], s)
  | n + 1, s => let r := s.fresh 32; let q := State.freshWords n r.2; (r.1 :: q.1, q.2)

/-! ### Atomic message sequences (R215, R218) -/

/-- R231, R254: detection is disarmed; MODE 3 is a sink's with detection armed. -/
def State.disarmFrs (s : State) (p : Port) : State :=
  let s1 := s.setBit (F.PD_Pp_STATUS_FRS_ARMED p) false
  if s1.mode p = 3 then s1.setMode p 2 else s1

/-- An AMS that changes power (R231). -/
def powerAms (a : Ams) : Bool := a == .power || a == .prSwap || a == .frSwap || a == .epr

/-- An AMS begins; as source, one of this port's own is begun under SinkTxNG (R218). Detection of FRS is disarmed for
one that changes power (R231). -/
def State.beginAms (s : State) (p : Port) (a : Ams) (own : Bool) (step : Nat) : State :=
  let s1 := (s.modPort p fun k => { k with ams := a, own := own, step := step, txNg := own }).setBit (F.PD_Pp_STATUS_AMS p) true
  if powerAms a then s1.disarmFrs p else s1

/-- R218: no AMS is in flight and nothing is being sent. -/
def State.lineFree (s : State) (p : Port) : Bool :=
  !s.bit (F.PD_Pp_STATUS_AMS p) && (s.port p).tx.isNone && (s.port p).waiting.isEmpty

/-- R218: in a contract an AMS may begin, as sink only while the partner presents SinkTxOK. -/
def State.txOk (s : State) (p : Port) : Bool :=
  s.lineFree p && s.bit (F.PD_Pp_STATUS_CONTRACT p) && (s.isSource p || s.fld (F.PD_Pp_STATUS_PARTNER_RP p) == 3)

/-- R231: detection is armed in Attached.SNK with an explicit contract, FRS_EN and a declared current, but not during an
AMS that changes power. -/
def State.armFrs (s : State) (p : Port) : State :=
  if s.bit (F.PD_Pp_CFG_FRS_EN p) && s.isSink p && s.bit (F.PD_Pp_STATUS_CONTRACT p) && s.frsCurrent p != 0
      && !powerAms (s.port p).ams then
    let s1 := s.setBit (F.PD_Pp_STATUS_FRS_ARMED p) true
    if s1.mode p = 2 then s1.setMode p 3 else s1
  else s.disarmFrs p

/-! ### Capabilities (R235) -/

/-- Send Source_Capabilities, or in EPR mode EPR_Source_Capabilities, capped by the grant; on the port's own account or at
the partner's request. -/
def State.sendSourceCaps (s : State) (p : Port) (own : Bool) : State :=
  let grant := s.offer p
  let epr := s.bit (F.PD_Pp_STATUS_EPR_MODE p)
  let s1 := (s.modPort p fun k => { k with advert := grant, capsDue := false }).beginAms p .power own 0
  (s1.send p .sop (if epr then .eprSourceCapabilities else .sourceCapabilities) (s.advertise p grant epr)).arm p .senderResponse

/-! ### Vendor-defined messages (R232, R233; log 25) -/

/-- A structured VDM header: SVID, object position, command type (0 REQ, 1 ACK, 2 NAK, 3 BUSY), command. -/
def vdmHeader (svid pos type cmd : Nat) : Word := BitVec.ofNat 32 (svid * 65536 + 0x8000 + 0x2800 + pos * 256 + type * 64 + cmd)

def svidPd : Nat := 0xFF00

/-- An own VDM AMS: a structured request. -/
def State.askVdm (s : State) (p : Port) (line : Sop) (svid pos cmd : Nat) (a : Ams) : State :=
  ((s.beginAms p a true cmd).send p line .vendorDefined [vdmHeader svid pos 0 cmd]).arm p .senderResponse

/-- The object position of mode table entry `i`: as the partner's Discover Modes gave it. That of a mode remembered and
not discovered is stated nowhere: a free value (log 98). -/
def State.modePosition (s : State) (p : Port) (i : Nat) : Nat × State :=
  match (s.port p).modePos.find? fun x => x.1 == i with
  | some x => (x.2, s)
  | none => let r := s.fresh 3; (r.1.toNat, r.2)

/-- R232: enter or leave mode table entry `i`: an Enter Mode or Exit Mode request on its SVID. -/
def State.askMode (s : State) (p : Port) (i : Nat) (enter : Bool) : State :=
  match s.modeTable[i]? with
  | some e =>
    let r := s.modePosition p i
    (r.2.askVdm p .sop e.svid r.1 (if enter then 4 else 5) .vdm).modPort p fun k => { k with modeAsk := some i }
  | none => s

/-- R233: the owner host's VDM is sent; one that waited no longer does. -/
def State.sendHostVdm (s : State) (p : Port) : State :=
  let line : Sop := match s.fld (F.PD_Pp_VDM_TXCTL_SOP p) with | 1 => .prime | 2 => .double | _ => .sop
  let n := min (max (s.fld (F.PD_Pp_VDM_TXCTL_COUNT p)) 1) 8
  (s.modPort p fun k => { k with vdmDue := false }).queueTx p
    { msg := { sop := line, type := .vendorDefined, id := 0, objs := (List.range n).map fun i => s.reg (A.PD_Pp_VDM_TXk p i) },
      host := true }

/-- R221: the sink resends the Request of its contract: an AMS that hardware runs. -/
def State.sendRefresh (s : State) (p : Port) : State :=
  let rdo := s.reg (A.PD_Pp_RDO p)
  let pdo := s.reg (A.PD_Pp_PDO p)
  let s1 := (s.beginAms p .power true 1).modPort p fun k =>
    { k with deal := some (dealOf rdo pdo), refresh := true, refreshDue := false }
  let s2 := s1.modPath p fun k => { k with held := k.intake }
  (if s.bit (F.PD_Pp_STATUS_EPR_MODE p) then s2.send p .sop .eprRequest [rdo, pdo] else s2.send p .sop .request [rdo]).arm p
    .senderResponse

/-- R230, R253: REQ_PR: for a move to source C0 must first grant 15 W; where it does not, nothing is sent (log 98). -/
def State.sendPrSwap (s : State) (p : Port) : State :=
  let s0 := s.setBit (F.PD_Pp_CTRL_REQ_PR p) false
  let r := if s.isSink p then s0.grantSource p else (true, s0)
  if r.1 then ((r.2.beginAms p .prSwap true 1).sendCtl p .prSwap).arm p .senderResponse else r.2

/-- The next auto-enter mode that the partner offers, in table order (R232). -/
def State.nextAuto (s : State) (p : Port) : Option Nat :=
  let t := s.modeTable
  (List.range t.length).find? fun i => s.bit ((F.PD_Pp_MODES_SEEN p).at i) && (t[i]?.any fun e => e.auto)
    && !s.bit ((F.PD_Pp_MODES_ENTERED p).at i) && decide ((s.port p).modeNext ≤ i)

/-- R232, R237: the next step of discovery, one AMS each: the partner's identity; as DFP its SVIDs, the modes of each
listed one, and the auto-enter modes in table order, one at a time. -/
def State.discoverStep (s : State) (p : Port) : State :=
  let k := s.port p
  if !k.asked && k.idHash.isEmpty then (s.modPort p fun k => { k with asked := true }).askVdm p .sop svidPd 0 1 .discover
  else if !s.bit (F.PD_Pp_STATUS_DATA_ROLE p) then s
  else if k.askSvids then (s.modPort p fun k => { k with askSvids := false }).askVdm p .sop svidPd 0 2 .discover
  else match k.svids with
    | v :: _ => s.askVdm p .sop v 0 3 .discover
    | [] =>
      if !k.entering then s
      else match s.nextAuto p with
        | some i => (s.modPort p fun k => { k with modeNext := i + 1 }).askMode p i true
        | none => s.modPort p fun k => { k with entering := false }

/-- ENTER of a mode the partner does not offer, and EXIT of one not entered, are done without a request (log 98). -/
def State.idleModes (s : State) (p : Port) : State :=
  let i := s.fld (F.PD_Pp_CTRL_MODE_IDX p)
  let s1 := if i < s.modeTable.length ∧ s.bit ((F.PD_Pp_MODES_SEEN p).at i) then s else s.setBit (F.PD_Pp_CTRL_ENTER p) false
  if s.bit ((F.PD_Pp_MODES_ENTERED p).at i) then s1 else s1.setBit (F.PD_Pp_CTRL_EXIT p) false

/-- What waits for an AMS to end: a refresh, which needs no core (R221); then REQ_DR, REQ_PR, ENTER, EXIT and a VDM of the
owner host (R229-R233, Table 7.10), new capabilities (R268), and the discovery of the partner (R232, R237). -/
def State.startPending (s : State) (p : Port) : State :=
  if !s.txOk p then s
  else if (s.port p).refreshDue then s.sendRefresh p
  else if !s.c2Acts then s else
  let s := s.idleModes p
  if s.bit (F.PD_Pp_CTRL_REQ_DR p) then
    (((s.setBit (F.PD_Pp_CTRL_REQ_DR p) false).beginAms p .drSwap true 1).sendCtl p .drSwap).arm p .senderResponse
  else if s.bit (F.PD_Pp_CTRL_REQ_PR p) then s.sendPrSwap p
  else if s.bit (F.PD_Pp_CTRL_ENTER p) then s.askMode p (s.fld (F.PD_Pp_CTRL_MODE_IDX p)) true
  else if s.bit (F.PD_Pp_CTRL_EXIT p) then s.askMode p (s.fld (F.PD_Pp_CTRL_MODE_IDX p)) false
  else if (s.port p).vdmDue then s.sendHostVdm p
  else if (s.port p).capsDue && s.isSource p then s.sendSourceCaps p true
  else s.discoverStep p

/-- An AMS ends: SinkTxOK again, a grant it held is returned (R267), and what waits begins. -/
def State.finishAms (s : State) (p : Port) : State :=
  let s1 := (s.clearAms p).modPath p fun k => { k with want := 0, held := 0 }
  (s1.armFrs p).startPending p

/-! ### Source start -/

/-- R248, R227: a source at vSafe5V begins its negotiation. -/
def State.startSourcePd (s : State) (p : Port) : State :=
  if (s.port p).pdEn && s.c2Acts && !(s.policy p).src.isEmpty then
    ((s.modPort p fun k => { k with caps := 1 }).sendSourceCaps p true).arm p .typeCSendSourceCap
  else s

/-! ### Contracts -/

/-- The deal of an AMS comes into force: PD_Pp_VI, RDO, PDO, event CONTRACT (R240). -/
def State.makeContract (s : State) (p : Port) (d : Deal) (sourcing : Bool) : State :=
  let s1 := ((((s.setBit (F.PD_Pp_STATUS_CONTRACT p) true).setFld (F.PD_Pp_VI_VOLT p) d.volt).setFld (F.PD_Pp_VI_CURR p)
    d.curr).setBit (F.PD_Pp_VI_SOURCING p) sourcing).setFld (F.PD_Pp_VI_KIND p) d.kind
  ((s1.setReg (A.PD_Pp_RDO p) d.rdo).setReg (A.PD_Pp_PDO p) d.pdo).pdEvent p 2 |>.modPort p fun k =>
    { k with pmemDue := true, resets := 0 }

/-- R250: the source current limit of a deal: the operating current of PPS, else the contract current + OCA. -/
def State.sourceLimit (s : State) (p : Port) (d : Deal) : Nat :=
  if d.kind = 2 then d.curr else d.curr + s.fld (F.PP_Pp_SRC_OCA p)

/-- The keep-alive and refresh timers that a contract runs (R220, R221). -/
def State.armContract (s : State) (p : Port) (kind : Nat) : State :=
  let s1 := if kind = 2 ∨ kind = 3 ∨ kind = 5 then s.arm p (if s.isSource p then .ppsTimeout else .ppsRequest)
    else (s.disarm p .ppsTimeout).disarm p .ppsRequest
  let s2 := (s1.disarm p .sinkWaitCap).disarm p .psTransition
  if s2.bit (F.PD_Pp_STATUS_EPR_MODE p) then s2.arm p (if s2.isSource p then .sourceEprKeepAlive else .sinkEprKeepAlive)
  else (s2.disarm p .sourceEprKeepAlive).disarm p .sinkEprKeepAlive

/-- R225 step 5, R250: the source sends PS_RDY: the contract is made, and a lower limit takes effect. -/
def State.sourceReady (s : State) (p : Port) : State :=
  match (s.port p).deal with
  | some d =>
    let s1 := (s.makeContract p d true).setFld (F.PP_Pp_RUN_ILIM p) (s.sourceLimit p d)
    (s1.sendCtl p .psRdy).armContract p d.kind
  | none => s

/-- R225: the sink's Request. -/
def State.sendRequest (s : State) (p : Port) (c : Choice) : State :=
  let rdo := s.rdo p c
  let s1 := (s.beginAms p .power true 1).modPort p fun k => { k with deal := some (dealOf rdo c.pdo) }
  let s2 := if s1.bit (F.PD_Pp_STATUS_EPR_MODE p) then s1.send p .sop .eprRequest [rdo, c.pdo] else s1.send p .sop .request [rdo]
  s2.arm p .senderResponse

/-- R225, R235: choose, ask C0 for the intake, and choose again within the grant if it refuses. -/
def State.requestBest (s : State) (p : Port) : State :=
  let c := s.choose p 4095
  let want := contractPower (c.mv / 20) c.curr
  let r := s.askIntake p want
  let c' := if want ≤ r.1 then c else r.2.choose p r.1
  (r.2.modPath p fun k => { k with held := contractPower (c'.mv / 20) c'.curr }).sendRequest p c'

/-! ### Cables (R226, R227) -/

/-- R226: VCONN may be switched on: VCONN_EN, VCONN_IN good, and no overload since the attach. -/
def State.vconnMay (s : State) (p : Port) : Bool :=
  s.bit (F.PD_Pp_CFG_VCONN_EN p) && s.bit F.SUPPLY_STATUS_VCONN_IN_OK && !(s.port p).vconnOff

/-- R226: VCONN on in Attached.SRC, if the other pin sees Ra. -/
def State.vconnOn (s : State) (p : Port) : State :=
  let other := if s.fld (F.PD_Pp_STATUS_ORIENT p) = 0 then (s.port p).cc2 else (s.port p).cc1
  if other == .ra && s.vconnMay p then s.setBit (F.PD_Pp_STATUS_VCONN_SRC p) true else s

/-- R227: one Discover Identity to SOP', up to 20. -/
def State.discoverCable (s : State) (p : Port) : State :=
  if s.bit (F.PD_Pp_STATUS_VCONN_SRC p) && !(s.port p).cableKnown && decide ((s.port p).discovers < 20) && s.c2Acts then
    (s.modPort p fun k => { k with discovers := k.discovers + 1 }).send p .prime .vendorDefined [vdmHeader svidPd 0 0 1]
  else s

/-- R228: the port becomes the VCONN source by a swap: it turns VCONN on before its PS_RDY, and finds its cable (R227).
Where VCONN must stay off it sends none. -/
def State.vconnTake (s : State) (p : Port) : State :=
  if s.vconnMay p then
    let s1 := (s.setBit (F.PD_Pp_STATUS_VCONN_SRC p) true).modPort p fun k => { k with partnerVconn := false }
    (((s1.sendCtl p .psRdy).pdEvent p 8).finishAms p).discoverCable p
  else s

/-- R227: the capabilities in a cable's VDO, as the CABLE byte of Table 7.9 has them: current (bits 6:5), voltage (bits
10:9), EPR capability (bit 17); active by its ID Header. -/
def cableByte (objs : List Word) : Nat :=
  let vdo := objs.getD 4 0
  (getBits vdo 5 2 == 2).toNat + (getBits vdo 9 2 == 3).toNat * 2 + getBits vdo 17 1 * 4
    + (getBits (objs.getD 1 0) 27 3 == 4).toNat * 8

/-- The IDHASH of a Discover Identity ACK (Table 7.9). -/
def idHashOf (objs : List Word) : List Byte := (sha256 ((objs.drop 1).flatMap wordBytes)).take 8

/-- R227, R237: the cable's ACK. A cable remembered under the same IDHASH has its remembered capabilities. Whether an
active cable answers on SOP'' stands in bit 3 of its VDO (log 25). -/
def State.cableAck (s : State) (p : Port) (objs : List Word) : State :=
  let id := idHashOf objs
  let c := match (if s.bit (F.PD_Pp_CFG_PMEM_EN p) then s.findCable id else none) with
    | some x => leNat (part x.2 0x18 1)
    | none => cableByte objs
  let active := c / 8 % 2 == 1
  let s1 := s.modPort p fun k =>
    { k with cableKnown := true, cable50V := c / 2 % 2 == 1, cableActive := active,
             cableDouble := active && getBits (objs.getD 4 0) 3 1 == 1, cableId := id }
  ((s1.setFld (F.PD_Pp_STATUS_CABLE_5A p) (c % 2)).setBit (F.PD_Pp_STATUS_CABLE_EPR p) (c % 8 == 7)).pdEvent p 10

/-! ### EPR (R224) -/

/-- R224: the conditions for EPR mode. -/
def State.eprReady (s : State) (p : Port) : Bool :=
  s.bit (F.PD_Pp_CFG_EPR_EN p) && s.bit (F.PD_Pp_STATUS_CONTRACT p) && (s.port p).cableKnown && s.bit (F.PD_Pp_STATUS_CABLE_EPR p)
    && (if s.isSource p then !((s.policy p).src.drop 7).isEmpty
        else (s.port p).eprOffered && (s.policy p).prefs.any fun f => f.kind == 4 || f.kind == 5)

/-! ### Role swaps (R229-R231, R253) -/

def State.toggleData (s : State) (p : Port) : State :=
  (s.setBit (F.PD_Pp_STATUS_DATA_ROLE p) (!s.bit (F.PD_Pp_STATUS_DATA_ROLE p))).pdEvent p 6

/-- R253: the Accept of a power role swap. Initially sink: the loop stops and the FETs open at once. Initially
source: both happen 30 ms later (PR_SWAP_SOURCE_OFF). -/
def State.prAccepted (s : State) (p : Port) : State :=
  let s1 := (s.modPort p fun k => { k with step := 2, span := .prSwap }).disarm p .senderResponse
  if s1.isSource p then s1
  else (((s1.pathOff p).openFets p).modPath p fun k => { k with intake := 0, intakeOn := false })

/-- The pin of the orientation carries a termination now (R211). -/
def State.setCc (s : State) (p : Port) (c : CcTerm) : State :=
  let o := s.fld (F.PD_Pp_STATUS_ORIENT p)
  s.modPort p fun k => if o = 0 then { k with cc1 := c } else { k with cc2 := c }

/-- The contract of the old role ends; the Type-C state follows the new role, and the partner presents the other
termination: Rd to a source, Rp to a sink, here the Rp that every source may have, default (DEDUCED, log 101). -/
def State.takeRole (s : State) (p : Port) (source : Bool) : State :=
  ((((s.endContract p).setTc p (if source then 7 else 4)).setBit (F.PD_Pp_STATUS_PWR_ROLE p) source).setCc p
    (if source then .rd else .rp 0)).setFld (F.PD_Pp_STATUS_PARTNER_RP p) (if source then 0 else 1)

end Sys2Proof.Machine
end

