-- ==== Sys2Proof/Machine/PdRx.lean ====
section
/-!
DEFINITION. What the ports do with the messages they receive (R216-R237): acknowledgement and buffering in
hardware, and the policy engine's answers.
-/

namespace Sys2Proof.Machine

/-! ### Buffers (R216, R217) -/

/-- The oldest buffered message whose type satisfies `f`, taken out of its buffer. -/
def State.takeMsg (s : State) (p : Port) (f : PdType → Bool) : Option (PdMsg × State) :=
  match (s.port p).rx.find? fun m => f m.type with
  | some m => some (m, s.modPort p fun k => { k with rx := k.rx.erase m })
  | none =>
    match (s.port p).rxPrime.find? fun m => f m.type with
    | some m => some (m, s.modPort p fun k => { k with rxPrime := k.rxPrime.erase m })
    | none => none

/-- Messages that a row of their own makes C2, or the keep-alive hardware, take, in the role that expects them (log 19). -/
def State.rowTakes (s : State) (p : Port) : PdType → Bool
  | .sourceCapabilities | .eprSourceCapabilities => s.isSink p
  | .request | .eprRequest | .eprModeEnter => s.isSource p
  | .eprKeepAlive => s.isSource p && s.bit (F.PD_Pp_STATUS_EPR_MODE p)
  | .frSwap => s.isSource p && (s.port p).span == .frs
  | .drSwap | .prSwap | .vconnSwap | .psRdy => true
  | _ => false

/-- R221: the answers of a refresh are taken by hardware; every other message by C2. -/
def State.takes (s : State) (p : Port) (t : PdType) : Bool :=
  s.c2Acts || ((s.port p).refresh && (t == .accept || t == .reject || t == .wait || t == .psRdy))

/-! ### Answers of the policy engine -/

/-- Enter or leave a mode: PD_Pp_MODES and event MODE (R232). -/
def State.setMode_ (s : State) (p : Port) (i : Nat) (on : Bool) : State :=
  (s.setFld ((F.PD_Pp_MODES_ENTERED p).at i) on.toNat).pdEvent p 11

/-- The mode table entries of an SVID that a mode VDO matches under the mask, with the object position of the first that
does (R232): Discover Modes lists the modes by position, from 1. -/
def State.modesSeen (s : State) (svid : Nat) (vdos : List Word) : List (Nat × Nat) :=
  s.modeTable.zipIdx.filterMap fun x =>
    if x.1.svid == svid then (vdos.findIdx? fun w => w &&& x.1.mask == x.1.mask).map fun i => (x.2, i + 1) else none

/-- R233: pass a VDM to the owner host of the port. A structured request is answered NAK where there is none, and BUSY
while one is waiting; a response gets no answer (DEDUCED, log 98). -/
def State.passVdm (s : State) (p : Port) (m : PdMsg) (request : Bool) : State :=
  let h := m.objs.headD 0
  let reply (t : Nat) (s : State) : State :=
    if request then s.send p m.sop .vendorDefined [BitVec.ofNat 32 (h.toNat - getBits h 6 2 * 64 + t * 64)] else s
  if getBits h 15 1 = 1 ∧ s.fld (F.HP_OWNERr_OWNER (8 + p.val)) = 3 then reply 2 s
  else if s.bit (F.PD_Pp_VDM_RXCTL_VALID p) then reply 3 s
  else
    let s1 := (upto 8).foldl (fun t k => t.setReg (A.PD_Pp_VDM_RXk p k) (m.objs.getD k.val 0)) s
    (((s1.setFld (F.PD_Pp_VDM_RXCTL_COUNT p) (min m.objs.length 8)).setFld (F.PD_Pp_VDM_RXCTL_SOP p) (sopIdx m.sop).val).setBit
      (F.PD_Pp_VDM_RXCTL_VALID p) true).pdEvent p 12

/-- R232: an ENTER or EXIT of the owner host about mode table entry `i` is done. -/
def State.modeDone (s : State) (p : Port) (i : Nat) : State :=
  if s.fld (F.PD_Pp_CTRL_MODE_IDX p) = i then
    (s.setBit (F.PD_Pp_CTRL_ENTER p) false).setBit (F.PD_Pp_CTRL_EXIT p) false
  else s

/-- A discovery or mode command of this port was refused or not answered: the next takes its turn. -/
def State.vdmFails (s : State) (p : Port) : State :=
  match (s.port p).ams, (s.port p).step with
  | .discover, 3 => s.modPort p fun k => { k with svids := k.svids.drop 1 }
  | .vdm, _ => match (s.port p).modeAsk with | some i => s.modeDone p i | none => s
  | _, _ => s

/-- R232, R237: the partner's identity. A remembered one confirms what the match began; another, or an unknown one that
answers as a UFP (its ID Header's UFP product type, log 25), is discovered in full. -/
def State.identified (s : State) (p : Port) (objs : List Word) : State :=
  let id := idHashOf objs
  let s1 := s.modPort p fun k => { k with idHash := id }
  let full (s : State) : State := s.modPort p fun k =>
    { k with askSvids := getBits (objs.getD 1 0) 27 3 != 0, svids := [], entering := false, modeNext := 0, modePos := [] }
  match s1.findPartner p with
  | some x =>
    if part x.2 0 8 = id then if s1.isSource p then (s1.pmemMatch p x).modPort p fun k => { k with entering := true } else s1
    else full (s1.modPort p fun k => { k with pmemDue := true })
  | none => full s1

/-- The ACK of a discovery or mode command of this port (R232, R237). -/
def State.vdmAck (s : State) (p : Port) (m : PdMsg) (svid cmd : Nat) : State :=
  match cmd with
  | 1 => (s.identified p m.objs).finishAms p
  | 2 =>
    let got := (m.objs.drop 1).flatMap fun w => [getBits w 16 16, getBits w 0 16]
    let listed := (s.modeTable.map fun e => e.svid).eraseDups.filter fun v => got.contains v
    (s.modPort p fun k => { k with svids := listed, entering := true, modeNext := 0 }).finishAms p
  | 3 =>
    let seen := s.modesSeen svid (m.objs.drop 1)
    let s1 := seen.foldl (fun t x => t.setFld ((F.PD_Pp_MODES_SEEN p).at x.1) 1) s
    let s2 := if seen = [] then s1 else (s1.pdEvent p 11).modPort p fun k => { k with pmemDue := true }
    (s2.modPort p fun k => { k with svids := k.svids.drop 1, modePos := k.modePos ++ seen }).finishAms p
  | _ =>
    match (s.port p).modeAsk with
    | some i => (((s.setMode_ p i (cmd == 4)).modeDone p i)).finishAms p
    | none => s.finishAms p

/-- A VDM received (R227, R232, R233): a request, a response to the port's own command, or one for the owner host. -/
def State.rxVdm (s : State) (p : Port) (m : PdMsg) : State :=
  let h := m.objs.headD 0
  let svid := getBits h 16 16
  let cmd := getBits h 0 5
  let type := getBits h 6 2
  let passed := s.modeTable.any (fun e => e.svid == svid) && cmd != 4 && cmd != 5
  let k := s.port p
  if getBits h 15 1 = 0 then s.passVdm p m false
  else if type = 0 then
    if passed then s.passVdm p m true else s.send p m.sop .vendorDefined [BitVec.ofNat 32 (h.toNat + 2 * 64)]
  else if m.sop = .prime ∧ svid = svidPd ∧ cmd = 1 then
    if type = 1 ∧ 0 < k.discovers ∧ !k.cableKnown then s.cableAck p m.objs else s
  else if m.sop = .sop ∧ (k.ams = .discover ∨ k.ams = .vdm) ∧ k.own ∧ cmd = k.step then
    if type = 1 then s.vdmAck p m svid cmd else (s.vdmFails p).finishAms p
  else if passed then s.passVdm p m false
  else s

/-- Accept of an AMS of this port (R225, R228-R231). -/
def State.rxAccept (s : State) (p : Port) : State :=
  let s0 := s.disarm p .senderResponse
  match (s.port p).ams with
  | .power =>
    -- R250: a higher limit takes effect at the Accept; R265: a lowered intake counts from it
    match (s.port p).deal with
    | some d =>
      let s1 := if s0.sinks p ∧ s0.fld (F.PP_Pp_RUN_ILIM p) < d.curr then s0.setFld (F.PP_Pp_RUN_ILIM p) d.curr else s0
      let s2 := s1.modPath p fun k => { k with intake := if k.intakeOn && decide (k.held < k.intake) then k.held else k.intake }
      (s2.modPort p fun k => { k with step := 2 }).arm p .psTransition
    | none => s0
  | .drSwap => (s0.toggleData p).finishAms p
  | .prSwap => s0.prAccepted p
  | .vconnSwap =>
    if s0.bit (F.PD_Pp_STATUS_VCONN_SRC p) then s0.modPort p fun k => { k with step := 2 } else s0.vconnTake p
  | .frSwap => s0.modPort p fun k => { k with step := 2 }
  | .none =>
    -- the Accept of a Soft_Reset of this port (R220)
    if !s.armed p .senderResponse then s else if s0.isSource p then s0.startSourcePd p else s0.arm p .sinkWaitCap
  | _ => s0.finishAms p

/-- Reject, Wait or Not_Supported of an AMS of this port. -/
def State.rxReject (s : State) (p : Port) : State := if (s.port p).own then (s.vdmFails p).finishAms p else s

/-- R216, R220: Soft_Reset received: MessageIDs and AMS end; the source offers again, the sink waits. -/
def State.rxSoftReset (s : State) (p : Port) : State :=
  let s1 := (((s.endAms p).resetIds p).pdEvent p 5).sendCtl p .accept
  if s1.isSource p then s1.startSourcePd p else s1.arm p .sinkWaitCap

/-- R222: BIST Carrier Mode (mode 5, log 25) sends the carrier, Test Data (mode 8) is acknowledged and does nothing more;
every other BIST is not supported. -/
def State.rxBist (s : State) (p : Port) (m : PdMsg) : State :=
  match getBits (m.objs.headD 0) 28 4 with
  | 5 => s.emit (.carrier p)
  | 8 => s
  | _ => s.sendCtl p .notSupported

/-- C2 answers a message that has no row of its own (R222; log 19). -/
def State.answer (s : State) (p : Port) (m : PdMsg) : State :=
  let reply (t : PdType) (n : Nat) : State := let r := State.freshWords n s; r.2.send p m.sop t r.1
  match m.type with
  | .accept => s.rxAccept p
  | .reject | .wait | .notSupported => s.rxReject p
  | .softReset => s.rxSoftReset p
  | .getSourceCap =>
    -- a sink tells what it would offer as source; no contract follows from that
    if (s.policy p).src.isEmpty then s.sendCtl p .notSupported
    else if s.isSource p then s.sendSourceCaps p false
    else s.send p .sop .sourceCapabilities (s.advertise p (s.offer p) false)
  | .getSinkCap => s.send p .sop .sinkCapabilities ((s.policy p).snk.take 7)
  | .eprGetSourceCap => s.send p .sop .eprSourceCapabilities (s.advertise p (s.offer p) true)
  | .eprGetSinkCap => s.send p .sop .eprSinkCapabilities (s.policy p).snk
  | .getSourceCapExt => reply .sourceCapabilitiesExt 7
  | .getStatus => reply .status 2
  | .getPpsStatus =>
    let r := s.fresh 32
    r.2.send p .sop .ppsStatus [putBits r.1 27 1 (s.fld (F.PP_Pp_STATUS_CL p))]
  | .getRevision => reply .revision 1
  | .getManufacturerInfo => reply .manufacturerInfo 7
  | .getBatteryCap => s.send p .sop .batteryCapabilities ((List.range 4).map fun k => s.reg (A.PD_Pp_BATTk p k))
  | .getBatteryStatus => s.send p .sop .batteryStatus [s.reg (A.PD_Pp_BATTk p (4 + getBits (m.objs.headD 0) 0 2))]
  | .vendorDefined => s.rxVdm p m
  | .eprModeAck =>
    if (s.port p).ams = .epr ∧ (s.port p).own then
      (((s.setBit (F.PD_Pp_STATUS_EPR_MODE p) true).disarm p .enterEpr).finishAms p).arm p .sinkEprKeepAlive
    else s
  | .eprModeExit =>
    let s1 := (s.setBit (F.PD_Pp_STATUS_EPR_MODE p) false).armContract p 0
    if s1.isSource p then s1.sendSourceCaps p true else s1.arm p .sinkWaitCap
  | .bist => s.rxBist p m
  | .securityRequest | .firmwareUpdateRequest | .unlisted _ => s.sendCtl p .notSupported
  | .goodCrc | .ping | .alert | .sinkCapabilities | .revision | .batteryStatus | .status | .ppsStatus
  | .sourceCapabilitiesExt | .batteryCapabilities | .manufacturerInfo | .eprSinkCapabilities | .eprKeepAliveAck => s
  -- of these only what no row takes in this role comes here (R222)
  | .psRdy | .drSwap | .prSwap | .vconnSwap | .frSwap | .sourceCapabilities | .eprSourceCapabilities | .request | .eprRequest
  | .eprModeEnter | .eprKeepAlive => s.sendCtl p .notSupported

/-- What no row takes is answered from the buffers, oldest first. -/
def State.drain : Nat → Port → State → State
  | 0, _, s => s
  | n + 1, p, s =>
    match s.takeMsg p fun t => !s.rowTakes p t && s.takes p t with
    | some (m, s1) => State.drain n p (s1.answer p m)
    | none => s

/-! ### Reception in hardware (R216-R218, R221) -/

/-- C2 abandons the AMS in flight, and what it had still to send (R216, R218; log 96). -/
def State.abandonAms (s : State) (p : Port) : State :=
  (((s.clearAms p).dropTx p fun x => x.host).modPath p fun k => { k with want := 0, held := 0 }).armFrs p

/-- GoodCRC of the message in flight: the MessageID advances and the next one goes out; a VDM of the host reports its
result (R240). The PS_RDY of a source ends its AMS. -/
def State.rxGoodCrc (s : State) (p : Port) (m : PdMsg) : State :=
  match (s.port p).tx with
  | some t =>
    if t.msg.sop = m.sop ∧ t.msg.id = m.id then
      let s1 := (s.nextId p m.sop).nextTx p
      let s2 := if t.host then s1.vdmResult p 1 else s1
      if t.msg.type = .psRdy ∧ (s.port p).ams = .power then s2.finishAms p else s2.startPending p
    else s
  | none => s

/-- Messages that open an AMS of the partner. -/
def opensAms (m : PdMsg) : Bool :=
  match m.type with
  | .sourceCapabilities | .eprSourceCapabilities | .drSwap | .prSwap | .vconnSwap | .frSwap | .eprModeEnter | .eprModeExit
  | .getSourceCap | .getSinkCap | .getSourceCapExt | .getStatus | .getPpsStatus | .getRevision | .getManufacturerInfo
  | .getBatteryCap | .getBatteryStatus | .eprGetSourceCap | .eprGetSinkCap | .bist => true
  | .vendorDefined => getBits (m.objs.headD 0) 6 2 == 0 || getBits (m.objs.headD 0) 15 1 == 0
  | _ => false

/-- R218: the received message wins: a transmission that waits, for the line or for its GoodCRC, is discarded and C2 is
told. It abandons the AMS that the message belonged to where the partner's opens another (log 96). -/
def State.rxWins (s : State) (p : Port) (m : PdMsg) : State :=
  let k := s.port p
  if k.tx.isNone && k.waiting.isEmpty then s
  else
    let s1 := s.dropTx p fun _ => false
    if opensAms m && k.own then s1.abandonAms p else s1

/-- R217, R222: is there room for a message? One whose chunks are arriving keeps its buffer. -/
def State.rxRoom (s : State) (p : Port) (m : PdMsg) : Bool :=
  let k := s.port p
  if m.sop = .sop then
    decide (k.rx.length + k.rxExt.isSome.toNat < 4) || (k.rxExt.any fun x => x.type == m.type)
  else decide (k.rxPrime.length < 2)

/-- A message is in its buffer. -/
def State.buffer (s : State) (p : Port) (m : PdMsg) : State :=
  s.modPort p fun k => if m.sop = .sop then { k with rx := k.rx ++ [m] } else { k with rxPrime := k.rxPrime ++ [m] }

/-- R222: a chunk of an extended message: a request for a chunk of the port's own; else the next bytes, whose message
is whole at its data size, until when the next chunk is asked for. Chunks out of order are dropped (log 97). -/
def State.rxChunk (s : State) (p : Port) (m : PdMsg) : State :=
  let h := m.objs.headD 0
  let n := getBits h 11 4
  let post (t : State) (objs : List Word) : State :=
    t.queueTx p { msg := { sop := .sop, type := m.type, id := 0, objs := objs }, host := false }
  if getBits h 10 1 = 1 then
    if chunkBytes * n < (s.port p).txExt.length then post s (chunkOf (s.port p).txExt n) else s
  else
    let size := getBits h 0 9
    let had := if n = 0 then [] else ((s.port p).rxExt.map fun x => x.bytes).getD []
    if had.length ≠ chunkBytes * n then s.modPort p fun k => { k with rxExt := none }
    else
      let bs := (had ++ (m.objs.flatMap wordBytes).drop 2 |>.take (had.length + chunkBytes)).take size
      if size ≤ bs.length then
        (s.modPort p fun k => { k with rxExt := none }).buffer p { m with objs := bytesWords bs }
      else post (s.modPort p fun k => { k with rxExt := some ⟨m.type, bs⟩ }) (chunkWords (n + 1) 0 true [])

/-- R221, R222: EPR_KeepAlive_Ack needs no buffer; an extended message comes in chunks. -/
def State.takeIn (s : State) (p : Port) (m : PdMsg) : State :=
  if m.type = .eprKeepAliveAck then s else if extended m.type && m.sop == .sop then s.rxChunk p m else s.buffer p m

/-- A message on the CC line. -/
def State.pdRx (s : State) (p : Port) (m : PdMsg) (crcOk : Bool) : State :=
  let prime := m.sop != .sop
  if !crcOk then s.satInc (F.PD_Pp_CNT_CRC_ERR p)
  else if prime ∧ !s.bit (F.PD_Pp_STATUS_VCONN_SRC p) then s
  else if m.type = .goodCrc then s.rxGoodCrc p m
  else if m.type = .bist ∧ 250 < s.fld (F.PD_Pp_VI_VOLT p) then s
  else if !s.rxRoom p m then s.satInc (F.PD_Pp_CNT_BUF_FULL p)
  else
    let i := sopIdx m.sop
    let s1 := s.emit (.pd p { sop := m.sop, type := .goodCrc, id := m.id, objs := [] })
    let s2 := ((if s1.armed p .sourceEprKeepAlive then s1.arm p .sourceEprKeepAlive else s1).disarm p .noResponse).modPort p
      fun k => { k with resets := 0 }
    if (s.port p).rxId[i] = some m.id.val ∧ m.type ≠ .softReset then s2
    else
      let s3 := (s2.rxWins p m).modPort p fun k =>
        { k with rxId := k.rxId.set i.val (some m.id.val) i.isLt, rev := if prime then k.rev else m.rev.val }
      State.drain 6 p (s3.takeIn p m)

/-- R73: no GoodCRC is returned while the port sinks default USB power only. -/
def doPdMessageRx (p : Port) (m : PdMsg) (crcOk : Bool) (s : State) : Answer :=
  s.onlyIf (s.domOn 10 && (s.isSource p || s.isSink p) && (s.port p).pdEn && !s.deadBattery) fun s => s.pdRx p m crcOk

end Sys2Proof.Machine
end

