-- ==== Sys2Proof/Machine/TypeC.lean ====
section
/-!
DEFINITION. The attach state machine of the ports (R208-R215).
-/

namespace Sys2Proof.Machine

/-- PARTNER_RP of a termination: 1 default, 2 1.5 A, 3 3.0 A (R209). -/
def rpCode (c : CcTerm) : Nat := match c with | .rp k => k.val + 1 | _ => 0

def ccIsRp (c : CcTerm) : Bool := match c with | .rp _ => true | _ => false

/-- VBUS_Pp good under R29 (R213). -/
def State.vbusGood (s : State) (p : Port) : Bool := s.bit (F.SUPPLY_STATUS_VBUS_OK.at p.val)

/-- One pin Rp, the other not; one pin Rd, the other not. -/
def oneRp (a b : CcTerm) : Bool := ccIsRp a != ccIsRp b
def oneRd (a b : CcTerm) : Bool := (a == .rd) != (b == .rd)

/-- TRY in force: a dual-role port only (R208). -/
def State.tryOf (s : State) (p : Port) : Nat := if (s.port p).role = 2 ∧ (s.port p).try_ < 3 then (s.port p).try_ else 0

/-- R252: C2 asks C0 for the intake of the implicit contract: the Type-C current at 5 V. -/
def State.implicitIntake (s : State) (p : Port) : State :=
  if s.c2Acts && s.coreActs 0 then
    let r := s.askIntake p (contractPower 250 (s.typeCCurrent p))
    r.2.modPath p fun k => { k with intake := min r.1 (contractPower 250 (s.typeCCurrent p)) }
  else s

/-- R259: the dead-battery pass: the first qualifying port of DB_PORTS closes its FETs. -/
def State.tryPass (s : State) (p : Port) : State :=
  if s.deadBattery && s.bit (F.PP_DB_DB_PORTS.at p.val) && s.fld F.PP_DB_DB_ACTIVE == 7 && s.isSink p && s.vbusGood p
      && !(s.path p).dbRetry then
    ((s.setFld F.PP_DB_DB_ACTIVE p.val).setMode p 4).closeFets p
  else s

/-- R259: when the pass port has detached, the next port to qualify takes over. -/
def State.passOn (s : State) : State := s.forAll fun (p : Port) t => t.tryPass p

/-- R213, R252: the port enters Attached.SNK. Its FETs close where a core runs the port, and C2 asks for intake. -/
def State.attachSink (s : State) (p : Port) (cc1 cc2 : CcTerm) : State :=
  let s1 := ((((s.setTc p 4).setBit (F.PD_Pp_STATUS_PWR_ROLE p) false).setBit (F.PD_Pp_STATUS_DATA_ROLE p) false).setFld
    (F.PD_Pp_STATUS_ORIENT p) (if ccIsRp cc1 then 0 else 1)).setFld (F.PD_Pp_STATUS_PARTNER_RP p) (max (rpCode cc1) (rpCode cc2))
  let r := s1.fresh 1
  -- whether the partner sources VCONN is not seen (R228; log 99)
  let s2 := (r.2.modPort p fun k => { k with partnerVconn := r.1 == 1 }).pdEvent p 0
  if s2.deadBattery then s2.tryPass p
  else
    let s3 := (s2.closeFets p).implicitIntake p
    if (s3.port p).pdEn then s3.arm p .sinkWaitCap else s3

/-- R213, R226, R248: the port enters Attached.SRC: VCONN, cable discovery and the source start. -/
def State.attachSource (s : State) (p : Port) (cc1 : CcTerm) : State :=
  let s1 := (((s.setTc p 7).setBit (F.PD_Pp_STATUS_PWR_ROLE p) true).setBit (F.PD_Pp_STATUS_DATA_ROLE p) true).setFld
    (F.PD_Pp_STATUS_ORIENT p) (if cc1 = .rd then 0 else 1)
  (((s1.pdEvent p 0).vconnOn p).discoverCable p).sourceStart p

/-- An accessory is found (R212). -/
def State.accessory (s : State) (p : Port) (code : Nat) : State := (s.setTc p code).pdEvent p 13

/-- Unattached by role, or Unattached.SNK for one that is not source only (Table 7.2). -/
def State.unattachedBy (s : State) (p : Port) : State := s.unattached p

/-- Unattached.SRC for a dual-role port as well (Table 7.2, row 14). -/
def State.unattachedSrc (s : State) (p : Port) : State :=
  let s1 := s.unattached p
  if (s1.port p).role = 2 then s1.setTc p 5 else s1

/-- R213: Attached.SNK loses VBUS: a detach, outside the spans of R214. -/
def State.sinkDetach (s : State) (p : Port) : State :=
  let hadTry := s.tryOf p != 0
  let s1 := s.detach p
  (if hadTry then s1.errorRecovery p else s1.unattached p).passOn

/-- R213: Attached.SRC loses Rd: a detach, outside the spans of R214. -/
def State.sourceDetach (s : State) (p : Port) : State := (s.detach p).unattached p

/-- The states with no partner from which a port may attach use the terminations as they are (Table 7.2). -/
def State.tcMove (s : State) (p : Port) (a b : CcTerm) : State :=
  let acc := (s.port p).accEn
  let vbus := s.vbusGood p
  match s.tc p with
  | 2 => if oneRp a b || (ccIsRp a && ccIsRp b && acc) then s.setTc p 3 else s
  | 3 =>
    if oneRp a b && vbus then if s.tryOf p = 1 then s.setTc p 8 else s.attachSink p a b
    else if ccIsRp a && ccIsRp b && acc && vbus then s.accessory p 13
    else if !ccIsRp a && !ccIsRp b then s.unattached p else s
  | 4 =>
    let s1 := s.setFld (F.PD_Pp_STATUS_PARTNER_RP p) (max (rpCode a) (rpCode b))
    if !vbus && (s1.port p).span == .none then s1.sinkDetach p else s1.startPending p
  | 5 => if oneRd a b || (acc && ((a == .ra && b == .ra) || (a == .rd && b == .rd))) then s.setTc p 6 else s
  | 6 =>
    if oneRd a b then
      if !(s.path p).safe0V then s else if s.tryOf p = 2 then s.setTc p 10 else s.attachSource p a
    else if acc && a == .ra && b == .ra then s.accessory p 12
    else if acc && a == .rd && b == .rd then s.accessory p 14
    else if a != .rd && b != .rd then s.unattached p else s
  | 7 => if a != .rd && b != .rd && (s.port p).span == .none then s.sourceDetach p else s
  | 8 => if oneRd a b then s.attachSource p a else s
  | 9 =>
    if oneRp a b && vbus then s.attachSink p a b
    else if !ccIsRp a && !ccIsRp b then s.unattached p else s
  | 10 => if oneRp a b && vbus then s.attachSink p a b else s
  | 11 => if oneRd a b then s.attachSource p a else s
  | 12 => if a != .ra && b != .ra then s.unattached p else s
  | 13 => if !vbus then s.unattached p else s
  | 14 => if a == .vacant && b == .vacant then s.unattachedSrc p else s
  | _ => s

/-- R213: terminations that have held for the debounce time. -/
def State.tcDebounce (s : State) (p : Port) (a b : CcTerm) : State :=
  (s.modPort p fun k => { k with cc1 := a, cc2 := b }).tcMove p a b

def doTcDebounceExpiry (p : Port) (cc1 cc2 : CcTerm) (s : State) : Answer :=
  s.onlyIf (s.domOn 2) fun s => s.tcDebounce p cc1 cc2

/-- R208, R213: a dual-role port without partner alternates between Unattached.SNK and Unattached.SRC; what was written to
its configuration takes effect as it enters either. -/
def State.drpToggle (s : State) (p : Port) : State :=
  let s1 := s.latchRole p
  if (s1.port p).role = 2 then s1.setTc p (if s.tc p = 2 then 5 else 2) else s1.unattached p

def doDrpToggle (p : Port) (s : State) : Answer :=
  s.onlyIf (s.domOn 2 && (s.port p).role == 2 && !s.deadBattery && (s.tc p == 2 || s.tc p == 5)) fun s => s.drpToggle p

/-- Table 7.2: Unattached.SRC if ROLE = 1, otherwise Unattached.SNK; a disabled port stays open (R208). -/
def doErrorRecoveryEnd (p : Port) (s : State) : Answer := s.onlyIf (s.tc p == 1) fun s => s.unattached p

/-- R213: tDRPTry. -/
def doTdrptry (p : Port) (seen : Bool) (s : State) : Answer :=
  s.onlyIf (!seen) fun s =>
    match s.tc p with
    | 8 => s.setTc p 9
    | 10 => s.setTc p 11
    | 11 => s.unattached p
    | _ => s

/-- R214: the loss that is a detach outside the spans: no VBUS at a sink, no Rd at a source. -/
def State.lost (s : State) (p : Port) : Bool :=
  if s.isSource p then (s.port p).cc1 != .rd && (s.port p).cc2 != .rd else !s.vbusGood p

/-- R214: the span ends: a loss that is still present is a detach at that instant. -/
def State.endSpan (s : State) (p : Port) : State :=
  if (s.port p).span == .none then s
  else if !(s.attached p && s.lost p) then s.modPort p fun k => { k with span := .none }
  else if s.isSource p then s.sourceDetach p else s.sinkDetach p

/-- R213, R214: VBUS is lost at a sink: Attached.SNK and DebugAccessory.SNK end, outside the spans. -/
def State.vbusLost (s : State) (p : Port) : State :=
  match s.tc p with
  | 4 => if (s.port p).span == .none then s.sinkDetach p else s
  | 13 => s.unattached p
  | _ => s

def doDetachExceptionEnd (p : Port) (s : State) : Answer :=
  s.onlyIf ((s.port p).span != .none && s.attached p) fun s => s.endSpan p

end Sys2Proof.Machine
end

