-- ==== Sys2Proof/Machine/PdRows.lean ====
section
/-!
DEFINITION. The rows of chapter 07 beyond attach: what C2 does with the messages that have rows of their own, the PD
timers, hard resets, swaps and requests of the owner host.
-/

namespace Sys2Proof.Machine

/-- C2, or in a refresh the hardware, takes a message of a type and acts on it. -/
def State.onMsg (s : State) (p : Port) (f : PdType → Bool) (act : PdMsg → State → State) : Answer :=
  match s.takeMsg p fun t => f t && s.takes p t with
  | some (m, s1) => .next (act m s1)
  | none => .next s

/-! ### Contracts (R224, R225, R235, R237) -/

/-- R235, R237: Source_Capabilities: a partner remembered by QUICK is asked for its last PDO at once. -/
def State.sourceCaps (s : State) (p : Port) (m : PdMsg) : State :=
  let s1 := (s.disarm p .sinkWaitCap).modPort p fun k =>
    { k with offered := m.objs, eprOffered := getBits (m.objs.headD 0) 23 1 == 1 }
  if (s1.port p).firstCaps then s1.requestBest p
  else
    let s2 := s1.modPort p fun k => { k with firstCaps := true, quick := crc32 (m.objs.flatMap wordBytes) }
    match s2.findPartner p with
    | some x =>
      -- the remembered auto-enter modes follow without discovery, and EPR entry without more capabilities
      let s3 := (s2.pmemMatch p x).modPort p fun k =>
        { k with entering := true, eprOffered := k.eprOffered || leNat (part x.2 12 2) / 16 % 2 == 1 }
      let pdo := BitVec.ofNat 32 (leNat (part x.2 0x14 4))
      let pol := s3.policy p
      match (positions m.objs).find? fun y => y.2 == pdo with
      | some y =>
        match (sortedPrefs pol.prefs).findSome? fun f => candidate pol (s3.cableCurrent p) (s3.fld (F.PP_Pp_BUD_SNK_PMAX p)) f y with
        | some c => (s3.modPath p fun k => { k with held := contractPower (c.mv / 20) c.curr }).sendRequest p c
        | none => s3.requestBest p
      | none => s3.requestBest p
    | none => s2.requestBest p

def doSourceCapabilities (p : Port) (s : State) : Answer :=
  if s.isSink p && s.c2Acts && s.coreActs 0 then
    s.onMsg p (fun t => t == .sourceCapabilities || t == .eprSourceCapabilities) fun m s => s.sourceCaps p m
  else .next s

/-- The PDO a Request names among those advertised, and whether the Request keeps within it (R225). -/
def State.requested? (s : State) (p : Port) (m : PdMsg) : Option Deal :=
  let rdo := m.objs.headD 0
  let pdo := (s.advertise p (s.port p).advert (s.bit (F.PD_Pp_STATUS_EPR_MODE p))).getD (getBits rdo 28 4 - 1) 0
  let d := dealOf rdo pdo
  if getBits rdo 28 4 ≠ 0 ∧ d.kind ≠ 0 ∧ onSteps d.kind (if d.kind = 2 then 20 * getBits rdo 9 12 else 25 * getBits rdo 9 12)
        = (if d.kind = 2 then 20 * getBits rdo 9 12 else 25 * getBits rdo 9 12) ∧ (pdoRange pdo).1 ≤ 20 * d.volt + 19 ∧ 20 * d.volt ≤ (pdoRange pdo).2
      ∧ d.curr ≤ pdoCurrent pdo (20 * d.volt) then some d else none

/-- R225, R250: Accept: the path moves to the new voltage; a higher current limit acts at once. -/
def State.acceptRequest (s : State) (p : Port) (d : Deal) : State :=
  let s1 := (s.beginAms p .power false 2).modPort p fun k => { k with deal := some d }
  let s2 := s1.setFld (F.PP_Pp_RUN_ILIM p) (max (s1.fld (F.PP_Pp_RUN_ILIM p)) (s1.sourceLimit p d))
  let same := s2.fld (F.PP_Pp_RUN_VREF p) == d.volt && s2.bit (F.PP_Pp_STATUS_VREACHED p)
  let s3 := ((s2.setFld (F.PP_Pp_RUN_VREF p) d.volt).setBit (F.PP_Pp_STATUS_VREACHED p) same).sendCtl p .accept
  if same then s3.sourceReady p else s3

/-- R225: C2 checks a Request, asks C0 for its power, and accepts or rejects. -/
def State.request (s : State) (p : Port) (m : PdMsg) : State :=
  let s1 := (s.disarm p .senderResponse).disarm p .typeCSendSourceCap
  match s1.requested? p m with
  | none => (s1.sendCtl p .reject).finishAms p
  | some d =>
    let r := s1.askSource p (contractPower d.volt d.curr)
    if r.1 then r.2.acceptRequest p d else (r.2.sendCtl p .reject).finishAms p

def doRequest (p : Port) (s : State) : Answer :=
  if s.isSource p && s.coreActs 0 then s.onMsg p (fun t => t == .request || t == .eprRequest) fun m s => s.request p m
  else .next s

/-- R224: EPR_Mode (Enter): accepted by a source, sent by a sink; a sink without its own cable discovery first asks
for VCONN (R227, R228; log 27). -/
def State.eprMode (s : State) (p : Port) : State :=
  if s.isSource p then
    match s.takeMsg p fun t => t == .eprModeEnter with
    | some (_, s1) =>
      if s1.eprReady p then
        (((s1.beginAms p .epr false 1).setBit (F.PD_Pp_STATUS_EPR_MODE p) true).sendCtl p .eprModeAck).sendSourceCaps p true
      else s1.sendCtl p .notSupported
    | none => s
  else if s.eprReady p && s.txOk p then (((s.beginAms p .epr true 1).sendCtl p .eprModeEnter).arm p .enterEpr)
  else if (s.port p).eprOffered && s.bit (F.PD_Pp_CFG_EPR_EN p) && !(s.port p).cableKnown && s.txOk p
      && !s.bit (F.PD_Pp_STATUS_VCONN_SRC p) && !(s.port p).partnerVconn && s.vconnMay p && (s.policy p).prefs.any (fun f => f.kind == 4 || f.kind == 5) then
    ((s.beginAms p .vconnSwap true 1).sendCtl p .vconnSwap).arm p .senderResponse
  else s

def doEprMode (p : Port) (s : State) : Answer :=
  s.onlyIf (s.c2Acts && (s.isSink p || s.isSource p)) fun s => s.eprMode p

/-- R224: the conditions that must go on holding in EPR mode; the contract's end clears EPR_MODE itself. -/
def State.eprHolds (s : State) (p : Port) : Bool :=
  s.bit (F.PD_Pp_CFG_EPR_EN p) && s.bit (F.PD_Pp_STATUS_CABLE_EPR p)
    && (!s.isSource p || !((s.policy p).src.drop 7).isEmpty)

/-- R224: a condition of EPR mode is lost: C2 exits EPR mode with a new SPR negotiation, or, while an EPR contract is
in force, with a Hard Reset (log 27). A running AMS ends first. -/
def State.leaveEpr (s : State) (p : Port) : State :=
  if !(s.bit (F.PD_Pp_STATUS_EPR_MODE p) && !s.eprHolds p && !s.bit (F.PD_Pp_STATUS_AMS p) && s.c2Acts) then s
  else if s.fld (F.PD_Pp_VI_KIND p) = 4 ∨ s.fld (F.PD_Pp_VI_KIND p) = 5 then s.hardReset p true
  else
    let s1 := ((s.sendCtl p .eprModeExit).setBit (F.PD_Pp_STATUS_EPR_MODE p) false).armContract p 0
    if s1.isSource p then s1.sendSourceCaps p true else s1.arm p .sinkWaitCap

/-- R238: C2 starts its policy engine on a source at vSafe5V that has offered nothing yet, as after a hard reset that
completed while C2 was being replaced. -/
def State.offerAfterReset (s : State) (p : Port) : State :=
  if s.c2Acts && s.isSource p && s.bit (F.PP_Pp_STATUS_FETS p) && (s.path p).hr == .none && (s.port p).caps == 0
      && !s.bit (F.PD_Pp_STATUS_CONTRACT p) && s.lineFree p then s.startSourcePd p else s

/-- What C2 does on its own account: it leaves EPR mode where R224 asks, takes up a source after a reset, and answers
what has waited in the buffers, as after a handover (R238). -/
def State.settlePort (s : State) (p : Port) : State := State.drain 6 p ((s.leaveEpr p).offerAfterReset p)

def State.settlePorts (s : State) : State := s.forAll fun (p : Port) t => t.settlePort p

/-- R221: the EPR source's hardware answers EPR_KeepAlive. -/
def doEprKeepalive (p : Port) (s : State) : Answer :=
  match s.takeMsg p fun t => t == .eprKeepAlive with
  | some (_, s1) =>
    if s1.isSource p ∧ s1.bit (F.PD_Pp_STATUS_EPR_MODE p) then .next ((s1.sendCtl p .eprKeepAliveAck).arm p .sourceEprKeepAlive)
    else .next s1
  | none => .next s

/-! ### Swaps (R228-R231, R253) -/

def State.rxDrSwap (s : State) (p : Port) : State :=
  if s.bit (F.PD_Pp_CFG_ACC_DR p) && s.fld (F.PD_Pp_MODES_ENTERED p) == 0 then (s.sendCtl p .accept).toggleData p
  else s.sendCtl p .reject

def doDrSwap (p : Port) (s : State) : Answer := s.onMsg p (fun t => t == .drSwap) fun _ s => s.rxDrSwap p

/-- R230: accepted with ACC_PR, and for a move to source if C0 grants 15 W. -/
def State.rxPrSwap (s : State) (p : Port) : State :=
  if !s.bit (F.PD_Pp_CFG_ACC_PR p) then s.sendCtl p .reject
  else
    let r := if s.isSink p then s.grantSource p else (true, s)
    if r.1 then ((r.2.beginAms p .prSwap false 1).sendCtl p .accept).prAccepted p else r.2.sendCtl p .reject

/-- For a move to source the answer waits for C0. -/
def doPrSwap (p : Port) (s : State) : Answer :=
  if s.isSink p && s.bit (F.PD_Pp_CFG_ACC_PR p) && !s.coreActs 0 then .next s
  else s.onMsg p (fun t => t == .prSwap) fun _ s => s.rxPrSwap p

/-- R228: accepted with ACC_VCONN. A VCONN source waits for the partner's PS_RDY; another port turns VCONN on. -/
def State.rxVconnSwap (s : State) (p : Port) : State :=
  if !s.bit (F.PD_Pp_CFG_ACC_VCONN p) then s.sendCtl p .reject
  else
    let s1 := (s.beginAms p .vconnSwap false 2).sendCtl p .accept
    if s.bit (F.PD_Pp_STATUS_VCONN_SRC p) then s1 else s1.vconnTake p

def doVconnSwap (p : Port) (s : State) : Answer := s.onMsg p (fun t => t == .vconnSwap) fun _ s => s.rxVconnSwap p

/-- R231: the initial sink sends FR_Swap after the signal; the initial source accepts it and takes Rd. -/
def State.frSwap (s : State) (p : Port) : State :=
  if (s.port p).span ≠ .frs then s
  else if s.isSink p then ((s.beginAms p .frSwap true 1).sendCtl p .frSwap).arm p .senderResponse
  else
    match s.takeMsg p fun t => t == .frSwap with
    | some (_, s1) =>
      let s2 := ((s1.beginAms p .frSwap false 2).sendCtl p .accept).takeRole p false
      s2.sendCtl p .psRdy
    | none => s

def doFrSwap (p : Port) (s : State) : Answer := s.onlyIf s.c2Acts fun s => s.frSwap p

/-- The power role of the port has changed: an event, and the AMS and the span end (R214). -/
def State.swapDone (s : State) (p : Port) (event : Nat) : State := ((s.pdEvent p event).finishAms p).endSpan p

/-- A source that is still attached begins its negotiation. -/
def State.beginOffer (s : State) (p : Port) : State := if s.isSource p then s.startSourcePd p else s

/-- R253: the partner is now the source: VBUS_Pp, which must be good at its PS_RDY (R214), comes in through the FETs. -/
def State.takeVbus (s : State) (p : Port) : State :=
  let s1 := s.swapDone p 7
  if s1.isSink p then ((s1.closeFets p).implicitIntake p).arm p .sinkWaitCap else s1

/-- R225, R228, R231, R253: the partner's PS_RDY. -/
def State.partnerReady (s : State) (p : Port) : State :=
  match (s.port p).ams with
  | .power =>
    if s.isSource p then s else
    match (s.port p).deal with
    | some d =>
      let s1 := (s.makeContract p d false).modPath p fun k => { k with intake := k.held, intakeOn := true, held := 0 }
      let s2 := if s1.sinks p then s1.setFld (F.PP_Pp_RUN_ILIM p) d.curr else s1
      ((s2.sinkStart p).armContract p d.kind).finishAms p
    | none => s
  | .prSwap =>
    if s.isSink p ∧ (s.port p).step = 2 then
      -- initially sink: Rd to Rp, and the source start of R248
      ((s.takeRole p true).modPort p fun k => { k with step := 3 }).sourceStart p
    else
      -- initially source: VBUS is the partner's; the FETs close and the sink loop follows
      s.takeVbus p
  | .frSwap =>
    if s.isSink p ∧ (s.port p).own then
      ((((s.takeRole p true).modPath p fun k => { k with frsHold := false }).sendCtl p .psRdy).swapDone p 7).beginOffer p
    else s.takeVbus p
  | .vconnSwap => (((s.vconnOffNow p).modPort p fun k => { k with partnerVconn := true }).pdEvent p 8).finishAms p
  | _ => s

def doPsRdy (p : Port) (s : State) : Answer := s.onMsg p (fun t => t == .psRdy) fun _ s => s.partnerReady p

/-- R230, Table 7.7: the partner's PS_RDY did not come. -/
def doTpssourceon (p : Port) (s : State) : Answer := s.onlyIf (s.armed p .psSourceOn) fun s => s.errorRecovery p

/-- R253: 30 ms after the Accept, the initial source turns off. -/
def doPrSwapSourceOff (p : Port) (s : State) : Answer :=
  s.onlyIf (s.isSource p && (s.port p).ams == .prSwap && (s.port p).step == 2)
    fun s => (((s.pathOff p).openFets p).discharge p)

/-! ### Timers (R216, R219-R221) -/

/-- R216: tReceive: a retry, or after two a transmit failure, of which C2 is told: it abandons the AMS of the message
(log 96). -/
def State.tReceive (s : State) (p : Port) : State :=
  match (s.port p).tx with
  | none => s
  | some x =>
    if (s.port p).retries < 2 then (s.emit (.pd p x.msg)).modPort p fun k => { k with retries := k.retries + 1 }
    else
      let s1 := ((s.nextId p x.msg.sop).satInc (F.PD_Pp_CNT_RETRY_FAIL p)).nextTx p
      let s2 := if x.host then s1.vdmResult p 2 else if x.msg.sop = .sop then s1.abandonAms p else s1
      s2.startPending p

def doTreceive (p : Port) (s : State) : Answer := s.onlyIf (s.armed p .receive) fun s => s.tReceive p

/-- A Soft_Reset of this port: AMS and MessageIDs end (R220). -/
def State.sendSoftReset (s : State) (p : Port) : State :=
  (((((s.vdmFails p).endAms p).resetIds p).pdEvent p 5).sendCtl p .softReset).arm p .senderResponse

def doTsenderresponse (p : Port) (s : State) : Answer := s.onlyIf (s.armed p .senderResponse) fun s => s.sendSoftReset p

def doTtypecsendsourcecap (p : Port) (s : State) : Answer :=
  s.onlyIf (s.armed p .typeCSendSourceCap && s.isSource p) fun s =>
    if (s.port p).caps < 50 ∧ !s.bit (F.PD_Pp_STATUS_CONTRACT p) then
      ((s.modPort p fun k => { k with caps := k.caps + 1 }).sendSourceCaps p true).arm p .typeCSendSourceCap
    else s.disarm p .typeCSendSourceCap

/-- R219: a timer sends Hard Reset; after two without a response the port enters ErrorRecovery. -/
def State.timerReset (s : State) (p : Port) : State := if 2 ≤ (s.port p).resets then s.errorRecovery p else s.hardReset p true

def doTsinkwaitcap (p : Port) (s : State) : Answer := s.onlyIf (s.armed p .sinkWaitCap) fun s => s.timerReset p
def doTpstransition (p : Port) (s : State) : Answer := s.onlyIf (s.armed p .psTransition) fun s => s.timerReset p
def doTsourceeprkeepalive (p : Port) (s : State) : Answer :=
  s.onlyIf (s.armed p .sourceEprKeepAlive) fun s => s.timerReset p
def doTppstimeout (p : Port) (s : State) : Answer := s.onlyIf (s.armed p .ppsTimeout) fun s => s.timerReset p
def doTenterepr (p : Port) (s : State) : Answer := s.onlyIf (s.armed p .enterEpr) fun s => s.sendSoftReset p

/-- R220: tHardReset: the Hard Reset completes, and with it a port stop's handling (Table 8.4). -/
def doThardreset (p : Port) (s : State) : Answer :=
  s.onlyIf (s.armed p .hardReset) fun s =>
    (s.disarm p .hardReset).endIf (portLoop p) fun q => isPortStop q.cause || q.cause == 0x1B || q.cause == 0x0E

/-- R219, R220: tNoResponse counts; after two hard resets the port enters ErrorRecovery, else it sends another. -/
def doTnoresponse (p : Port) (s : State) : Answer := s.onlyIf (s.armed p .noResponse) fun s => s.timerReset p

def doTsinkeprkeepalive (p : Port) (s : State) : Answer :=
  s.onlyIf (s.armed p .sinkEprKeepAlive && s.isSink p) fun s => (s.sendCtl p .eprKeepAlive).arm p .sinkEprKeepAlive

/-- R218, R221: the sink resends the Request of its contract, once it may begin an AMS. -/
def doTppsrequest (p : Port) (s : State) : Answer :=
  s.onlyIf (s.armed p .ppsRequest && s.isSink p) fun s =>
    ((s.modPort p fun k => { k with refreshDue := true }).arm p .ppsRequest).startPending p

/-! ### Hard and cable resets (R219) -/

def doHardResetRx (p : Port) (s : State) : Answer :=
  s.onlyIf ((s.isSink p || s.isSource p) && (s.port p).pdEn) fun s => s.hardReset p false

def doHardResetTx (p : Port) (s : State) : Answer :=
  s.onlyIf ((s.isSink p || s.isSource p) && (s.port p).pdEn && !s.deadBattery) fun s => s.hardReset p true

def doCableReset (p : Port) (s : State) : Answer :=
  s.onlyIf (s.bit (F.PD_Pp_STATUS_VCONN_SRC p) && s.c2Acts) fun s =>
    (s.emit (.cableReset p)).modPort p fun k =>
      { k with txId := #v[k.txId[0], 0, 0], rxId := #v[k.rxId[0], none, none], rxPrime := [] }

/-! ### VCONN and cables (R226, R227) -/

/-- R226: VCONN off until the next attach; a SOP' or SOP'' AMS is abandoned. -/
def State.vconnOverload (s : State) (p : Port) : State :=
  let s1 := ((s.vconnOffNow p).pdEvent p 14).modPort p fun k => { k with vconnOff := true, rxPrime := [] }
  let s2 := s1.dropTx p fun x => x.msg.sop == .sop
  if (s2.port p).tx.isNone then (s2.nextTx p).startPending p else s2

def doVconnOc (p : Port) (s : State) : Answer := s.onlyIf (s.bit (F.PD_Pp_STATUS_VCONN_SRC p)) fun s => s.vconnOverload p

def doCableDiscoveryRetry (p : Port) (s : State) : Answer := .next (s.discoverCable p)

/-! ### Fast Role Swap signals (R231, R254) -/

/-- R231, R254: an armed sink turns its power path to source mode: the converter node, 5.00 V, the declared current,
FETs closed, diode emulation only. -/
def State.frsSignal (s : State) (p : Port) : State :=
  let l := portLoop p
  let s0 := (((s.loadLegs p).loopTrip l false).endAms p).modLoop l fun k => { k with order := [buckLeg p, boostLeg p] }
  let s1 := (((s0.pdEvent p 9).raise 7 (9 + p.val)).setBit (F.PD_Pp_STATUS_FRS_ARMED p) false).modPort p fun k =>
    { k with span := .frs }
  let s2 := ((s1.setFld (F.PP_Pp_RUN_VREF p) 250).setFld (F.PP_Pp_RUN_ILIM p) (s.frsCurrent p)).setMode p 1
  let r := s2.fresh 24
  ((r.2.modPath p fun k => { k with frsHold := true, vrefNow := 1000, uvWait := false }).setLoopSt l 3).modLoop l fun k =>
    { k with u := r.1.toNat, v1 := r.1.toNat, v2 := r.1.toNat, e1 := 0, e2 := 0 }

def doFrsSignal (p : Port) (s : State) : Answer :=
  s.onlyIf (s.bit (F.PD_Pp_STATUS_FRS_ARMED p)) fun s => s.frsSignal p

def doFrsFail (p : Port) (s : State) : Answer :=
  s.onlyIf ((s.port p).span == .frs && (s.path p).frsHold) fun s => s.fault (portLoop p) 0x1C

/-- R231: the initial source releases CC. -/
def doFrsSignalEnd (p : Port) (s : State) : Answer :=
  .next (s.modPort p fun k => { k with frsDrive := false })

/-! ### Requests of the owner host (R229-R233): the effects of their writes -/

/-- The owner host's VDM is a structured request, which begins an AMS. -/
def State.hostAsks (s : State) (p : Port) : Bool :=
  getBits (s.reg (A.PD_Pp_VDM_TXk p 0)) 15 1 == 1 && getBits (s.reg (A.PD_Pp_VDM_TXk p 0)) 6 2 == 0

/-- R218, R227, R233: GO of PD_Pp_VDM_TXCTL, while none is being sent. A request of the host waits for the AMS in flight
and, at a sink in a contract, for SinkTxOK; a reply goes out at once. SOP'' is used only for a cable that answers on it. -/
def State.vdmTxGo (s : State) (p : Port) : State :=
  let k := s.fld (F.PD_Pp_VDM_TXCTL_SOP p)
  if (k = 1 ∨ k = 2) ∧ !s.bit (F.PD_Pp_STATUS_VCONN_SRC p) then s.vdmResult p 3
  else if !((s.isSink p || s.isSource p) && (s.port p).pdEn && !s.deadBattery) ∨ (k = 2 ∧ !(s.port p).cableDouble) then s.vdmResult p 2
  else
    let s1 := (s.setBit (F.PD_Pp_VDM_TXCTL_GO p) true).setFld (F.PD_Pp_VDM_TXCTL_RESULT p) 0
    if s.hostAsks p && s.bit (F.PD_Pp_STATUS_CONTRACT p) && !s.txOk p then s1.modPort p fun k => { k with vdmDue := true }
    else s1.sendHostVdm p

/-- R208: APPLY forces ErrorRecovery at once, which ends any contract. -/
def State.applyCfg (s : State) (p : Port) : State := (s.errorRecovery p).passOn

/-- R208: a new ROLE takes a disabled port to its Unattached state; a latched port stays open (R263). -/
def State.leaveDisabled (s : State) (p : Port) : State :=
  if s.tc p = 0 ∧ s.loopSt (portLoop p) ≠ 6 ∧ s.fld (F.PD_Pp_CFG_ROLE p) ≠ 3 ∧ !s.deadBattery then s.unattached p else s

end Sys2Proof.Machine
end

