-- ==== Sys2Proof/Machine/Path.lean ====
section
/-!
DEFINITION. The power paths and the budget's rows (chapter 08).
-/

namespace Sys2Proof.Machine

/-- A voltage is within a percentage of another. -/
def within (v ref : Int) (pct : Nat) : Bool := decide (100 * (v - ref).natAbs ≤ pct * ref.natAbs)

/-- The target of a source loop in microvolts (R249). -/
def State.sourceTarget (s : State) (p : Port) : Int := 20000 * (s.fld (F.PP_Pp_RUN_VREF p) : Nat)

/-- R248: the node has qualified with VBUS below vSafe0V; the FETs are told to close. -/
def doConverterNodeQualified (x : PortSense) (s : State) : Answer :=
  s.onlyIf (s.mode x.port == 1 && s.portRuns x.port && !s.bit (F.PP_Pp_STATUS_FETS x.port) && (s.path x.port).safe0V
      && within x.val 5000000 5) fun s => s.closeFets x.port

/-- R249: VREACHED; a source whose Request was accepted then sends PS_RDY (R225). -/
def State.vreached (s : State) (p : Port) : State :=
  let s1 := s.setBit (F.PP_Pp_STATUS_VREACHED p) true
  if (s1.port p).ams == .power && (s1.port p).step == 2 && s1.isSource p && s1.c2Acts then s1.sourceReady p else s1

def doVreached (x : PortSense) (s : State) : Answer :=
  s.onlyIf (s.mode x.port == 1 && s.loopSt (portLoop x.port) == 3
      && s.refNow (portLoop x.port) == s.refTarget (portLoop x.port) && within x.val (s.sourceTarget x.port) 3)
    fun s => s.vreached x.port

/-- R252, R253, R256, R257: the FETs count as closed; what waited for them goes on. -/
def State.gateClosed (s : State) (p : Port) : State :=
  let s1 := (s.modPath p fun k => { k with closing := false }).setBit (F.PP_Pp_STATUS_FETS p) true
  if s1.isSource p then
    let s2 := s1.modPath p fun k => { k with safe0V := false, hr := .none }
    if (s2.port p).ams = .prSwap then ((s2.sendCtl p .psRdy).swapDone p 7).beginOffer p
    else (if (s2.port p).span = .hardReset then s2.endSpan p else s2).beginOffer p
  else
    let s2 := if (s1.path p).hr = .sinkWait then
        (((s1.modPath p fun k => { k with hr := .none }).endSpan p).implicitIntake p).arm p .sinkWaitCap
      else s1
    s2.sinkStart p

def doGateClosed (p : Port) (s : State) : Answer := s.onlyIf ((s.path p).closing) fun s => s.gateClosed p

def doGateFail (p : Port) (s : State) : Answer :=
  s.onlyIf ((s.path p).closing) fun s => (s.modPath p fun k => { k with closing := false }).fault (portLoop p) 0x18

/-- R258: VBUS_Pp is below 0.80 V; a swap or hard reset that waited for vSafe0V goes on (R253, R256). -/
def State.dschgDone (s : State) (p : Port) : State :=
  let s1 := (s.modPath p fun k => { k with safe0V := true, hr := if k.hr = .falling then .recover else k.hr }).setBit
    (F.PP_Pp_STATUS_DSCHG p) false
  if (s1.port p).ams == .prSwap && s1.isSource p && (s1.port p).step == 2 && !s1.portRuns p then
    (((s1.sendCtl p .psRdy).takeRole p false).modPort p fun k => { k with step := 3 }).arm p .psSourceOn
  else s1

def doDschgDone (p : Port) (s : State) : Answer := .next (s.dschgDone p)

def doDschgTmo (p : Port) (s : State) : Answer :=
  s.onlyIf (s.bit (F.PP_Pp_STATUS_DSCHG p)) fun s => (s.setBit (F.PP_Pp_STATUS_DSCHG p) false).fault (portLoop p) 0x19

/-! ### Protection (R247, R250, R252, R255, R261) -/

/-- R250: the voltage below which a source in current limit counts: 3.30 V in a PPS contract, else 90% of VREF. -/
def State.portOcLimit (s : State) (p : Port) : Int :=
  if s.fld (F.PD_Pp_VI_KIND p) = 2 then 3300000 else s.sourceTarget p * 9 / 10

def doPortOc (x : PortSense) (s : State) : Answer :=
  s.onlyIf (s.mode x.port == 1 && s.portRuns x.port && s.bit (F.PP_Pp_STATUS_CL x.port) && decide (x.val < s.portOcLimit x.port))
    fun s => s.fault (portLoop x.port) 0x15

/-- R252: below 7/8 of the contract voltage. -/
def doSinkUv (x : PortSense) (s : State) : Answer :=
  s.onlyIf (s.sinks x.port && s.portRuns x.port && decide (8 * x.val < 7 * 20000 * (s.contractVolt x.port : Nat)))
    fun s => s.fault (portLoop x.port) 0x16

/-- R252: back within 5% of it. -/
def doSinkRestart (x : PortSense) (s : State) : Answer :=
  s.onlyIf ((s.path x.port).uvWait && within x.val (20000 * (s.contractVolt x.port : Nat)) 5) fun s =>
    ((s.modPath x.port fun k => { k with uvWait := false }).sinkStart x.port).endIf (portLoop x.port) fun q => q.cause == 0x16

/-- The output leg of a port (R244). -/
def State.outputLeg (s : State) (p : Port) : Chan := if s.sinks p then buckLeg p else boostLeg p

/-- R247: diode emulation: the output leg's A interval ends for the frame. -/
def doReverseCurrentEnd (p : Port) (s : State) : Answer :=
  s.onlyIf (s.portRuns p) fun s => s.modChan (s.outputLeg p) fun c => { c with scHold := true }

/-- R255: a source port at the shed trip. A port with FRS enabled and a contract is armed as FRS initial source
(log 28). -/
def State.shedPort (s : State) (p : Port) : State :=
  if !s.isSource p then s
  else if s.bit (F.PD_Pp_CFG_FRS_EN p) && s.bit (F.PD_Pp_STATUS_CONTRACT p) then
    ((((s.pathOff p).openFets p).modPort p fun k => { k with frsDrive := true, span := .frs }).pdEvent p 9).raise 7 (9 + p.val)
  else if s.bit (F.PP_Pp_CFG_SHED p) then
    (((s.pathOff p).openFets p).hardReset p true).fault (portLoop p) 0x1B
  else s

def doVsysShed (s : State) : Answer := .next ((s.raise 7 1).forAll fun (p : Port) t => t.shedPort p)

/-- A port's over-voltage latch opens its path and ends what runs on it (R263). -/
def State.portLatch (s : State) (p : Port) (cause : Nat) : State := s.fault (portLoop p) cause

def doPortOv (x : PortSense) (s : State) : Answer :=
  s.onlyIf ((s.portRuns x.port || s.attached x.port) && decide (s.portOvLimit x.port ≤ x.val)) fun s => s.portLatch x.port 0x11

def doVsysOv (s : State) : Answer :=
  .next ((s.raise 7 2).forAll fun (p : Port) t => if t.isSink p then t.portLatch p 0x12 else t)

/-- R261: a peak-current trip ends the input leg's high interval; PK_COUNT in a row are PEAK_SHUT. -/
def State.peakTrip (s : State) (p : Port) : State :=
  let n := s.inputLeg p
  let k := (s.chan n).scRun + 1
  let s1 := (s.modChan n fun c => { c with scHold := true, scRun := k }).fault (portLoop p) 0x13 (some n)
  if max (s.fld (F.PP_Pp_PROT_PK_COUNT p)) 1 ≤ k then s1.fault (portLoop p) 0x14 (some n) else s1

/-- R261: PK_LIM amperes x ISNS_R (0.1 mOhm, 0 acts as 1), in microvolts at ISNSp. -/
def State.peakLimitUv (s : State) (p : Port) : Int :=
  100 * (s.fld (F.PP_Pp_PROT_PK_LIM p) * max (s.fld (F.PP_Pp_CFG_ISNS_R p)) 1 : Nat)

def doPeakTrip (x : PortSense) (s : State) : Answer :=
  s.onlyIf (s.portRuns x.port && s.pulsing (s.inputLeg x.port) && decide (s.peakLimitUv x.port ≤ x.val)) fun s => s.peakTrip x.port

/-- R261: I_BUS flows against the power of the mode by more than REV_LIM x 10 mA (DEDUCED, log 102). -/
def doRevCur (x : PortSense) (s : State) : Answer :=
  let i := s.busCurrent x.port x.val
  s.onlyIf (s.portRuns x.port
      && decide ((s.fld (F.PP_Pp_PROT_REV_LIM x.port) : Int) < if s.sinks x.port then i else -i))
    fun s => s.fault (portLoop x.port) 0x17

/-! ### Dead battery (R259, R262) -/

/-- R259, R262: in house operation and seedling mode a DB_OC is recorded later and enters no ladder. -/
def State.dbOc (s : State) (p : Port) : State :=
  let s1 := ((s.openFets p).setFld (F.PP_DB_DB_OC.at p.val) 1).modPath p fun k => { k with dbRetry := true }
  if s.houseOp || s.seedling then { s1 with dbOcLater := s1.dbOcLater ++ [p] } else s1.fault (portLoop p) 0x1A

/-- R259: more than 0.60 A into the board. -/
def doDbOc (x : PortSense) (s : State) : Answer :=
  s.onlyIf (s.fld F.PP_DB_DB_ACTIVE == x.port.val && decide (60 < -s.busCurrent x.port x.val)) fun s => s.dbOc x.port

def doDbRetry (p : Port) (s : State) : Answer :=
  s.onlyIf ((s.path p).dbRetry) fun s =>
    ((s.modPath p fun k => { k with dbRetry := false }).tryPass p).endIf (portLoop p) fun q => q.cause == 0x1A

/-! ### Hard-reset steps (Table 8.3) -/

def doTpshardreset (p : Port) (s : State) : Answer :=
  s.onlyIf ((s.path p).hr == .sourceWait) fun s =>
    (((s.pathOff p).openFets p).discharge p).modPath p fun k => { k with hr := if k.safe0V then .recover else .falling }

def doTsrcrecover (p : Port) (s : State) : Answer :=
  s.onlyIf ((s.path p).hr == .recover && s.isSource p) fun s => (s.sourceStart p).modPath p fun k => { k with hr := .sourceOn }

/-! ### The budget (R266-R268) -/

/-- C2 sends new Source_Capabilities, once no AMS is in flight (R268). -/
def State.reoffer (s : State) (p : Port) : State := (s.modPort p fun k => { k with capsDue := true }).startPending p

/-- R268: C2's answer to a changed allotment: below the contract's cost, or risen above what was advertised. -/
def State.readvertise (s : State) (p : Port) (before : Nat) : State :=
  let now := s.fld (F.PP_Pp_MEAS_ALLOT p)
  if !s.isSource p || !s.bit (F.PD_Pp_STATUS_CONTRACT p) then s
  else if now ≠ before ∧ now < s.portWant p then
    let s1 := s.raise 5 (4 * p.val + 2)
    if s1.c2Acts then s1.reoffer p else s1
  else if s.bit (F.PP_Pp_BUD_READV_UP p) && decide ((s.port p).advert < s.offer p) && s.c2Acts then
    s.reoffer p
  else s

def doBudgetRecompute (s : State) : Answer :=
  s.onlyIf (s.coreActs 0) fun s => s.recompute.forAll fun (p : Port) t => t.readvertise p (s.fld (F.PP_Pp_MEAS_ALLOT p))

end Sys2Proof.Machine
end

