-- ==== Sys2Proof/Machine/StartOps.lean ====
section
/-!
DEFINITION. Start attempts as the keeper counts them (R54, R68-R72): the operations the sequencer and the cores share
with the boot ROM.
-/

namespace Sys2Proof.Machine

/-- START_STATUS.PHASE (Table 2.7). -/
def State.phaseNo (s : State) : Nat := s.fld F.START_STATUS_PHASE
def State.setPhase (s : State) (k : Nat) : State := s.setFld F.START_STATUS_PHASE k

/-- R73, Table 2.6: seedling mode, and waiting in PHASE 0 for full operation (DEDUCED, log 82: also where D1-D11 run from
VDD_CORE already and another supply is awaited). -/
def State.limited (s : State) : Bool := s.seedling || (s.phaseNo == 0 && !s.fullOp)

/-- R70, R71: a reason is recorded: it shifts START_REASON and clears the attempt-open flag. START_FAILS stays. -/
def State.recordReason (s : State) (code : Nat) : State :=
  let r := s.boot.record
  (s.kprStartRec { r with opened := false, reason0 := code, reason1 := r.reason0, reason2 := r.reason1 }).raise 0 1

/-- An attempt fails with a reason (R70, R72): PHASE 9 while powering down. -/
def State.endAttempt (s : State) (code : Nat) : State :=
  ((s.recordReason code).modBoot fun b =>
    { b with attempt := false, timeout := none, failed := some code, reread := true }).setPhase 9

/-- R68: every loaded core is healthy. -/
def State.allHealthy (s : State) : Bool := s.fld F.START_HEALTH_HEALTHY == s.fld F.START_HEALTH_LOADED

end Sys2Proof.Machine
end

