-- ==== Sys2Proof/Machine/Seq.lean ====
section
/-!
DEFINITION. The sequencer (chapter 09): steps, aborts, faults, SEQ_SYNC and the reset outputs.
-/

namespace Sys2Proof.Machine

/-! ### Rails -/

def State.modSeq (s : State) (f : Seq → Seq) : State := { s with seq := f s.seq }

def State.modRail (s : State) (n : Rail) (f : SeqRail → SeqRail) : State :=
  s.modSeq fun q => { q with rails := q.rails.set n.val (f q.rails[n]) n.isLt }

/-- The state a rail belongs to; 0 is not sequenced (R272). -/
def State.railState (s : State) (n : Rail) : Nat := s.fld (F.SEQ_Sn_CFG_STATE n)

/-- The rails of a state. -/
def State.railsOf (s : State) (k : Nat) : List Rail := (upto 36).filter fun n => s.railState n == k && k != 0

/-- S0-S7 are the rail loops. -/
def railLoop? (n : Rail) : Option Loop := if h : n.val < 8 then some ⟨n.val, by omega⟩ else none

def State.railIsOn (s : State) (n : Rail) : Bool := s.bit (F.SEQ_Sn_STAT_ON n)
def State.railIsGood (s : State) (n : Rail) : Bool := s.bit (F.SEQ_Sn_STAT_GOOD n)

/-- R282, R285: a rail of the step reads off. -/
def State.railReads (s : State) (n : Rail) : Bool :=
  let r := s.seq.rails[n]
  r.readsOff || (match railLoop? n with
    | some l => s.loopSt l == 0 || s.loopSt l == 6
    | none => !s.bit (F.SEQ_Sn_CFG_DIS_WAIT n) && r.offDone)

/-- R273: turn a rail on: SEQ_ENn high, or the loop's on command; VREF 0x000 does not start (R284). Without
power-good it is good at once (R278). -/
def State.turnOn (s : State) (n : Rail) : State :=
  let s1 := (s.setBit (F.SEQ_Sn_STAT_ON n) true).modRail n fun r => { r with onDone := true }
  let s2 := match railLoop? n with
    | some l => if s1.fld (F.LP_Ln_VREF_VREF l) = 0 then s1
        else s1.onCommand l
    | none => s1
  if s2.bit (F.SEQ_Sn_CFG_PG_REQ n) then s2 else s2.setBit (F.SEQ_Sn_STAT_GOOD n) true

/-- R281: turn a rail off. -/
def State.turnOff (s : State) (n : Rail) : State :=
  if !s.railIsOn n then s else
  let s1 := (s.setBit (F.SEQ_Sn_STAT_ON n) false).setBit (F.SEQ_Sn_STAT_GOOD n) false
  match railLoop? n with
  | some l => s1.offCommand l
  | none => s1

/-- R290: force a rail off: SEQ_ENn low at once; a loop's channels LOW for STG_DELAY, then MID. -/
def State.forceOff (s : State) (n : Rail) : State :=
  let s1 := (((s.setBit (F.SEQ_Sn_STAT_ON n) false).setBit (F.SEQ_Sn_STAT_GOOD n) false).setBit (F.SEQ_Sn_STAT_FORCED n)
    true).raise 8 14
  match railLoop? n with
  | none => s1
  | some l =>
    if s1.loopSt l = 0 ∨ s1.loopSt l = 6 ∨ s1.loopSt l = 7 then s1
    else if s1.bit (F.PROT_Ln_STATUS_HICCUP l) then s1.endHiccup l
    else ((s1.setLoopSt l 4).loopHalf l .low).modLoop l fun k => { k with stopLow := true, stopping := false, fbHigh := none }

/-! ### Reset outputs (R296, R297) -/

def State.modRst (s : State) (m : Fin 4) (f : RstOut → RstOut) : State :=
  s.modSeq fun q => { q with rst := q.rst.set m.val (f q.rst[m]) m.isLt }

/-- Drive RSTOUTmn; a change of level raises RST_m (G8). -/
def State.driveRst (s : State) (m : Fin 4) (high : Bool) : State :=
  if s.bit (F.SEQ_RSTm_LEVEL m) = high then s else (s.setBit (F.SEQ_RSTm_LEVEL m) high).raise 8 (9 + m.val)

/-- R296: a power-down step begins from state k: every output tied to k or below goes low. -/
def State.assertRst (s : State) (k : Nat) : State :=
  s.forAll fun (m : Fin 4) t =>
    if t.fld (F.SEQ_RSTm_STATE m) ≤ k then (t.driveRst m false).modRst m fun _ => { stretch := false, lossHeld := false } else t

/-- R296: the power-up step into state k completes: the outputs tied to k begin their stretch. -/
def State.stretchRst (s : State) (k : Nat) : State :=
  s.forAll fun (m : Fin 4) t =>
    if t.fld (F.SEQ_RSTm_STATE m) = k then t.modRst m fun r => { r with stretch := true } else t

/-- R297: a rail of a state lost its power-good. -/
def State.lossRst (s : State) (k : Nat) : State :=
  s.forAll fun (m : Fin 4) t =>
    let live := t.bit (F.SEQ_RSTm_LEVEL m) || t.seq.rst[m].stretch || t.seq.rst[m].lossHeld
    if t.bit (F.SEQ_RSTm_LOSS m) && decide (k ≤ t.fld (F.SEQ_RSTm_STATE m)) && live then
      (t.driveRst m false).modRst m fun _ => { stretch := false, lossHeld := true }
    else t

/-- R297: every rail that counts for an output is good. -/
def State.rstGood (s : State) (m : Fin 4) : Bool :=
  (upto 36).all fun n => s.railState n == 0 || decide (s.fld (F.SEQ_RSTm_STATE m) < s.railState n) || s.railIsGood n

/-! ### SEQ_SYNC (R287, R288) -/

def State.syncEn (s : State) : Bool := s.bit F.SEQ_CFG_SYNC_EN

/-- Drive or release SEQ_SYNC: driven, it reads low; released by a device that is in no group, it is pulled up; in a
group, the other members hold it until the release qualifies (R287, R288; log 50). -/
def State.driveSync (s : State) (low : Bool) : State :=
  let s1 := s.setBit F.SEQ_STATUS_SYNC_DRIVE low
  if low then s1.setBit F.SEQ_STATUS_SYNC_LINE false
  else if s1.syncEn then s1 else s1.setBit F.SEQ_STATUS_SYNC_LINE true

/-! ### Steps (R279-R283) -/

def State.cur (s : State) : Nat := s.fld F.SEQ_STATUS_CUR
def State.target (s : State) : Nat := s.fld F.SEQ_CTRL_TARGET
/-- DIR: 0 idle, 1 powering up, 2 powering down. -/
def State.dir (s : State) : Nat := s.fld F.SEQ_STATUS_DIR

/-- CUR changes (G8.13). -/
def State.setCur (s : State) (k : Nat) : State := (s.setFld F.SEQ_STATUS_CUR k).raise 8 13

/-- R280: the entry instant of a power-up step into state k. -/
def State.enterUp (s : State) (k : Nat) : State :=
  let s1 := ((s.setCur k).setFld F.SEQ_STATUS_DIR 1).setBit F.SEQ_STATUS_REACHED false
  let s2 := s1.modSeq fun q => { q with complete := false, ready := false }
  (s2.railsOf k).foldl (fun t (n : Rail) => (((t.setFld (F.SEQ_Sn_STAT_CHAT n) 0).setBit (F.SEQ_Sn_STAT_FORCED n) false).modRail n
    fun _ => { onDone := false, offDone := false, readsOff := false, was := false })) s2

/-- R281: the entry instant of a power-down step of CUR; the reset outputs fall first (R296). -/
def State.enterDown (s : State) : State :=
  let k := s.cur
  let s1 := ((s.assertRst k).setFld F.SEQ_STATUS_DIR 2).setBit F.SEQ_STATUS_REACHED false
  let s2 := s1.modSeq fun q => { q with complete := false, ready := false }
  (s2.railsOf k).foldl (fun t (n : Rail) => t.modRail n fun r => { r with offDone := false, readsOff := false }) s2

/-- What follows with no step in progress: idle at TARGET, ready for the group, or the next step (R279-R281, R288). -/
def State.advance (s : State) : State :=
  if !s.seq.started then s
  else if s.cur = s.target then
    let s1 := (s.setFld F.SEQ_STATUS_DIR 0).modSeq fun q => { q with ready := false }
    let s2 := if s1.bit F.SEQ_STATUS_REACHED then s1 else (s1.setBit F.SEQ_STATUS_REACHED true).raise 8 0
    s2.driveSync (s2.syncEn && !s2.seq.holdOff)
  else if s.syncEn && !(s.seq.aborting && decide (s.target < s.cur)) then
    let s1 := (s.setBit F.SEQ_STATUS_REACHED false).modSeq fun q => { q with ready := true }
    if s1.seq.holdOff then s1 else s1.driveSync false
  else if s.cur < s.target then s.enterUp (s.cur + 1)
  else s.enterDown

/-- R293, R72: power down from the present state to 0 without waiting for SEQ_SYNC. -/
def State.seqPowerDown (s : State) : State :=
  let s1 := (s.setFld F.SEQ_CTRL_TARGET 0).modSeq fun q => { q with aborting := true, ready := false }
  let s2 := if s1.seq.started then s1.driveSync s1.syncEn else s1
  if s2.dir = 2 then s2 else if s2.cur = 0 then (s2.modSeq fun q => { q with aborting := false }).advance else s2.enterDown

/-- R293: an abort; during a start attempt it is the failure SEQ_ABORT. -/
def State.abort (s : State) : State :=
  let s1 := (s.setBit F.SEQ_STATUS_ABORTED true).seqPowerDown
  if s1.boot.attempt then s1.endAttempt 0x0A else s1

/-- R294: a sequencer fault of the device scope: one report, its crown cause, SEQ_FAULT and LAST. -/
def State.seqFault (s : State) (code sev : Nat) (rail : Option Rail) : State :=
  let s1 := (s.report scopeDevice code sev none 0).raise 8 (code + 1)
  let s2 := ((s1.setFld F.SEQ_FAULT_CAUSE code).setFld F.SEQ_FAULT_RAIL ((rail.map Fin.val).getD 63)).setFld
    F.SEQ_FAULT_STATE s.cur
  let s3 := s2.satInc F.SEQ_FAULT_COUNT
  match rail with
  | some n => s3.setFld (F.SEQ_Sn_STAT_LAST n) code
  | none => s3

/-! ### TARGET (R283) -/

/-- A new TARGET: an incomplete power-up step reverses if it lies above; a step otherwise goes on. -/
def State.retarget (s : State) (k : Nat) : State :=
  let s1 := s.setFld F.SEQ_CTRL_TARGET k
  if !s1.seq.started then s1
  else if s1.dir = 2 then s1
  else if s1.dir = 1 ∧ !s1.seq.complete then if k < s1.cur then s1.enterDown else s1
  else (s1.setBit F.SEQ_STATUS_REACHED (s1.cur == k && s.bit F.SEQ_STATUS_REACHED)).advance

/-! ### Rows of rails (R278, R280-R282, R285, R286, R290-R292) -/

/-- The rail's power-up step is in progress, and not complete. -/
def State.inUpStep (s : State) (n : Rail) : Bool := s.dir == 1 && !s.seq.complete && s.railState n == s.cur && s.cur != 0

def doRailOn (n : Rail) (s : State) : Answer :=
  s.onlyIf (s.inUpStep n && !s.seq.rails[n].onDone) fun s => s.turnOn n

/-- R281, R290: the off instant; a rail forced off before is left as it is. -/
def doRailOff (n : Rail) (s : State) : Answer :=
  s.onlyIf (s.dir == 2 && s.railState n == s.cur && !s.seq.rails[n].offDone) fun s =>
    (s.modRail n fun r => { r with offDone := true }).turnOff n

/-- CHATTER_MAX: 0 acts as 1, 255 switches the check off. -/
def State.chatterMax (s : State) : Nat := max (s.fld F.SEQ_CFG_CHATTER_MAX) 1

/-- R277: the sense of a rail loop can be inside in STATE 3 and 5 only. -/
def State.canBeInside (s : State) (n : Rail) : Bool :=
  match railLoop? n with
  | some l => s.loopSt l == 3 || s.loopSt l == 5
  | none => true

/-- R276, R277, R286: a crossing, counted from the on instant until the step is complete. -/
def State.crossing (s : State) (n : Rail) (within : Bool) : State :=
  let inside := within && s.canBeInside n
  let changed := s.bit (F.SEQ_Sn_STAT_INSIDE n) != inside
  let s1 := s.setBit (F.SEQ_Sn_STAT_INSIDE n) inside
  if changed && s1.inUpStep n && s1.seq.rails[n].onDone then
    let s2 := s1.satInc (F.SEQ_Sn_STAT_CHAT n)
    if s2.chatterMax < s2.fld (F.SEQ_Sn_STAT_CHAT n) ∧ s2.chatterMax ≠ 255 then (s2.seqFault 2 3 (some n)).abort else s2
  else s1

/-- R276: a threshold code of an external rail in microvolts: 200 mV + c x 5 mV, codes above 1020 acting as 1020. -/
def senseCode (c : Nat) : Int := 200000 + 5000 * (min c 1020 : Nat)

/-- R277: an offset code of a rail loop in microvolts: 1 mV units, 0 acting as 1 and 128-1023 as 127. -/
def offsetCode (c : Nat) : Int := 1000 * (clamp c 1 127)

/-- R276, R277: what the window comparator makes of a sense: inside from LO to HI, and once outside again only 10 mV within
each (1 mV on a rail loop, whose limits lie about V_t). -/
def State.windowInside (s : State) (n : Rail) (uv : Int) : Bool :=
  let was := s.bit (F.SEQ_Sn_STAT_INSIDE n)
  let lo := s.fld (F.SEQ_Sn_WIN_LO n)
  let hi := s.fld (F.SEQ_Sn_WIN_HI n)
  match railLoop? n with
  | some l =>
    let m : Int := if was then 0 else 1000
    let d : Rat := uv - 250 * s.vt l
    decide (((m - offsetCode lo : Int) : Rat) ≤ d) && decide (d ≤ ((offsetCode hi - m : Int) : Rat))
  | none =>
    let m : Int := if was then 0 else 10000
    decide (senseCode lo + m ≤ uv) && decide (uv ≤ senseCode hi - m)

def doSeqWindowCrossing (n : Rail) (uv : Int) (s : State) : Answer := .next (s.crossing n (s.windowInside n uv))

/-- R277: a rail loop that has left STATE 3 and 5 is outside. -/
def State.settleInside (s : State) : State :=
  s.forAll fun (l : Fin 8) t =>
    let n : Rail := ⟨l.val, by omega⟩
    if t.bit (F.SEQ_Sn_STAT_INSIDE n) && !t.canBeInside n then t.crossing n false else t

def doRailGood (n : Rail) (s : State) : Answer :=
  s.onlyIf (s.railIsOn n && s.bit (F.SEQ_Sn_STAT_INSIDE n) && s.bit (F.SEQ_Sn_CFG_PG_REQ n))
    fun s => s.setBit (F.SEQ_Sn_STAT_GOOD n) true

/-- R291, R292: a rail becomes bad. -/
def State.railBad (s : State) (n : Rail) : State :=
  let s1 := s.setBit (F.SEQ_Sn_STAT_GOOD n) false
  let k := s.railState n
  if k = 0 then s1
  else if s.dir = 2 then
    if k ≤ s.cur ∧ !(k = s.cur ∧ s.seq.rails[n].offDone) then (s1.seqFault 5 2 (some n)).forceOff n else s1
  else if k < s.cur ∨ (k = s.cur ∧ (s.seq.complete ∨ s.dir = 0)) then
    if s.bit (F.SEQ_Sn_CFG_ACT n) then ((s1.seqFault 4 3 (some n)).lossRst k).abort else (s1.seqFault 4 1 (some n)).lossRst k
  else s1

def doRailBad (n : Rail) (s : State) : Answer :=
  s.onlyIf (s.railIsGood n && s.bit (F.SEQ_Sn_CFG_PG_REQ n) && !s.bit (F.SEQ_Sn_STAT_INSIDE n)) fun s => s.railBad n

/-- R282: has a rail's sense come to read off? An external one below OFF_TH; a rail loop in STATE 0 or 6. -/
def State.senseOff (s : State) (x : RailSense) : Bool :=
  match railLoop? x.rail with
  | some l => s.loopSt l == 0 || s.loopSt l == 6
  | none => decide (x.uv < senseCode (s.fld (F.SEQ_Sn_WIN_OFF_TH x.rail)))

def doRailReadsOff (x : RailSense) (s : State) : Answer :=
  s.onlyIf (s.dir == 2 && s.railState x.rail == s.cur && s.seq.rails[x.rail].offDone && s.senseOff x) fun s =>
    s.modRail x.rail fun r => { r with readsOff := true }

/-- R280: every rail of the state is on and good, and every lower rail that was good still is. -/
def State.upDone (s : State) : Bool :=
  s.dir == 1 && !s.seq.complete && (s.railsOf s.cur).all (fun n => s.seq.rails[n].onDone && s.railIsGood n)
    && (upto 36).all fun n => decide (s.cur ≤ s.railState n) || !s.seq.rails[n].was || s.railIsGood n

/-- R280, R296: a power-up step completes. -/
def State.upComplete (s : State) (late : Bool) : State :=
  let s1 := (s.railsOf s.cur).foldl (fun t (n : Rail) => t.modRail n fun r => { r with was := true }) s
  let s2 := (s1.modSeq fun q => { q with complete := true }).stretchRst s.cur
  let s3 := if late then s2.raise 8 15 else s2
  s3.advance

/-- R281: every rail of the state has passed its off instant and reads off. -/
def State.downDone (s : State) : Bool :=
  s.dir == 2 && (s.railsOf s.cur).all fun n => s.seq.rails[n].offDone && s.railReads n

/-- R281, R293: CUR becomes s - 1. -/
def State.downComplete (s : State) : State :=
  let s1 := (s.railsOf s.cur).foldl (fun t (n : Rail) => t.modRail n fun r => { r with was := false }) s
  let s2 := (s1.setCur (s.cur - 1)).setFld F.SEQ_STATUS_DIR 0
  (if s2.cur = 0 then s2.modSeq fun q => { q with aborting := false, complete := false } else s2).advance

/-! ### Deadlines (R285, R289) -/

/-- R285: PG_TIMEOUT; of several rails not good SEQ_FAULT names the lowest (log 29). -/
def State.pgTimeout (s : State) : State :=
  match (s.railsOf s.cur).find? fun n => !(s.seq.rails[n].onDone && s.railIsGood n) with
  | some n => (s.seqFault 1 3 (some n)).abort
  | none => s

def doPgTimeout (s : State) : Answer :=
  s.onlyIf (s.dir == 1 && !s.seq.complete && s.fld (F.SEQ_STk_UP_TMO s.cur) != 0) fun s => s.pgTimeout

/-- R285: every rail that does not read off raises DIS_TIMEOUT and is forced off. -/
def State.disTimeout (s : State) : State :=
  ((s.railsOf s.cur).filter fun n => !s.railReads n).foldl
    (fun t (n : Rail) => ((t.seqFault 6 2 (some n)).forceOff n).modRail n fun r => { r with readsOff := true }) s

def doDisTimeout (s : State) : Answer :=
  s.onlyIf (s.dir == 2 && s.fld (F.SEQ_STk_DN_TMO s.cur) != 0) fun s => s.disTimeout

/-- R288: the release has qualified: the device steps; it drives the line low again SYNC_HOLD later. -/
def State.syncStep (s : State) : State :=
  let s1 := (s.setBit F.SEQ_STATUS_SYNC_LINE true).modSeq fun q => { q with holdOff := true }
  if s1.cur < s1.target then s1.enterUp (s1.cur + 1) else s1.enterDown

def doSyncReleaseQualified (s : State) : Answer :=
  s.onlyIf (s.seq.ready && !s.seq.holdOff && s.cur != s.target) fun s => s.syncStep

def doSyncHoldEnd (s : State) : Answer :=
  s.onlyIf s.seq.holdOff fun s =>
    let s1 := (s.modSeq fun q => { q with holdOff := false }).driveSync s.syncEn
    if s1.seq.ready then s1.driveSync false else s1

def doSyncTimeout (s : State) : Answer :=
  s.onlyIf (s.seq.ready && !s.seq.holdOff && s.fld F.SEQ_CFG_SYNC_TMO != 0) fun s => (s.seqFault 3 3 none).abort

/-- R296, R297: STRETCH has passed. -/
def doRstoutRelease (m : Fin 4) (s : State) : Answer :=
  s.onlyIf (s.seq.rst[m].stretch || (s.seq.rst[m].lossHeld && s.rstGood m)) fun s =>
    (s.driveRst m true).modRst m fun _ => { stretch := false, lossHeld := false }

/-! ### Effects of writes (R275, R302) -/

/-- R275: STATE is taken only while idle at state 0. -/
def State.writeRailState (s : State) (n : Rail) (k : Nat) : State :=
  if s.dir = 0 ∧ s.cur = 0 then s.setFld (F.SEQ_Sn_CFG_STATE n) k else s.setBit F.SEQ_STATUS_CFG_DISC true

def State.clearSeqFault (s : State) : State :=
  (((s.setFld F.SEQ_FAULT_CAUSE 0).setFld F.SEQ_FAULT_RAIL 0).setFld F.SEQ_FAULT_STATE 0).setFld F.SEQ_FAULT_COUNT 0

/-- Every SEQ_ENn and RSTOUTn low, CUR 0, no power-down: the sequencer is not started. -/
def State.seqStop (s : State) : State :=
  let s1 := s.forAll fun (n : Rail) t => ((t.setBit (F.SEQ_Sn_STAT_ON n) false).setBit (F.SEQ_Sn_STAT_GOOD n) false).modRail n
    fun _ => { onDone := false, offDone := false, readsOff := false, was := false }
  let s2 := s1.forAll fun (m : Fin 4) t => (t.driveRst m false).modRst m fun _ => { stretch := false, lossHeld := false }
  let s3 := ((s2.setFld F.SEQ_STATUS_CUR 0).setFld F.SEQ_STATUS_DIR 0).setBit F.SEQ_STATUS_REACHED false
  s3.modSeq fun q => { q with started := false, complete := false, aborting := false, ready := false, holdOff := false }

/-- R30: a supply loss: the sequencer stops, and SEQ_SYNC is as SYNC_EN gives (R287). -/
def State.seqDrop (s : State) : State := s.seqStop.driveSync s.syncEn

/-- Table 2.1, PHASE 7: the boot ROM starts the sequencer at state 0; out of a group the line is released (R287). -/
def State.seqStart (s : State) : State :=
  ((s.modSeq fun q => { q with started := true, complete := false, aborting := false, ready := false, holdOff := false }).driveSync
    s.syncEn).advance

end Sys2Proof.Machine
end

