-- ==== Sys2Proof/Machine/CoreOps.lean ====
section
/-!
DEFINITION. The cores as the rest of the part sees them: release, unrecoverable faults, SRAM with its mirrors, and
stepping through cycles (R356, R357, R414, R417, R425, R428).
-/

namespace Sys2Proof.Machine

def State.core (s : State) (k : Core) : CoreState := s.cores[k]

def State.modCore (s : State) (k : Core) (f : CoreState → CoreState) : State :=
  { s with cores := s.cores.set k.val (f s.cores[k]) k.isLt }

/-- CORE_Ck_STATUS.STATE: 0 in reset, 1 running, 2 in WFE, 3 halted. -/
def State.coreSt (s : State) (k : Core) : Nat := s.fld (F.CORE_Ck_STATUS_STATE k)

/-- The domain of a core (Table 14.1). -/
def coreDom (k : Core) : Nat := k.val + 2

/-- A core register; w0 reads 0 (R419). -/
def State.wreg (s : State) (k : Core) (r : Fin 16) : Word := if r = 0 then 0 else (s.core k).w[r]

/-- Write a core register; writes to w0 are discarded (R419). -/
def State.setW (s : State) (k : Core) (r : Fin 16) (x : Word) : State :=
  if r = 0 then s else s.modCore k fun c => { c with w := c.w.set r.val x r.isLt }

/-! ### PSR (Table 14.4) -/

def psrZ : Nat := 0
def psrN : Nat := 1
def psrC : Nat := 2
def psrV : Nat := 3
def psrExl : Nat := 4
def psrIe : Nat := 5
def psrApp : Nat := 6

def State.psrBit (s : State) (k : Core) (i : Nat) : Bool := (s.core k).psr.getLsbD i

def setBitW (w : Word) (i : Nat) (b : Bool) : Word := putBits w i 1 b.toNat

/-- Applet mode (R432). -/
def State.inApp (s : State) (k : Core) : Bool := s.psrBit k psrApp

/-! ### Release and faults (R414, R428) -/

/-- R414: a core begins at its entry point, if the image gives it one. Registers that the rule does not name take
their reset value (log 30). -/
def State.releaseCore (s : State) (k : Core) : State :=
  match s.boot.entry[k] with
  | none => s
  | some dest =>
    let a := BitVec.ofNat 32 (0x20000000 + dest)
    (((s.modCore k fun _ => { CoreState.reset with pc := a, vbase := a }).setFld (F.CORE_Ck_STATUS_STATE k) 1).setBit
      (F.CORE_Ck_FAULT_HELD k) false).setFld (F.CORE_Ck_ENTRY_DEST k) dest

/-- A core runs boot ROM code (R27, R413; log 32). -/
def State.romCore (s : State) (k : Core) : State :=
  (s.modCore k fun _ => CoreState.reset).setFld (F.CORE_Ck_STATUS_STATE k) 1

/-- R428: a restart under R414; a core on boot ROM code begins that again (log 105). -/
def State.restartCore (s : State) (k : Core) : State :=
  if (s.boot.entry[k]).isSome then s.releaseCore k else s.romCore k

/-- A core held in reset under R428. -/
def State.holdCore (s : State) (k : Core) : State :=
  (s.setFld (F.CORE_Ck_STATUS_STATE k) 0).setBit (F.CORE_Ck_FAULT_HELD k) true

/-- R428: an unrecoverable fault: 1 nested exception with its cause, 2 watchdog, 3 code lost; CAUSE is 0 but for the first
(log 105). -/
def State.coreFault (s : State) (k : Core) (kind cause : Nat) : State :=
  let s1 := (((s.setFld (F.CORE_Ck_FAULT_KIND k) kind).setFld (F.CORE_Ck_FAULT_CAUSE k)
    (if kind = 1 then cause else 0)).setFld (F.CORE_Ck_FPC_PC k) (s.core k).pc.toNat).raise 14 k.val
  if s1.boot.attempt then (((s1.endAttempt 0x0D)).seqPowerDown).holdCore k
  else if kind = 3 then s1.holdCore k
  else (s1.restartCore k).satInc (F.CORE_Ck_STATUS_RESTARTS k)

/-! ### SRAM and its mirrors (R61, R356, R357) -/

/-- The other copy of an SRAM word in an image-backed region (R66, R356). -/
def State.mirrorOf (s : State) (a : Nat) : Option Nat :=
  s.boot.sections.findSome? fun x =>
    let m := x.mirrorBank * 0x80000 + x.dest % 0x80000
    if !x.mirror then none
    else if x.dest ≤ a ∧ a < x.dest + x.size then some (m + (a - x.dest))
    else if m ≤ a ∧ a < m + x.size then some (x.dest + (a - m))
    else none

/-- Record a containment event's address (IRQ_CONT_ADDR). -/
def State.contAddr (s : State) (addr kind : Nat) : State :=
  (s.setFld F.IRQ_CONT_ADDR_ADDR addr).setFld F.IRQ_CONT_ADDR_KIND kind

/-- What a core's read of an SRAM word meets: whether the word is returned, and the cycles it costs beyond the access. -/
structure SramRead where
  ok : Bool
  extra : Nat
  state : State

/-- R356, R357: read the word at `a` (a multiple of 4). -/
def State.sramRead (s : State) (a : Nat) (glitch : Bool) : SramRead :=
  if !(s.sramBad.contains a || glitch) then ⟨true, 0, s⟩ else
  match s.mirrorOf a with
  | some m =>
    let s1 := ((s.raise 13 0).satInc F.IRQ_CONT_CNT_REPLAYS).contAddr a 1
    if s1.sramBad.contains m then ⟨false, 8, s1.raise 13 2⟩
    else ⟨true, 8, s1.setSramWord a (s1.sramWord m)⟩
  | none =>
    if s.sramBad.contains a then ⟨false, 2, ((s.raise 13 1).satInc F.IRQ_CONT_CNT_DATA_FAULTS).contAddr a 2⟩
    else ⟨true, 2, s⟩

/-- A write; an image-backed region takes both copies (R356). -/
def State.sramStore (s : State) (a : Nat) (bs : List Byte) : State :=
  let s1 := s.setSramBytes a bs
  match s.mirrorOf a with
  | some m => s1.setSramBytes m bs
  | none => s1

/-! ### Cycles and the multiplier (R417, R425, R433) -/

/-- The 64-bit result as a signed integer. -/
def pair (hi lo : Word) : Int := (hi ++ lo).toInt

/-- The exact product as the instruction asks for it; Q18 rounds to nearest, ties away from zero (R425). -/
def MulOp.product (m : MulOp) : Int :=
  match m.kind with
  | .mulu => (m.a.toNat * m.b.toNat : Nat)
  | .muls | .macs => m.a.toInt * m.b.toInt
  | .mulq | .macq => roundDiv (m.a.toInt * m.b.toInt) (2 ^ 18)

/-- A result lands in MHI:MLO (R425). -/
def CoreState.land (c : CoreState) (m : MulOp) : CoreState :=
  let acc := m.kind == .macs || m.kind == .macq
  let v := BitVec.ofInt 64 ((if acc then pair c.mhi c.mlo else 0) + m.product)
  { c with mhi := v.extractLsb' 32 32, mlo := v.extractLsb' 0 32 }

/-- `n` cycles pass: multiplier results land in program order, and CYCLE counts (R419, R425). -/
def CoreState.pass (c : CoreState) (n : Nat) : CoreState :=
  let done := c.mul.filter fun m => decide (m.left ≤ n)
  let rest := (c.mul.filter fun m => decide (n < m.left)).map fun m => { m with left := m.left - n }
  let c1 := done.foldl CoreState.land c
  { c1 with mul := rest, cycle := c.cycle + BitVec.ofNat 32 n }

/-- A core spends `n` cycles; CORE_SBX_LEFT counts while APP is 1 (R433). -/
def State.spend (s : State) (k : Core) (n : Nat) : State :=
  let s1 := s.modCore k fun c => c.pass n
  if k = 3 ∧ s.inApp k then s1.setFld F.CORE_SBX_LEFT_LEFT (s.fld F.CORE_SBX_LEFT_LEFT - n) else s1

end Sys2Proof.Machine
end

