-- ==== Sys2Proof/Machine/Irq.lean ====
section
/-!
DEFINITION. The crown tree (chapter 11): level causes, crown, views, INTn, the events a core sees of them, and what a
change of them sets going on the wires (R175, R313, R429).
-/

namespace Sys2Proof.Machine

/-! ### Conditions of level causes -/

/-- FULL of a mailbox channel, whatever TST_MBXk forces (R451). -/
def State.mbxFull (s : State) (n : Nat) : Bool := s.bit (F.MBX_CHn_ACK_FULL n)

/-- MBX_CHn_CFG of a channel; the tenancy channels' are fixed (R327): DIR, RCV, SND. -/
def State.mbxCfg (s : State) (n : Nat) : Nat × Nat × Nat :=
  if n < 3 then (0, 0, 2 ^ n)
  else if 64 ≤ n ∧ n < 67 then (0, 0, 2 ^ (n - 64))
  else (s.fld (F.MBX_CHn_CFG_DIR n), s.fld (F.MBX_CHn_CFG_RCV n), s.fld (F.MBX_CHn_CFG_SND n))

/-- R429, R333: some channel of a direction with a receiver is FULL. -/
def State.mbxFullFor (s : State) (dir rcv : Nat) : Bool :=
  (List.range 256).any fun n => s.mbxFull n && (s.mbxCfg n).1 == dir && (s.mbxCfg n).2.1 == rcv

/-- An enabled alert cause is pending in a slot (R174). -/
def State.alertPending (s : State) (v : Port) (slot : Fin 2) : Nat :=
  s.fld (F.VLK_n_ALERTs_CAUSE v slot) &&& s.fld (F.VLK_n_CFG_ATTN_MASK v)

/-- R21: the debug port is unlocked. -/
def State.debugUnlocked (s : State) : Bool :=
  s.bit F.IMG_STATUS_ACCEPTED && s.bit F.TST_CFG_DEBUG_OPEN && !s.houseOp && !s.seedling

/-- R353: every running loop has FB_TRACK = 1. -/
def State.fbTrackAll (s : State) : Bool :=
  (upto 12).all fun l => !s.loopOn l || s.bit (F.LP_Ln_FB_FB_TRACK l)

/-- IRQ_CONT_STATUS bits [6:0] (Table 11.4). -/
def State.contBits (s : State) : List Bool :=
  [!s.domOn 9 || s.bit F.IRQ_CONT_STATUS_CHECKER_OK, s.fullOp, s.bit F.IMG_STATUS_ACCEPTED,
   !s.bit F.TST_CTRL_UNLOCKED, !s.debugUnlocked, !s.power.testEn, s.fbTrackAll]

/-- R348: the guarantee's conditions all hold. -/
def State.guarantee (s : State) : Bool := s.contBits.all id

/-- The level causes of Table 11.1; none for an edge cause. -/
def State.levelCause (s : State) (g b : Nat) : Option Bool :=
  match g with
  | 0 => match b with
    | 2 => some s.seedling
    | 5 => some s.houseOp
    | 6 => some (s.bit F.CLK_STATUS_XTAL_FAIL)
    | 7 => some (s.bit F.CLK_STATUS_PLL_LOST)
    | 8 => some (s.bit F.PE_STATUS_SAFE_PLL)
    | 9 => some (s.bit F.PE_STATUS_SYNC_BAD)
    | 10 => some (s.bit F.PE_STATUS_SYNC_LOST)
    | 11 => some (s.bit F.PE_STATUS_TOP0_REFUSED)
    | 12 => some (s.fld F.PE_FAULT_STATUS_HELD != 0)
    | 14 => some (s.bit F.DORMANT_CFG_REFUSED)
    | 15 => some (s.reg A.WAKE_CAUSE != 0)
    | _ => none
  | 2 => some (s.fld (F.LP_Ln_STATUS_STATE (b % 8)) == if b < 8 then 5 else 6)
  | 4 =>
    if h : b < 8 then some (s.alertPending ⟨b / 2, by omega⟩ ⟨b % 2, by omega⟩ != 0)
    else if h : b < 16 ∧ 12 ≤ b then
      some (s.slotConflict ⟨b - 12, by omega⟩ 0 || s.slotConflict ⟨b - 12, by omega⟩ 1)
    else none
  | 5 => match b % 4 with
    | 0 => some (s.fld (F.PD_Pp_EVENT_EVENTS (b / 4)) != 0)
    | 1 => some (s.bit (F.PD_Pp_VDM_RXCTL_VALID (b / 4)))
    | 3 => some (s.bit (F.PP_DB_DB_OC.at (b / 4)))
    | _ => none
  | 6 => if 8 ≤ b then some (s.fld (F.LP_Ln_STATUS_STATE (8 + b % 4)) == if b < 12 then 6 else 5) else none
  | 7 => match b with
    | 0 => some (s.bit F.PP_BUD_STATUS_SHORT)
    | 3 => some (s.bit F.PD_PMEM_STATUS_PMEM_FULL)
    | 4 => some (s.bit F.PD_POLICY_BAD)
    | 13 => some (s.fld F.PP_DB_DB_ACTIVE != 7)
    | _ => none
  | 8 => match b with
    | 1 => some (s.bit F.SEQ_STATUS_ABORTED)
    | 8 => some (s.bit F.SEQ_STATUS_CFG_DISC)
    | _ => none
  | 10 =>
    if b < 3 then some (s.mbxFullFor 1 b)
    else if 6 ≤ b ∧ b < 9 then some (s.fld (F.HP_TWk_STATUS_CML (b - 6)) != 0) else none
  | 11 => match b with
    | 2 => some (s.domOn 11 && !s.bit F.TCV_STATUS_REF_OK)
    | 8 => some (s.bit F.THM_STATUS_WARN)
    | 9 => some (s.fld F.THM_STATUS_STEP != 0)
    | _ => none
  | 12 => match b with
    | 7 => some (s.recorder.queue.length == 16)
    | 9 => some s.firstFree.isNone
    | _ => none
  | 13 => match b with
    | 7 => some (s.domOn 9 && !s.bit F.IRQ_CONT_STATUS_CHECKER_OK)
    | 15 => some (!s.guarantee)
    | _ => none
  | 15 => match b with
    | 0 => some (s.bit F.TST_CTRL_UNLOCKED)
    | 2 => some (s.fld F.TST_VLK_DLY != 0)
    | 3 => some ((upto 4).any fun k => s.bit (F.TST_MBXk_EN k))
    | 4 => some (s.fld F.TST_JIT_SEL_SEL != 0 && s.fld F.TST_JIT_J != 0)
    | 5 => some (s.fld F.TST_TRG_SEL_SEL != 0 && s.fld F.TST_TRG_D != 0)
    | 6 => some (s.fld F.TST_TW_S != 0)
    | 7 => some (s.fld F.TST_KPR_W != 0)
    | 8 => some (!s.sramBad.isEmpty || !s.regBad.isEmpty)
    | 9 => some s.debugUnlocked
    | 10 => some (s.bit F.PE_STATUS_FROZEN)
    | 11 => some s.power.testEn
    | _ => none
  | _ => none

/-! ### Crown, views and INTn (R339-R341) -/

/-- IRQ_CAUSEg as it reads: edge causes as held, level causes as their conditions are. -/
def State.causeWord (s : State) (g : Nat) : Nat :=
  (List.range 16).foldl (fun w b =>
    w + (match s.levelCause g b with
      | some v => v.toNat
      | none => s.fld (causeFld g b)) * 2 ^ b) 0

/-- Fold one bit per group. -/
def groupBits (f : Nat → Bool) : Nat := (List.range 16).foldl (fun w g => w + (f g).toNat * 2 ^ g) 0

def State.crown (s : State) : Nat := groupBits fun g => s.causeWord g != 0

/-- Host Hk's view (R340). -/
def State.view (s : State) (k : Nat) : Nat :=
  groupBits fun g => s.fld (F.IRQ_ENk_g_EN k g) != 0 && s.causeWord g &&& s.fld (F.IRQ_ENk_g_EN k g) != 0

/-- INTn is driven low (R341): not in PHASE 0, while D2 is off or in dormant. -/
def State.intLow (s : State) : Bool :=
  s.domOn 2 && !s.power.dormant && s.phaseNo != 0 && (s.seedling || (upto 3).any fun k => s.view k != 0)

/-! ### Events (R429) -/

/-- CORE_Ck_EVT_PEND as it reads. -/
def State.evtPend (s : State) (k : Core) : Nat :=
  (s.mbxFullFor 0 k.val).toNat + s.fld (F.CORE_Ck_EVT_PEND_TIMER k) * 2 + s.fld (F.CORE_Ck_EVT_PEND_RING k) * 8
    + s.crown * 65536

/-- An enabled event is pending. -/
def State.evtDue (s : State) (k : Core) : Bool :=
  s.fld (F.CORE_Ck_EVT_EN_EN k) != 0 && s.evtPend k &&& s.fld (F.CORE_Ck_EVT_EN_EN k) != 0

/-! ### What a change sets going -/

/-- R313: bits of host Hk's view have risen: a Host Notify is due, or its data word is updated. -/
def State.noteView (s t : State) (k : HostId) : State :=
  if t.view k &&& (65535 - s.view k) != 0 && t.bit (F.HP_TWk_CFG_NOTIFY_EN k) && t.domOn 2 then
    { t with hosts := t.hosts.set k.val { t.hosts[k] with notify := some (BitVec.ofNat 16 (t.view k)) } k.isLt }
  else t

/-- R175: an enabled alert cause of a link port has become pending. -/
def State.noteAlerts (s t : State) (v : Port) : State :=
  if (upto 2).any (fun k => t.alertPending v k &&& (127 - s.alertPending v k) != 0) then
    { t with links := t.links.set v.val { t.links[v] with owed := true } v.isLt }
  else t

/-- What every command does beside its own row: notifies and attention pulses fall due with the change it made. -/
def State.noteChange (s t : State) : State :=
  let t1 := (upto 3).foldl (fun u k => s.noteView u k) t
  (upto 4).foldl (fun u v => s.noteAlerts u v) t1

end Sys2Proof.Machine
end

