-- ==== Sys2Proof/Machine/Load.lean ====
section
/-!
DEFINITION. The register-load step and the restores of domains (R38, R45, R65, R469, R470).
-/

namespace Sys2Proof.Machine

/-! ### Base values (pass 1 of R65) -/

/-- The base value of a field: its constant, the keeper's factory default, or the calibration set as stored. -/
def State.baseField (s : State) (r : RegAt) (f : FieldD) : Nat :=
  if f.isImg then if s.factorySkips r.addr then 0 else f.start r
  else if f.isCal then
    match calOffset r.cls.name r.i 0 with
    | some off => (s.kprWord (0x4000 + off)).toNat / 2 ^ f.lo % 2 ^ f.width
    | none => 0
  else f.start r

def State.baseWord (s : State) (r : RegAt) : Word :=
  r.fields.foldl (fun w f => w ||| BitVec.ofNat 32 (s.baseField r f <<< f.lo)) 0

/-- The stored live fields of a register, by their lowest bits: they show the part's own condition, which a load does not
change (R44). A live field that `State.liveWord` gives is not stored. -/
def liveFields (n : RegName) : List Nat :=
  match n with
  | .START_STATUS => [0, 4, 9]
  | .PE_CHn_STATUS => [4]
  | .PE_CHn_POS => [0, 13]
  | .PE_STATUS => [0, 1, 2, 3]
  | .PE_CAL_CODE => [0, 16]
  | .LP_Ln_BLK_CTRL => [1]
  | .LP_Ln_STATUS => [0, 3, 8, 9, 12, 13]
  | .LP_Ln_VNOW => [0]
  | .LP_CHn_I => [16]
  | .LP_CHn_CARD => [0, 17]
  | .VLK_n_STATUS => [2, 5]
  | .PROT_Ln_STATUS => [0, 1, 2, 3, 6, 7]
  | .PROT_Ln_LADDER => [0, 8, 16, 24]
  | .PD_Pp_STATUS => [0, 4, 5, 6, 7, 8, 9, 10, 12, 13, 14, 15]
  | .PD_Pp_VI => [0, 12, 22, 23]
  | .PD_Pp_MODES => [16]
  | .PP_Pp_RUN => [0, 12]
  | .PP_Pp_STATUS => [0, 3, 4, 5, 6, 7]
  | .PP_Pp_MEAS => [0]
  | .PP_BUD_STATUS => [24]
  | .PP_DB => [4]
  | .SEQ_Sn_STAT => [0, 1, 2]
  | .SEQ_RSTm => [20]
  | .SEQ_STATUS => [0, 6, 13, 14, 15]
  | .HP_TWk_STATUS => [16]
  | .IRQ_CONT_STATUS => [0]
  | .TCV_STATUS => [6]
  | .THM_STATUS => [0, 1, 5, 6]
  | .CORE_Ck_STATUS => [0]
  | .CORE_Ck_FAULT => [7]
  | .CORE_SBX_LEFT => [0]
  | .TST_CTRL => [0]
  | _ => []

/-- The bits of a register that a load of base values changes (R15, R65). A D0 register keeps its fields with Reset 0, 1
or a constant (R45), IRQ_CAUSEg its causes (R344), a stored live field its condition (R44), and IMG_STATUS, IMG_GEN and
IMG_LEN what they tell of the start (R82; DEDUCED from the example of R72, log 78). -/
def loadMask (r : RegAt) : Word :=
  if r.cls.dom = .d0 then r.maskOf FieldD.isImg ||| r.maskOf FieldD.isCal
  else
    match r.cls.name with
    | .IRQ_CAUSEg | .IMG_STATUS | .IMG_GEN | .IMG_LEN => 0
    | _ => ~~~(r.maskOf fun f => (liveFields r.cls.name).contains f.lo)

/-- The img and fac bits of a register (Table 0.7). -/
def imgMask (r : RegAt) : Word := r.maskOf FieldD.isImg

/-- Registers whose base value may differ from the value an unlisted address reads as: those of the calibration set,
and, after a factory group reads Uncorrectable, every register with a factory triple. -/
def State.oddBases (s : State) : List Nat :=
  let cal := allClasses.filter fun c => c.fields.any FieldD.isCal
  (cal.flatMap fun c => c.instances.map RegAt.addr)
    ++ (if s.kpr.ecc2.all (fun g => decide (g < 0x100) || decide (0x4000 ≤ g)) then []
        else factoryTriples.map fun t => t.addr.toNat)

/-- Give the bits of a register that `mask` selects their base value. -/
def State.setBase (s : State) (mask : RegAt → Word) (a : Nat) : State :=
  match findReg a with
  | some r => s.setReg a ((s.reg a &&& ~~~(mask r)) ||| (s.baseWord r &&& mask r))
  | none => s

/-- R389, R469: the factory table is read: its count, and the triples where the count can be read. -/
def State.readFactory (s : State) : State :=
  s.kprTouchAll 0x100 (if s.kprEcc 0x100 = 2 then 1 else 1 + 3 * factoryTriples.length)

/-- The registers that `sel` selects take their base values in the bits that `mask` selects. -/
def State.loadBits (s : State) (mask : RegAt → Word) (sel : RegAt → Bool) : State :=
  let pick (a : Nat) : Bool := match findReg a with | some r => sel r | none => false
  let s1 := (s.regs.map Prod.fst).foldl (fun t a => if pick a then t.setBase mask a else t) s
  let s2 := { s1 with regBad := s1.regBad.filter fun a => !pick a }
  (s.oddBases.foldl (fun t a => if pick a then t.setBase mask a else t) s2).readFactory

/-- Pass 1: every register that `sel` selects takes its base value. -/
def State.loadBase (s : State) (sel : RegAt → Bool) : State := s.loadBits loadMask sel

/-- The REGS copy in bank 0 (R66). -/
def State.regsCopy (s : State) : List Triple :=
  (List.range s.boot.triples).map fun i => ⟨s.sramWord (12 * i), s.sramWord (12 * i + 4), s.sramWord (12 * i + 8)⟩

/-- Pass 2: the triples in image order, on the registers that `sel` selects. -/
def State.loadTriples (s : State) (ts : List Triple) (sel : RegAt → Bool) : State :=
  ts.foldl (fun t x =>
    match findReg x.addr.toNat with
    | some r => if sel r then t.setReg x.addr.toNat ((t.reg x.addr.toNat &&& ~~~x.mask) ||| (x.value &&& x.mask)) else t
    | none => t) s

/-- The engine's registers in force follow a load (log 31). -/
def State.actFollows (s : State) (sel : RegAt → Bool) : State :=
  let eng (a : Nat) : Bool := decide (0x10000 ≤ a) && decide (a < 0x20000)
    && match findReg a with | some r => sel r | none => false
  (s.regs.map Prod.fst).foldl (fun t a => if eng a then t.setAct a (t.reg a) else t)
    { s with act := s.act.filter fun e => !eng e.1 }

/-- Do the REGS copy's words read good parity (R357)? -/
def State.regsCopyBad (s : State) : Option Nat := s.sramBad.find? fun w => decide (w < 12 * s.boot.triples)

/-- R38: the registers of a domain take their values from the image copy and the keeper. -/
def State.restoreDomain (s : State) (d : Nat) : State :=
  let sel (r : RegAt) : Bool := r.dom == d
  ((s.loadBase sel).loadTriples s.regsCopy sel).actFollows sel

/-- Registers of a domain that has lost power (R38). -/
def State.dropRegs (s : State) (d : Nat) : State :=
  let of (a : Nat) : Bool := match findReg a with | some r => r.dom == d | none => false
  { s with regs := s.regs.filter (fun e => !of e.1), act := s.act.filter fun e => !of e.1 }

end Sys2Proof.Machine
end

