-- ==== Sys2Proof/Machine/Power.lean ====
section
/-!
DEFINITION. Supplies, clocks and power domains (chapter 01): domains on and off, full and house operation, the
device-safe actions, dormant and resets.
-/

namespace Sys2Proof.Machine

/-! ### Domains on and off (R36-R38, Table 1.6) -/

def State.setDom (s : State) (k : Nat) (b : Bool) : State := s.setBit (F.PWR_DOM_STATUS_ON.at k) b

def State.reqDom (s : State) (k : Nat) : Bool := s.bit ⟨A.PWR_DOM_REQ, k, 1⟩

/-- R329: a privileged channel to core k is FULL. -/
def State.mbxWake (s : State) (k : Nat) : Bool :=
  [0, 1, 2, 3, 64, 65, 66, 67].any fun n => s.mbxFull n && (s.mbxCfg n).1 == 0 && (s.mbxCfg n).2.1 == k

/-- The domain has a source: the house input, and VDD_CORE for D3, D5-D9 and D11 (R26, R27). -/
def State.domSource (s : State) (k : Nat) : Bool :=
  s.bit F.SUPPLY_STATUS_HOUSE_OK && !s.power.resetnLow && !s.power.dormant
    && (k == 1 || k == 2 || k == 4 || k == 10 || !s.houseOp)

/-- "On when" of Table 1.6, D1-D11. -/
def State.domWanted (s : State) (k : Nat) : Bool :=
  s.domSource k &&
  match k with
  | 1 => !s.bit F.START_STATUS_COMPLETE || s.kprBusy || s.reqDom 1
  | 2 => true
  | 3 => s.reqDom 3 || s.mbxWake 1
  | 4 => s.reqDom 4 || s.mbxWake 2 || s.domOn 10
  | 5 => s.reqDom 5 || s.mbxWake 3
  | 6 => s.domOn 2
  | 7 => s.reqDom 7 || s.anyEn fun n => decide (n.val < 16)
  | 8 => s.reqDom 8 || s.anyEn fun n => decide (16 ≤ n.val)
  | 9 => s.reqDom 9 || s.domOn 7 || s.domOn 8 || s.anyLoop
  | 10 => s.reqDom 10 || (upto 4).any fun p => s.attached p || s.loopOn (portLoop p)
  | 11 => s.reqDom 11 || s.tcv.run.isSome || s.tcv.urgent.isSome || s.bit F.TCV_CTRL_START || s.bit F.THM_STATUS_BUSY
  | _ => false

def coreOf? (k : Nat) : Option Core :=
  match k with | 2 => some 0 | 3 => some 1 | 4 => some 2 | 5 => some 3 | _ => none

/-- The core of a domain that has lost power is in reset, with nothing kept (R38). -/
def State.dropCore (s : State) (k : Core) : State :=
  (s.modCore k fun _ => CoreState.reset).setFld (F.CORE_Ck_STATUS_STATE k) 0

/-- A domain D3-D11 turns off (R37-R39). -/
def State.dropDomain (s : State) (k : Nat) : State :=
  let s1 := s.setDom k false
  match k with
  | 3 | 4 | 5 => match coreOf? k with | some c => s1.dropCore c | none => s1
  | 6 => { s1 with sram := s1.sram.filter (fun e => decide (e.1 < 0x80000)),
                   sramBad := s1.sramBad.filter fun a => decide (a < 0x80000) }
  | 7 | 8 =>
    let s2 := (s1.forAll fun (n : Chan) t => if chanDom n = k then t.modChan n fun _ => ChanState.reset else t).dropRegs k
    s2.setBit (if k = 7 then F.PE_STATUS_CAL_W_OK else F.PE_STATUS_CAL_E_OK) false
  | 9 =>
    let s2 := (s1.unlockConv).dropRegs 9
    { s2 with engine := { Engine.reset with faultnLow := s1.engine.faultnLow },
              loops := Vector.replicate 12 LoopState.reset, links := Vector.replicate 4 Link.reset }
  | 10 =>
    -- the gates are held off and the discharges released (R39); no live bit of a port but its TCSTATE stands (R44)
    s1.forAll fun (p : Port) t => (t.setReg (A.PP_Pp_STATUS p) 0).setReg (A.PD_Pp_STATUS p)
      (t.reg (A.PD_Pp_STATUS p) &&& bitsMask 0 4)
  | 11 =>
    let s2 := (({ s1 with tcv := { s1.tcv with run := none, urgent := none } } : State).setBit F.TCV_STATUS_REF_OK false).setBit
      F.TCV_URGENT_GO false
    ((s2.setBit F.TCV_SYSCAL_GO false).setBit F.THM_STATUS_BUSY false).setBit F.THM_CTRL_GO false
  | _ => s1

/-- R37: every domain whose last condition has ended turns off; those that others depend on come last. -/
def State.settleDomains (s : State) : State :=
  [1, 3, 5, 7, 8, 9, 10, 4, 11, 6].foldl (fun t k => if t.domOn k && !t.domWanted k then t.dropDomain k else t) s

/-- C0, and C2 in house operation, run boot ROM code until an image releases them, where their domain is on (R27,
R413; log 32). -/
def State.bootRomCore (s : State) (k : Core) : State :=
  if s.domOn (coreDom k) then s.romCore k else s.dropCore k

/-- R38, R67: a core's domain is up: a released core is released again, one held under R428 stays held. C2 runs boot ROM
code only where no image is in force: a core without a CODE section stays in reset. -/
def State.coreUp (s : State) (k : Core) : State :=
  if s.bit (F.CORE_Ck_FAULT_HELD k) then s
  else if (s.boot.entry[k]).isSome then s.releaseCore k
  else if k = 2 ∧ s.boot.sections.isEmpty then s.bootRomCore k else s

/-- C2 takes up an attached port: a sink asks for its intake and waits for capabilities; a source finds its cable
(R210, R226, R227, R252). -/
def State.resumePort (s : State) (p : Port) : State :=
  if !s.c2Acts then s
  else if s.isSink p then
    if s.bit (F.PD_Pp_STATUS_CONTRACT p) then s
    else
      let s1 := (s.closeFets p).implicitIntake p
      if (s1.port p).pdEn && !s1.armed p .sinkWaitCap then s1.arm p .sinkWaitCap else s1
  else if s.isSource p then (s.vconnOn p).discoverCable p
  else s

def State.resumePorts (s : State) : State := s.forAll fun (p : Port) t => t.resumePort p

/-- Table 2.1, PHASE 1: full operation is detected: the boot ROM sets PLL_FORCE and reads the keeper (R55). -/
def State.detectFull (s : State) : State :=
  if s.fullOp && s.domOn 2 && !s.seedling && s.phaseNo == 0 && !s.boot.attempt && !s.boot.restart then
    (s.setBit F.CLK_CFG_PLL_FORCE true).setPhase 1
  else s

/-- R36, R38: a domain comes on with its registers restored; a failed read of the REGS copy leaves it off (R357). -/
def State.domainUp (s : State) (k : Nat) : State :=
  if k = 1 then (s.setDom 1 true).setBit F.CLK_STATUS_FRC_RUN true
  else if k = 6 then s.setDom 6 true
  else if k = 2 then
    let s1 := (((s.setDom 2 true).setBit F.CLK_STATUS_FRC_RUN true).bootRomCore 0)
    (s1.modBoot fun b => { b with kprRead := false }).detectFull
  else
    match s.regsCopyBad with
    | some a => (((s.raise 13 1).satInc F.IRQ_CONT_CNT_DATA_FAULTS).raise 13 13).contAddr a 5
    | none =>
      let s1 := (s.restoreDomain k).setDom k true
      match k with
      | 3 | 4 | 5 => match coreOf? k with | some c => (s1.coreUp c).resumePorts | none => s1
      | 10 => (s1.checkPolicy).resumePorts
      | 9 => (s1.setBit F.IRQ_CONT_STATUS_CHECKER_OK true).startTimebase
      | 11 => s1.setBit F.TCV_STATUS_REF_OK (s1.tcv.refSel == 2)
      | _ => s1

/-- R36, R38: a domain powers up; D3 to D11 need C0 and SRAM bank 0, which restore them. -/
def doDomainPowerUp (d : Dom) (s : State) : Answer :=
  s.onlyIf (d.val != 0 && s.domWanted d.val && !s.domOn d.val && (d.val ≤ 2 || s.domOn 2)) fun s => s.domainUp d.val

/-! ### Ports as in dead-battery operation (R30, R73, R210) -/

/-- The path opens, and the port presents dead-battery Rd. -/
def State.deadPort (s : State) (p : Port) : State :=
  let s1 := if s.attached p then s.detach p else (s.pathOff p).openFets p
  (s1.modPort p fun k => { PortState.reset with cc1 := k.cc1, cc2 := k.cc2 }).setTc p 2

def State.deadPorts (s : State) : State := s.forAll fun (p : Port) t => t.deadPort p

/-! ### Clocks (R33-R35, R108, R111) -/

/-- R33, R355: LF_SRC is written: the crystal qualifies, or the RC runs. After CLK_SLOW the divided fast RC stays. -/
def State.writeLfSrc (s : State) (crystal : Bool) : State :=
  let s1 := (s.setBit F.CLK_CFG_LF_SRC crystal).setBit F.CLK_STATUS_XTAL_RUN false
  s1.modPower fun p =>
    { p with xtal := if crystal then .qualifying else .off, slow := if p.slow = .fastRc then .fastRc else .rc }

def doCrystalQualified (s : State) : Answer :=
  s.onlyIf (s.power.xtal == .qualifying && s.power.slow != .fastRc) fun s =>
    (s.setBit F.CLK_STATUS_XTAL_RUN true).modPower fun p => { p with xtal := .running, slow := .crystal }

def doXtalFail (s : State) : Answer :=
  s.onlyIf (s.power.xtal == .qualifying || s.power.xtal == .running) fun s =>
    ((s.setBit F.CLK_STATUS_XTAL_RUN false).setBit F.CLK_STATUS_XTAL_FAIL true).modPower fun p =>
      { p with xtal := .failed, slow := if p.slow = .fastRc then .fastRc else .rc }

def doSyncSeenRise (hz : Nat) (s : State) : Answer :=
  s.onlyIf (!s.bit F.CLK_STATUS_SYNC_SEEN) fun s =>
    ((s.setBit F.CLK_STATUS_SYNC_SEEN true).modPower fun p => { p with syncHz := hz }).chooseRef

def doSyncLost (s : State) : Answer :=
  s.onlyIf (s.bit F.CLK_STATUS_SYNC_SEEN) fun s =>
    let s1 := s.setBit F.CLK_STATUS_SYNC_SEEN false
    (if s.onSync then s1.setBit F.PE_STATUS_SYNC_LOST true else s1).chooseRef

/-- R35, R87: lock: the cores run at 200 MHz and the timebase starts. -/
def doPllLock (s : State) : Answer :=
  s.onlyIf (s.pllWanted && !s.bit F.CLK_STATUS_PLL_LOCK) fun s =>
    (((s.setBit F.CLK_STATUS_PLL_LOCK true).setFld F.CLK_STATUS_CORE_CLK 1).chooseRef).startTimebase

/-! ### Device-safe (R30, R381) -/

/-- R30, R204: every loop's handling, queue and NEST go; loops L0-L7 stop, with no stop sequence; a latched loop stays
latched. -/
def State.stopRails (s : State) : State :=
  s.forAll fun (l : Loop) t =>
    let t0 := ((t.abandonHandling l).setQueue l []).setHandling l none
    if 8 ≤ l.val ∨ t.loopSt l = 6 ∨ t.loopSt l = 7 then t0
    else
      let t1 := ((t0.setLoopSt l 0).modLoop l fun _ => LoopState.reset).setBit (F.PROT_Ln_STATUS_HICCUP l) false
      t1.setFld (F.LP_Ln_STATUS_NACT l) 0

/-- R30: channels safe, sequencer and rails down, ports as in dead-battery operation. -/
def State.deviceSafe (s : State) : State := ((s.allNeedLoad.stopRails).seqDrop).deadPorts

/-- R72: what a severity-4 fault does to a start: an attempt fails, a failed one waits out its 200 ms from here, and a
restart that waits for the sequencer goes on (R76). -/
def State.safeStart (s : State) : State :=
  if s.boot.attempt then (s.endAttempt 0x0B).setPhase 10
  else if s.phaseNo = 9 then s.setPhase 10
  else if s.phaseNo = 10 ∨ s.seedling then s
  else (s.setPhase 0).modBoot fun b => { b with reread := true }

/-- No handover goes on where every core leaves its firmware (R443). -/
def State.endHandover (s : State) : State := { s with live := { s.live with handover := none } }

def supplyOk : FullSupply → Fld
  | .vddCore => F.SUPPLY_STATUS_VDD_CORE_OK
  | .vdda => F.SUPPLY_STATUS_VDDA_OK
  | .vddioA => F.SUPPLY_STATUS_VDDIO_A_OK
  | .vddioB => F.SUPPLY_STATUS_VDDIO_B_OK

/-- A supply of full operation reads bad; VDD_CORE then begins its 100 us anew (R26). -/
def State.supplyBad (s : State) (m : FullSupply) : State :=
  let s1 := s.setBit (supplyOk m) false
  if m = .vddCore then s1.modPower fun p => { p with coreQual := false } else s1

/-- R26, R27: D1-D11 go back to the house supply: the PLL stops, the domains without a house source turn off, and C0 and C2
run boot ROM code only. -/
def State.toHouse (s : State) : State :=
  let s1 := (s.setBit F.SUPPLY_STATUS_HOUSE_OP true).pllOff
  let s2 := [3, 5, 6, 7, 8, 9, 11].foldl (fun t k => if t.domOn k then t.dropDomain k else t) s1
  ((s2.modBoot fun b =>
    { b with entry := Vector.replicate 4 none, flash := none, flashBusy := false, sections := [], triples := 0 }).bootRomCore
      0).bootRomCore 2

/-- What a load of registers brings with it: the clocks follow a changed LF_SRC or CLK_CFG.SYNC_EN (R33, R34), no tenancy
channel is FULL, no handover, re-trim or retirement goes on, and a member of a sync group holds the line until the
sequencer starts (R288). `old` is the state before the load. -/
def State.loaded (s old : State) : State :=
  let s0 : State := { s with tenancy := [], live := Live.reset }
  let s1 := if s0.syncEn && !s0.seq.started then s0.driveSync true else s0
  let lf := s1.bit F.CLK_CFG_LF_SRC
  let s2 := if lf != old.bit F.CLK_CFG_LF_SRC || (lf && s1.power.xtal == .failed) then s1.writeLfSrc lf else s1
  if s2.bit F.CLK_CFG_SYNC_EN != old.bit F.CLK_CFG_SYNC_EN then s2.chooseRef else s2

/-- Waiting in house operation, every img field holds its factory default (R73, R470). -/
def State.factoryImg (s : State) : State :=
  ((s.loadBits imgMask fun r => s.domOn r.dom).actFollows fun r => s.domOn r.dom).loaded s

/-- R30: a supply of full operation is lost. -/
def State.supplyLoss (s : State) (m : FullSupply) : State :=
  let s1 := (((s.supplyBad m).report scopeDevice 0x10 4 none 0).raise 0 4).deviceSafe
  let s2 := ((s1.toHouse).modPower fun p => { p with lossWait := true }).setBit F.START_STATUS_COMPLETE false
  ((s2.endHandover).safeStart).factoryImg

def doSupplyLoss (m : FullSupply) (s : State) : Answer :=
  s.onlyIf (s.bit F.SUPPLY_STATUS_HOUSE_OK && s.fullOp) fun s => s.supplyLoss m

/-! ### Full operation (R26-R28) -/

/-- R26: D1-D11 run from VDD_CORE: it has qualified; after a loss of R30, every supply of full operation is good. -/
def State.runsOnCore (s : State) : Bool := s.power.coreQual && (!s.power.lossWait || s.suppliesGood)

/-- R26, R27: the source of D1-D11, and HOUSE_OP, which reads 1 while they can be on and run from the house supply. -/
def State.setHouseOp (s : State) : State :=
  (s.setBit F.SUPPLY_STATUS_HOUSE_OP (s.bit F.SUPPLY_STATUS_HOUSE_OK && !s.runsOnCore)).modPower fun p =>
    { p with lossWait := p.lossWait && !s.runsOnCore }

/-- Full operation begins or returns: waiting reports follow (R262, R408), and the boot ROM detects it (R55). -/
def State.beginFull (s : State) : State :=
  ((s.dbOcLater.foldl (fun (t : State) p => t.fault (portLoop p) 0x1A) { s with dbOcLater := [] }).detectFull).kprTake

/-- R26, R28: a supply has become good, or VDD_CORE has qualified: D1-D11 move to VDD_CORE where they may, and full
operation begins where `was` says that it did not run. -/
def State.enterFull (s : State) (was : Bool) : State :=
  let s1 := if s.houseOp then s.setHouseOp else s
  if !was && s1.fullOp then s1.beginFull else s1

def doVddCoreQualified (s : State) : Answer :=
  s.onlyIf (s.bit F.SUPPLY_STATUS_VDD_CORE_OK) fun s =>
    (s.modPower fun p => { p with coreQual := true }).enterFull s.fullOp

/-! ### Monitors (R29, R226, R252, R256) -/

/-- VCONN_IN becomes bad: the VCONN source of every port turns off. -/
def State.vconnBad (s : State) : State :=
  let s1 := s.setBit F.SUPPLY_STATUS_VCONN_IN_OK false
  let s2 := if (upto 4).any fun p => s1.bit (F.PD_Pp_STATUS_VCONN_SRC p) then s1.raise 7 14 else s1
  s2.forAll fun (p : Port) t => t.vconnOffNow p

/-- VCONN_IN becomes good: a source that VCONN was switched off for takes it up again (R226). -/
def State.vconnGood (s : State) : State :=
  (s.setBit F.SUPPLY_STATUS_VCONN_IN_OK true).forAll fun (p : Port) t => if t.isSource p then t.vconnOn p else t

def doVconnInBad (s : State) : Answer := s.onlyIf (s.bit F.SUPPLY_STATUS_VCONN_IN_OK) fun s => s.vconnBad

/-- VBUS of a port becomes good or bad: a sink loses it (R213); vSafe0V is left; a hard reset's sink waits for it (R256). -/
def State.vbusChange (s : State) (p : Port) (good : Bool) : State :=
  let s1 := s.setFld (F.SUPPLY_STATUS_VBUS_OK.at p.val) good.toNat
  if !good then s1.vbusLost p
  else
    let s2 := s1.modPath p fun k => { k with safe0V := false }
    if (s2.path p).hr == .sinkWait then
      let s3 := (((s2.modPath p fun k => { k with hr := .none }).endSpan p).closeFets p).implicitIntake p
      if (s3.port p).pdEn then s3.arm p .sinkWaitCap else s3
    else s2.tryPass p

/-- R40, R42, R288: dormant is left. The supply is chosen anew, and SEQ_SYNC is held low until the sequencer starts
(log 50). -/
def State.wakeUp (s : State) : State :=
  ((s.modPower fun p => { p with dormant := false }).setHouseOp).driveSync true

/-- Wake causes are recorded in dormant, where they wake, and before start completes (R42). -/
def State.wakeBit (s : State) (f : Fld) : State :=
  if s.power.dormant then (s.setFld f 1).wakeUp
  else if !s.bit F.START_STATUS_COMPLETE then s.setFld f 1 else s

/-- WAKE_CFG enables the bit at the same place of WAKE_CAUSE (R52). -/
def State.wakeBy (s : State) (bit : Nat) : State :=
  if s.bit ⟨A.WAKE_CFG, bit, 1⟩ then s.wakeBit ⟨A.WAKE_CAUSE, bit, 1⟩ else s

def wakeSrcBit : WakeSrc → Nat
  | .cc p => p.val
  | .vbus p => 4 + p.val
  | .tw k => 8 + k.val
  | .sync => 11
  | .timer => 12
  | .vin => 13
  | .resetn => 14

/-- R41: WATCH_Pp, which acts in dormant: 0 off, 1 sink, 2 source, 3 dual-role. -/
def State.watchOf (s : State) (p : Port) : Nat := s.fld ⟨A.DORMANT_CFG, 2 * p.val, 2⟩

/-- R41: a port's watch can detect an attach: it runs in dormant, and off watches nothing. -/
def State.watches (s : State) (p : Port) : Bool := s.power.dormant && s.watchOf p != 0

/-- R53: the interval that began at dormant entry ends. -/
def State.timerExpires (s : State) : State := (s.modPower fun p => { p with timerArmed := false }).wakeBy 12

/-- Can a wake source be active? An attach watch runs in dormant (R41), and the timer from dormant entry with COUNT not 0
(R53). -/
def State.canWake (s : State) (src : WakeSrc) : Bool :=
  match src with
  | .cc p => s.watches p
  | .timer => s.power.timerArmed
  | _ => true

def doWake (src : WakeSrc) (s : State) : Answer :=
  s.onlyIf (s.canWake src) fun s =>
    match src with
    | .resetn => s.wakeBit ⟨A.WAKE_CAUSE, 14, 1⟩
    | .timer => s.timerExpires
    | _ => s.wakeBy (wakeSrcBit src)

def doAttachWatchDetect (p : Port) (s : State) : Answer := s.onlyIf (s.watches p) fun s => s.wakeBy p.val

def doWakeTimer (s : State) : Answer := s.onlyIf s.power.timerArmed fun s => s.timerExpires

/-- R46: the highest house input, as it is now. -/
def State.noteSrc (s : State) (src : Nat) : State :=
  if s.bit F.SUPPLY_STATUS_HOUSE_OK then s.setFld F.SUPPLY_STATUS_HOUSE_SRC src else s

/-- The level of an IO bank is recorded as it becomes good (R29). -/
def State.noteBank (s : State) (m : FullSupply) (hi : Bool) : State :=
  match m with
  | .vddioA => s.setBit F.SUPPLY_STATUS_VDDIO_A_HI hi
  | .vddioB => s.setBit F.SUPPLY_STATUS_VDDIO_B_HI hi
  | _ => s

/-- A supply of full operation becomes good or bad. In full operation, bad is a loss (R30); before it, VDD_CORE takes D1-D11
back to the house supply if they have left it (R26). -/
def State.supplyChange (s : State) (m : FullSupply) (good hi : Bool) : State :=
  if good then ((s.noteBank m hi).setBit (supplyOk m) true).enterFull s.fullOp
  else if s.fullOp then s.supplyLoss m
  else if m = .vddCore ∧ s.bit F.SUPPLY_STATUS_HOUSE_OK ∧ !s.houseOp ∧ s.power.coreQual then (s.supplyBad m).toHouse
  else s.supplyBad m

/-- R29: a monitor other than the house input's changes. -/
def State.monitorChange (s : State) (m : Monitor) (good hi : Bool) : State :=
  match m with
  | .vinHv =>
    let s1 := s.setBit F.SUPPLY_STATUS_VIN_HV_OK good
    if good then s1.wakeBy 13 else s1
  | .vbus p =>
    let s1 := s.vbusChange p good
    if good then s1.wakeBy (4 + p.val) else s1
  | .vddCore => s.supplyChange .vddCore good hi
  | .vdda => s.supplyChange .vdda good hi
  | .vddioA => s.supplyChange .vddioA good hi
  | .vddioB => s.supplyChange .vddioB good hi
  | .vconnIn => if good then s.vconnGood else s.vconnBad

def monitorFld : Monitor → Fld
  | .vinHv => F.SUPPLY_STATUS_VIN_HV_OK
  | .vbus p => F.SUPPLY_STATUS_VBUS_OK.at p.val
  | .vddCore => F.SUPPLY_STATUS_VDD_CORE_OK
  | .vdda => F.SUPPLY_STATUS_VDDA_OK
  | .vddioA => F.SUPPLY_STATUS_VDDIO_A_OK
  | .vddioB => F.SUPPLY_STATUS_VDDIO_B_OK
  | .vconnIn => F.SUPPLY_STATUS_VCONN_IN_OK

/-- R29, R46: the highest house input, and a monitor that changes. -/
def doSupplyMonitorChange (m : Monitor) (good hi : Bool) (src : Fin 5) (s : State) : Answer :=
  let s1 := s.noteSrc src.val
  .next (if s.bit (monitorFld m) = good then s1 else s1.monitorChange m good hi)

/-! ### All domains off: power-fail, RESETn, dormant (R31, R40, R75, R344) -/

/-- D1-D11 lose their contents; the keeper array, D0 and the wires stay. -/
def State.allOff (s : State) : State :=
  let d0 (a : Nat) : Bool := match findReg a with | some r => r.dom == 0 | none => false
  let s1 : State := { State.reset with
    pending := s.pending, out := s.out, freeCtr := s.freeCtr, power := s.power, dbOcLater := [],
    engine := { Engine.reset with faultnLow := s.engine.faultnLow },
    regs := s.regs.filter (fun e => d0 e.1),
    kpr := { Keeper.reset with cells := s.kpr.cells, ecc1 := s.kpr.ecc1, ecc2 := s.kpr.ecc2, warned := s.kpr.warned,
                               saturated := s.kpr.saturated } }
  let s2 := ((s1.setFld F.PWR_DOM_STATUS_ON 1).setBit F.CLK_STATUS_FRC_RUN false).pllOff
  let s3 := s2.forAll fun (p : Port) t =>
    (t.setTc p 2).modPath p fun k => { k with safe0V := s.fld (F.SUPPLY_STATUS_VBUS_OK.at p.val) == 0 }
  (s3.setBit F.SUPPLY_STATUS_HOUSE_OP false).driveSync true

/-- R29, R31, R397, R403: the house input is good: D0 powers up with its registers at reset, where it had reset;
the power cycle is counted. -/
def State.houseGood (s : State) (src : Nat) : State :=
  let s1 := if s.power.d0Up then s else
    s.modPower fun p => { p with d0Up := true, opmin := s.spreadValue .opmin }
  let s2 := ((s1.setBit F.SUPPLY_STATUS_HOUSE_OK true).setFld F.SUPPLY_STATUS_HOUSE_SRC src).modPower fun p => { p with ms := 0 }
  let s3 := (s2.setHouseOp).setFld F.PWR_DOM_STATUS_ON 1
  ((s3.forAll fun (p : Port) t => t.setTc p 2).driveSync true).kprSpread .pcyc 1

def doHouseInputGood (src : Fin 5) (s : State) : Answer :=
  s.onlyIf (!s.bit F.SUPPLY_STATUS_HOUSE_OK) fun s => s.houseGood src.val

/-- R31, R395: the keeper completes its group; every domain but D0 turns off. -/
def State.houseFail (s : State) (fast : Bool) : State :=
  (((s.kprCut fast).allOff).setBit F.SUPPLY_STATUS_HOUSE_OK false).modPower fun p =>
    { p with dormant := false, timerArmed := false, lossWait := false }

def doHouseInputFail (fast : Bool) (s : State) : Answer :=
  s.onlyIf (s.bit F.SUPPLY_STATUS_HOUSE_OK) fun s => s.houseFail fast

/-- R31: D0 loses its registers and the hold-up mark; the array, the wires and the levels of the pins stay. -/
def State.d0Reset (s : State) : State :=
  { State.reset with
    pending := s.pending, out := s.out, freeCtr := s.freeCtr,
    engine := { Engine.reset with faultnLow := s.engine.faultnLow },
    power := { Power.reset with resetnLow := s.power.resetnLow, testEn := s.power.testEn },
    kpr := { Keeper.reset with cells := s.kpr.cells, ecc1 := s.kpr.ecc1, ecc2 := s.kpr.ecc2, warned := s.kpr.warned,
                               saturated := s.kpr.saturated } }

def doD0Reset (s : State) : Answer := s.onlyIf (!s.bit F.SUPPLY_STATUS_HOUSE_OK) fun s => s.d0Reset

/-! ### RESETn (R75) -/

/-- RESETn falls: D1-D11 are reset, and every pin holds its initial state, with the crystal oscillator off (R20, R75). -/
def State.resetnFall (s : State) : State :=
  ((((s.kprCut false).allOff).setBit F.WAKE_CAUSE_RESETN true).setBit F.CLK_STATUS_XTAL_RUN false).modPower fun p =>
    { p with resetnLow := true, dormant := false, timerArmed := false, xtal := .off,
             slow := if p.slow = .fastRc then .fastRc else .rc }

def doResetnLow (s : State) : Answer :=
  s.onlyIf (s.power.d0Up && !s.power.resetnLow) fun s => s.resetnFall

def doResetnRise (s : State) : Answer :=
  s.onlyIf s.power.resetnLow fun s => (s.modPower fun p => { p with resetnLow := false }).setHouseOp

/-! ### Dormant (R40, R288) -/

/-- REFUSE_WHY of the first condition of R40 that fails; 0 enters. Which code is given when several fail is not stated: the
lowest is the model's choice (DESIGN CHOICE, log 62). -/
def State.dormantWhy (s : State) : Nat :=
  if s.anyLoop then 1
  else if (upto 4).any fun p => s.attached p then 2
  else if s.cur ≠ 0 ∨ (upto 36).any (fun n => s.railIsOn n) then 3
  else if s.kprBusy || !s.recorder.queue.isEmpty || s.recorder.committing.isSome || s.recorder.statsDirty
      || s.recorder.extremesDirty then 4
  else if s.reg A.WAKE_CAUSE ≠ 0 then 5 else 0

/-- R397: OPMIN and the wear counters are written before dormant entry. -/
def State.persistCounters (s : State) : State :=
  let put (t : State) (c : Spread) (n : Nat) : State := let g := t.spreadGroup c n; t.kprStore g.1 g.2
  let s1 := put s .opmin (s.power.opmin - s.spreadValue .opmin)
  (upto 5).foldl (fun t q => if t.kpr.unworn[q] = 0 then t
    else (put t (.wear q) t.kpr.unworn[q]).modKpr fun k => { k with unworn := k.unworn.set q.val 0 q.isLt }) s1

/-- R40, R51: a request for dormant. The manual does not say when REFUSED and REFUSE_WHY return to 0: REFUSED stands until
its W1C, through a later entry too, and REFUSE_WHY until the next refusal (DESIGN CHOICE, log 79). -/
def State.enterDormant (s : State) : State :=
  let why := s.dormantWhy
  if why ≠ 0 then
    ((s.setBit F.DORMANT_CFG_ENTER false).setBit F.DORMANT_CFG_REFUSED true).setFld F.DORMANT_CFG_REFUSE_WHY why
  else
    let s1 := (((s.persistCounters).allOff).setBit F.DORMANT_CFG_ENTER false).driveSync false
    s1.modPower fun p => { p with dormant := true, timerArmed := s1.fld F.WAKE_TIMER_COUNT != 0 }

end Sys2Proof.Machine
end

