-- ==== Sys2Proof/Machine/Start.lean ====
section
/-!
DEFINITION. Start attempts, the configuration image, seedling mode and restarts (chapter 02).
-/

namespace Sys2Proof.Machine

/-! ### The keeper read (R470, R70, R395, R402, R407) -/

/-- R70: what the attempt-open flag found set makes of the start record. -/
def StartRec.adjust (r : StartRec) (resetn : Bool) : StartRec :=
  if !r.opened then r
  else if resetn then { r with fails := r.fails - 1, opened := false }
  else { r with opened := false, reason0 := 0x0C, reason1 := r.reason0, reason2 := r.reason1 }

/-- The start record is read and adjusted; WAKE_CAUSE.RESETN is cleared, and a hold-up mark is reported. -/
def State.readStart (s : State) : State :=
  let s1 := s.readRecord startKind
  let r := s1.startRecord
  let resetn := s1.bit F.WAKE_CAUSE_RESETN
  let r' := r.adjust resetn
  let s2 := if r' = r then s1.modBoot fun b => { b with record := r } else s1.kprStartRec r'
  let s3 := if r.opened && !resetn then s2.raise 0 1 else s2
  let s4 := if s3.power.holdup then s3.raise 12 5 else s3
  s4.setBit F.WAKE_CAUSE_RESETN false

/-- R389, R404, R405, R407: the recorder's records and SEQ come from the keeper. -/
def State.readRecorder (s : State) : State :=
  let s1 := (s.readRecord statsKind).readRecord extremesKind
  let s2 := (s1.kprTouchAll (logBase true) 512).kprTouchAll (logBase false) 512
  s2.modRec fun r => { r with stats := s2.loadPayload statsKind statsDefault,
                              extremes := s2.loadPayload extremesKind extremesDefault, seq := s2.nextSeq }

/-- R470: base values of every powered domain, then the keeper read. -/
def State.keeperRead (s : State) : State :=
  let s1 := (((s.loadBase fun r => s.domOn r.dom).actFollows fun r => s.domOn r.dom).loaded s).calCheck
  (((s1.readStart).readRecorder).modBoot fun b => { b with kprRead := true, reread := false }).detectFull

def doKeeperRead (s : State) : Answer :=
  s.onlyIf (s.domOn 1 && s.domOn 2 && !s.boot.kprRead) fun s => s.keeperRead

/-! ### Seedling mode (R73, R470) -/

/-- START_LIMIT as held in the keeper; 0 acts as 1 (Table 2.8). -/
def State.limit (s : State) : Nat := max s.boot.record.limit 1

/-- A core goes into reset, or to boot ROM code (Table 2.6). -/
def State.idleCore (s : State) (k : Core) : State :=
  if k = 0 ∨ k = 2 then s.bootRomCore k else s.dropCore k

/-- No image is in force: every core leaves its firmware. -/
def State.unloadCores (s : State) : State :=
  (s.endHandover.forAll fun (k : Core) t => (t.idleCore k).setBit (F.CORE_Ck_FAULT_HELD k) false).modBoot fun b =>
    { b with entry := Vector.replicate 4 none }

/-- R449: the perturbation registers. -/
def perturbations : List Nat :=
  [A.TST_VLK, A.TST_MBXk 0, A.TST_MBXk 1, A.TST_MBXk 2, A.TST_MBXk 3, A.TST_JIT_SEL, A.TST_JIT, A.TST_TRG_SEL, A.TST_TRG,
   A.TST_TW, A.TST_KPR]

/-- R449: the unlock ends, and with it every perturbation. -/
def State.relock (s : State) : State :=
  if s.bit F.TST_CTRL_UNLOCKED then
    (perturbations.foldl (fun t a => t.setReg a 0) (s.setBit F.TST_CTRL_UNLOCKED false)).raise 15 15
  else s

/-- R73: the device enters seedling mode; every register takes its base value again, with no REGS pass now or at a later
restore (R470). A restart that waits goes on (R76). -/
def State.enterSeedling (s : State) : State :=
  let s1 := ((((s.relock).unloadCores).deadPorts).stopRails).allNeedLoad
  let s2 := (s1.seqStop).modBoot fun b =>
    { b with attempt := false, timeout := none, failed := none, flashBusy := false, sections := [], triples := 0 }
  let s3 := ((s2.loadBase fun r => s2.domOn r.dom).actFollows fun r => s2.domOn r.dom).loaded s2
  -- once started, the sequencer leaves the line as SYNC_EN now gives (R287)
  let s4 := if s.seq.started then s3.driveSync s3.syncEn else s3
  (((s4.setBit F.START_STATUS_SEEDLING true).setPhase 11).setBit F.CLK_CFG_PLL_FORCE false).pllOff

/-! ### Attempts (R54, R57, R72) -/

/-- R70, Table 2.1: the attempt begins: START_FAILS counts it, and HEALTHY, LOADED, IMG_STATUS, IMG_GEN and IMG_LEN clear
(R80, R82). The flash is probed next. -/
def State.beginAttempt (s : State) : State :=
  let r := s.boot.record
  let s1 := s.kprStartRec { r with fails := min (r.fails + 1) 15, opened := true }
  let s2 := (((((s1.relock).setReg A.START_HEALTH 0).setReg A.IMG_STATUS 0).setReg A.IMG_GEN 0).setReg A.IMG_LEN 0).setBit
    F.START_STATUS_COMPLETE false
  let s3 := (s2.unloadCores).modBoot fun b =>
    { b with attempt := true, timeout := none, began := s.power.ms, flash := none, flashBusy := true,
             firstWhy := none, failed := none, restart := false, sections := [], triples := 0 }
  (s3.setPhase 2).setBit F.CLK_CFG_PLL_FORCE true

/-- R54: an attempt in full operation, once the hold of a thermal shutdown has ended (R72); or seedling mode, whatever the
supplies, where START_FAILS is not below the limit. -/
def State.startOrSeedling (s : State) : State :=
  let s1 := if s.boot.reread && s.fullOp then s.readStart.modBoot fun b => { b with reread := false } else s
  if s1.limit ≤ s1.boot.record.fails then s1.enterSeedling
  else if s1.fullOp && !s1.bit F.THM_STATUS_SHUT_HOLD then s1.beginAttempt
  else s

def doStartAttemptBegin (s : State) : Answer :=
  s.onlyIf (s.boot.kprRead && decide (s.phaseNo ≤ 1) && !s.boot.attempt && !s.seedling && !s.boot.restart)
    fun s => s.startOrSeedling

/-- R71, R72: no slot is accepted, or no flash answers: the reason is recorded, and seedling mode follows. -/
def State.failImage (s : State) (code : Nat) : State := (s.endAttempt code).enterSeedling

/-- R72: a failure with rails that may be up: the sequencer powers down. -/
def State.failAttempt (s : State) (code : Nat) : State := (s.endAttempt code).seqPowerDown

/-- The flash clock of a 1-1-1 transfer: 25 MHz from the PLL, or 10 MHz from the fast RC (R58, R83). -/
def State.flashMhz (s : State) : Nat := if s.bit F.CLK_STATUS_PLL_LOCK then 25 else 10

/-- A flash command with no address and nothing to read. -/
def FlashCmd.plain (opcode : Byte) (mhz : Nat) (send : List Byte := []) : FlashCmd :=
  { opcode := opcode, addrBytes := 0, addr := 0, dummy := 0, send := send, read := 0, quad := false, mhz := mhz }

/-- R58: the read of `n` bytes that the table leads to: 1-1-4 at 50 MHz where it is offered, else Fast Read in 1-1-1 at
25 MHz, at 10 MHz while the PLL is off; 4-byte addresses and opcodes only where the flash accepts nothing else. -/
def flashReadCmd (x : Sfdp) (locked : Bool) (a n : Nat) : FlashCmd :=
  let r := x.quad.getD ⟨0x0B, 8⟩
  { opcode := if x.only4 then x.op4 else r.opcode, addrBytes := if x.only4 then 4 else 3, addr := a, dummy := r.dummy,
    send := [], read := n, quad := x.quad.isSome, mhz := if !locked then 10 else if x.quad.isSome then 50 else 25 }

/-- The boot ROM reads flash bytes of a slot (R55, R58, R59). -/
def State.readFlash (s : State) (a n : Nat) : State :=
  match s.boot.flash with
  | some x => s.emit (.flash (flashReadCmd x (s.bit F.CLK_STATUS_PLL_LOCK) a n))
  | none => s

/-- R57: Reset Enable, Reset, Release from Deep Power-down and the SFDP read, at 10 MHz in 1-1-1. How many bytes of the
table the boot ROM reads is not stated: the 8-byte SFDP header (log 80). -/
def State.probeCmds (s : State) : State :=
  (((s.emit (.flash (FlashCmd.plain 0x66 10))).emit (.flash (FlashCmd.plain 0x99 10))).emit
    (.flash (FlashCmd.plain 0xAB 10))).emit
      (.flash { opcode := 0x5A, addrBytes := 3, addr := 0, dummy := 8, send := [], read := 8, quad := false, mhz := 10 })

/-- R57, R58, Table 2.1: no SFDP answer fails the attempt; else the quad-enable bit is set where 1-1-4 reads are offered,
and the headers of both slots are read. -/
def State.flashProbe (s : State) (sfdp : Option Sfdp) : State :=
  let s1 := s.probeCmds
  match sfdp with
  | none => s1.failImage 0x0E
  | some x =>
    let s2 := if x.quad.isSome then
        x.enable.foldl (fun t c => t.emit (.flash (FlashCmd.plain c.1 10 c.2))) s1 else s1
    let s3 := (s2.modBoot fun b => { b with flash := some x }).setPhase 3
    (s3.readFlash 0 0x100).readFlash 0x180000 0x100

def doFlashProbeDone (sfdp : Option Sfdp) (s : State) : Answer :=
  s.onlyIf (s.boot.attempt && s.phaseNo == 2) fun s => s.flashProbe sfdp

/-! ### The image (R60-R66) -/

def imgNum (img : List Byte) (off n : Nat) : Nat := leNat (part img off n)

def imgSections (img : List Byte) : List Section :=
  (List.range (imgNum img 0x10 2)).map fun i =>
    let a := 0x100 + 16 * i
    { type := imgNum img a 2, mirror := imgNum img (a + 2) 2 % 2 == 1, mirrorBank := imgNum img (a + 2) 2 / 4 % 4,
      dest := imgNum img (a + 4) 4, offset := imgNum img (a + 8) 4, size := imgNum img (a + 12) 4 }

/-- Table 2.4: the MIRROR bit of a type, or none for a type that is not in it. -/
def typeMirror (t : Nat) : Option Bool :=
  if t = 1 ∨ t = 0x20 then some false
  else if (0x10 ≤ t ∧ t ≤ 0x13) ∨ t = 0x21 ∨ t = 0x22 then some true else none

/-- The core of a CODE section. -/
def codeCore (t : Nat) : Option Core := (upto 4).find? fun k => t == 0x10 + k.val

def bankOf (a : Nat) : Nat := a / 0x80000

/-- Check 2 on one section entry, the other bits of its FLAGS aside. -/
def sectionOk (length table : Nat) (x : Section) : Bool :=
  typeMirror x.type == some x.mirror && decide (x.dest < 0x200000) && (x.type != 1 || (x.dest == 0 && x.size % 12 == 0))
    && x.offset % 4 == 0 && decide (table ≤ x.offset) && x.size % 4 == 0 && decide (x.offset + x.size ≤ length)
    && (!x.mirror || x.mirrorBank != bankOf x.dest) && ((codeCore x.type).isNone || x.dest % 0x100 == 0)

def zeros (img : List Byte) (off n : Nat) : Bool := (part img off n).all fun b => b == 0

/-- Check 2 of R62 (HEADER_BAD). -/
def headerOk (img : List Byte) : Bool :=
  let length := imgNum img 0xC 4
  let n := imgNum img 0x10 2
  let xs := imgSections img
  imgNum img 4 2 == 1 && imgNum img 6 2 == 0x2484 && length % 4 == 0 && decide (0x110 ≤ length)
    && decide (length ≤ 0x17FFC0) && decide (1 ≤ n) && decide (n ≤ 64) && zeros img 0x12 2 && zeros img 0x1C 36
    && zeros img 0x80 128 && xs.all (sectionOk length (0x100 + 16 * n))
    && (List.range n).all (fun i => imgNum img (0x102 + 16 * i) 2 &&& 0xFFF2 == 0)
    && (upto 4).all fun k => decide ((xs.filter fun x => codeCore x.type == some k).length ≤ 1)

/-- The SRAM ranges that a section takes: REGS none of its own (R66). -/
def Section.ranges (x : Section) : List (Nat × Nat) :=
  if x.type = 1 then []
  else (x.dest, x.size) :: (if x.mirror then [(x.mirrorBank * 0x80000 + x.dest % 0x80000, x.size)] else [])

/-- Two ranges overlap. The manual does not say whether a section of SIZE 0 strictly inside another one does: it does here,
and the image fails check 6 (DESIGN CHOICE, log 81). -/
def overlap (a b : Nat × Nat) : Bool := decide (a.1 < b.1 + b.2) && decide (b.1 < a.1 + a.2)

def disjoint : List (Nat × Nat) → Bool
  | [] => true
  | a :: r => r.all (fun b => !overlap a b) && disjoint r

/-- Check 6 of R62 (IMAGE_FIT). Several REGS sections count together against the 24 KiB (log 37). -/
def imageFits (xs : List Section) : Bool :=
  xs.all (fun x => decide (x.dest + x.size ≤ 0x200000) && (!x.mirror || decide (x.dest % 0x80000 + x.size ≤ 0x80000)))
    && decide (((xs.filter fun x => x.type == 1).map fun x => x.size).sum ≤ 0x6000)
    && disjoint ((0, 0x8000) :: xs.flatMap Section.ranges)

/-- The triples of the REGS sections, in image order. -/
def imgTriples (img : List Byte) : List Triple :=
  ((imgSections img).filter fun x => x.type == 1).flatMap fun x =>
    (List.range (x.size / 12)).map fun i =>
      let w (k : Nat) : Word := BitVec.ofNat 32 (imgNum img (x.offset + 12 * i + 4 * k) 4)
      ⟨w 0, w 1, w 2⟩

/-- R65: is a triple loadable? -/
def tripleOk (t : Triple) : Bool :=
  match findReg t.addr.toNat with
  | some r => t.mask &&& ~~~(r.maskOf FieldD.isImg) == 0
  | none => false

/-- What the checks of R62 make of a slot. -/
inductive Verdict where
  | accepted
  | absent
  | rejected (code : Nat)
  deriving DecidableEq, Repr

/-- R56, R62: checks 1-4, made on the header and section table before the body is read. -/
def State.examineHeader (s : State) (img : List Byte) : Verdict :=
  if imgNum img 0 4 ≠ 0x424C5256 then .absent
  else if !headerOk img then .rejected 0x02
  else if !s.sealed then .rejected 0x03
  else if sha256 (part img 0x40 64) ≠ s.keyHash then .rejected 0x04
  else .accepted

/-- R62: checks 1-7, in order. -/
def State.examine (s : State) (img : List Byte) : Verdict :=
  let length := imgNum img 0xC 4
  let key := part img 0x40 64
  let big (bs : List Byte) : List Byte := (bs.take 32).reverse ++ (bs.drop 32).reverse
  match s.examineHeader img with
  | .absent => .absent
  | .rejected code => .rejected code
  | .accepted =>
  if !ecdsaOk (big key) (big (part img length 64)) (sha256 (img.take length)) then .rejected 0x05
  else if !imageFits (imgSections img) then .rejected 0x06
  else if !(imgTriples img).all tripleOk then .rejected 0x07
  else .accepted

/-! ### Loading (R65-R67) -/

/-- The section's bytes go to both copies (R66). -/
def State.placeSection (s : State) (img : List Byte) (x : Section) : State :=
  if x.type = 1 then s
  else x.ranges.foldl (fun t r => t.setSramBytes r.1 (part img x.offset x.size)) s

/-- The REGS copy in bank 0 (R66). -/
def State.keepRegs (s : State) (ts : List Triple) : State :=
  (s.setSramBytes 0 (ts.flatMap fun t => wordBytes t.addr ++ wordBytes t.mask ++ wordBytes t.value)).modBoot fun b =>
    { b with triples := ts.length }

/-- The register-load step: pass 1, then the triples, on the powered domains; a domain that is off takes its
values when it comes on (R38). Telemetry starts afresh, and the throttle step is 0 (R380). -/
def State.registerLoad (s : State) (ts : List Triple) : State :=
  let sel (r : RegAt) : Bool := s.domOn r.dom
  let s1 := (((s.loadBase sel).loadTriples ts sel).actFollows sel).loaded s
  ({ s1 with tcv := { Tcv.reset with refSel := s.tcv.refSel, refWrite := true }, thmBad := false } : State).setFld
    F.THM_STATUS_STEP 0

/-- The IMG_STATUS fields of a slot: STATE and WHY. -/
def slotState (slotB : Bool) : Fld := if slotB then F.IMG_STATUS_B_STATE else F.IMG_STATUS_A_STATE
def slotWhy (slotB : Bool) : Fld := if slotB then F.IMG_STATUS_B_WHY else F.IMG_STATUS_A_WHY

/-- Entry points of the cores with a CODE section (R414). -/
def entryPoints (xs : List Section) : Vector (Option Nat) 4 :=
  Vector.ofFn fun k => (xs.find? fun x => codeCore x.type == some k).map fun x => x.dest

/-- R210: C2 takes the ports over: an attached one stays a sink, the others take their role. -/
def State.takePort (s : State) (p : Port) : State := if s.attached p then s else s.unattached p

/-- R67: the cores with code are released where their domain is on; the others are in reset. -/
def State.releaseCores (s : State) : State :=
  s.forAll fun (k : Core) t =>
    match t.boot.entry[k] with
    | some _ => if t.domOn (coreDom k) then t.releaseCore k else t
    | none => t.dropCore k

/-- The attempt's own START_TIMEOUT in units of 100 ms; 0 acts as 1 (R69, Table 2.8). -/
def State.startTimeout (s : State) : Nat := max (s.fld F.START_CFG_START_TIMEOUT) 1

/-- R69: what a timeout of the attempt is recorded as. -/
def State.timeoutCode (s : State) : Nat := if s.allHealthy then 0x09 else 0x08

/-- The contents of the CONST sections (Table 2.4). -/
def constSections (img : List Byte) (xs : List Section) : List (List Byte) :=
  (xs.filter fun x => x.type == 0x21).map fun x => part img x.offset x.size

/-- An accepted image: PHASES 5 to 7 of Table 2.1. -/
def State.acceptImage (s : State) (slotB : Bool) (img : List Byte) : State :=
  let xs := imgSections img
  let es := entryPoints xs
  let loaded := (upto 4).foldl (fun n k => n + (es[k]).isSome.toNat * 2 ^ k.val) 0
  let ts := imgTriples img
  let s1 := (xs.foldl (fun t x => t.placeSection img x) s).keepRegs ts
  let s2 := s1.registerLoad ts
  let s3 := (((s2.setFld (slotState slotB) 1).setBit F.IMG_STATUS_SLOT slotB).setBit F.IMG_STATUS_ACCEPTED true).setFld
    F.START_HEALTH_LOADED loaded
  let s4 := (s3.setFld F.IMG_GEN_GENERATION (imgNum img 8 4)).setFld F.IMG_LEN_LENGTH (imgNum img 0xC 4)
  let s6 := s4.modBoot fun b => { b with sections := xs, entry := es, timeout := some s4.startTimeout, flashBusy := false,
                                         doneState := s4.fld F.START_CFG_DONE_STATE }
  let s7 := if s6.bit F.START_CFG_FLASH_DPD then s6.emit (.flash (FlashCmd.plain 0xB9 s6.flashMhz)) else s6
  let s8 := (((s7.checkPolicy).loadPmem).placeSeeds (constSections img xs)).setPhase 5
  if s8.startTimeout * 100 ≤ (s8.power.ms + 2 ^ 32 - s8.boot.began) % 2 ^ 32 then s8.failAttempt s8.timeoutCode
  else
    let s9 := (s8.setPhase 6).releaseCores
    let s10 := s9.forAll fun (p : Port) t => (t.takePort p).resumePort p
    (((s10.setPhase 7).seqStart).setBit F.CLK_CFG_PLL_FORCE false).settlePll

/-- R63: the slot that is examined first: the higher GENERATION, slot A of equals. -/
def isFirst (slotB : Bool) (mine other : Nat) : Bool := decide (other < mine) || (other == mine && !slotB)

/-- R62, R389: the seal and the key hash are read once checks 1 and 2 have passed. -/
def State.readKey (s : State) (img : List Byte) : State :=
  if imgNum img 0 4 = 0x424C5256 ∧ headerOk img then s.kprTouchAll 0x20 9 else s

/-- R56: the section table of a candidate is read, and its body where checks 1-4 pass: LENGTH and the 64 signature bytes in
one burst. -/
def State.readBody (s : State) (slotB : Bool) (img : List Byte) : State :=
  let base := if slotB then 0x180000 else 0
  if imgNum img 0 4 ≠ 0x424C5256 then s
  else
    let s1 := s.readFlash (base + 0x100) (16 * min (imgNum img 0x10 2) 64)
    if s.examineHeader img = .accepted then s1.readFlash base (imgNum img 0xC 4 + 64) else s1

/-- R63, R64, R71: a slot has been read and checked. `other` tells of the other slot while it is not yet examined. -/
def State.candidate (s : State) (slotB : Bool) (img : List Byte) (other : Option Nat) : State :=
  let first := s.fld (slotState (!slotB)) == 0
  let s0 := ((s.readBody slotB img).readKey img).setPhase 4
  let s1 := if first && other.isNone then s0.setFld (slotState (!slotB)) 3 else s0
  match s.examine img with
  | .accepted => s1.acceptImage slotB img
  | .absent =>
    let s2 := (s1.setFld (slotState slotB) 3).setPhase 3
    if s2.fld (slotState (!slotB)) = 0 then s2 else s2.failImage (s2.boot.firstWhy.getD 1)
  | .rejected code =>
    let s2 := ((((s1.setFld (slotState slotB) 2).setFld (slotWhy slotB) code).raise 0 3).setPhase 3).modBoot fun b =>
      { b with firstWhy := some (b.firstWhy.getD code) }
    if s2.fld (slotState (!slotB)) = 0 then s2 else s2.failImage (s2.boot.firstWhy.getD code)

/-- A slot is examined once, the one that R63 names first (log 38). -/
def State.inOrder (s : State) (slotB : Bool) (img : List Byte) (other : Option Nat) : Bool :=
  s.fld (slotState slotB) == 0 && (s.fld (slotState (!slotB)) != 0 || imgNum img 0 4 != 0x424C5256
    || (match other with | none => true | some g => isFirst slotB (imgNum img 8 4) g))

def doCandidateReadDone (slotB : Bool) (img : List Byte) (other : Option Nat) (s : State) : Answer :=
  s.onlyIf (s.boot.attempt && s.phaseNo == 3 && s.inOrder slotB img other)
    fun s => s.candidate slotB img other

/-! ### Timeouts and retries (R69, R72) -/

def doStartTimeout (s : State) : Answer :=
  s.onlyIf (s.boot.attempt && s.boot.timeout.isSome && s.phaseNo == 7) fun s => s.failAttempt s.timeoutCode

/-- R72: the 200 ms have passed. -/
def State.retryEnd (s : State) : State :=
  if s.limit ≤ s.boot.record.fails then s.enterSeedling
  else ((s.setPhase 0).modBoot fun b => { b with failed := none }).detectFull

/-- A restart that waits takes the place of what follows the delay (R76). -/
def doRetryDelayEnd (s : State) : Answer := s.onlyIf (s.phaseNo == 10 && !s.boot.restart) fun s => s.retryEnd

/-! ### Start complete (R68) -/

/-- R68: every rail of DONE_STATE or lower is good. -/
def State.railsGood (s : State) : Bool :=
  (upto 36).all fun n => s.railState n == 0 || decide (s.boot.doneState < s.railState n) || s.railIsGood n

def State.startDone (s : State) : Bool :=
  s.boot.attempt && s.phaseNo == 7 && s.seq.started && s.dir != 2 && !s.seq.aborting && decide (s.boot.doneState ≤ s.cur)
    && s.railsGood && s.allHealthy

/-- R68: START_FAILS, the flag and START_LIMIT in one record write; COMPLETE and START_DONE. -/
def State.completeStart (s : State) : State :=
  let s1 := s.kprStartRec { s.boot.record with fails := 0, opened := false, limit := s.fld F.START_CFG_START_LIMIT }
  (((s1.setBit F.START_STATUS_COMPLETE true).setPhase 8).raise 0 0).modBoot fun b => { b with attempt := false, timeout := none }

/-! ### Healthy cores and restarts (R74, R76, R80) -/

def State.healthy (s : State) (k : Core) : State := s.setFld (F.START_HEALTH_HEALTHY.at k.val) 1

/-- The device starts anew, as a RESETn pulse without its cause (R76). -/
def State.restart (s : State) : State := ((s.kprCut false).allOff).setHouseOp

/-- R68, R72, R76: what follows of itself once the sequencer is at state 0, or a start is complete. -/
def State.settleStart (s : State) : State :=
  if s.boot.restart && s.cur == 0 && s.dir == 0 && !s.kprBusy then s.restart
  else if s.phaseNo = 9 ∧ s.cur = 0 ∧ s.dir = 0 ∧ !s.seedling then s.setPhase 10
  else if s.startDone then s.completeStart else s

/-- R76: during an attempt START_FAILS is given back and the flag cleared. -/
def StartRec.giveBack (r : StartRec) : StartRec := { r with fails := r.fails - 1, opened := false }

/-- R74, R76: what START_CTRL does to the start record, in the order of R76. -/
def State.ctrlRecord (s : State) (clear restart : Bool) : StartRec :=
  let r := if clear then { s.boot.record with fails := 0 } else s.boot.record
  if restart && s.boot.attempt then r.giveBack else r

/-- Store a start record in full at once, before a RESTART_NOW cuts the keeper (R76; log 39). -/
def State.storeStartRec (s : State) (r : StartRec) : State :=
  (s.recordGroups startKind r.payload).foldl (fun t g => t.kprStore g.1 g.2) (s.modBoot fun b => { b with record := r })

/-- R76, R405: the changed records are written, the sequencer powers down, and the restart follows. -/
def State.restartOrderly (s : State) : State :=
  let s1 := if s.recorder.statsDirty then s.kprRecord false else s
  let s2 := if s1.recorder.extremesDirty then s1.kprRecord true else s1
  (s2.modBoot fun b => { b with restart := true, attempt := false, timeout := none, failed := none }).seqPowerDown

/-- R74, R76, R81: a write of START_CTRL; without its key it is discarded in full. -/
def State.startCtrl (s : State) (key : Nat) (orderly now clear : Bool) : State :=
  if key ≠ 0x5A then s
  else
    let r := s.ctrlRecord clear (orderly || now)
    let change := r != s.boot.record
    if now then (if change then s.storeStartRec r else s).restart
    else
      let s1 := if change then s.kprStartRec r else s
      if orderly then s1.restartOrderly else s1

/-! ### Flash transfers (R83, R438) -/

/-- R83: data bytes, 0-64. -/
def State.xferLen (s : State) : Nat := min (s.fld F.FLASH_XFER_CTRL_LEN) 64

/-- The count of address bytes: code 3 acts as 2 (Table 2.13). -/
def State.xferAddrBytes (s : State) : Nat :=
  match s.fld F.FLASH_XFER_CTRL_ADDR_BYTES with
  | 0 => 0
  | 1 => 3
  | _ => 4

/-- R438: opcodes that erase or program at an address, and those that erase the chip. -/
def erasesAt : List Nat := [0x02, 0x12, 0x32, 0x34, 0x20, 0x21, 0x52, 0x5C, 0xD8, 0xDC]
def erasesAll : List Nat := [0x60, 0xC7]

/-- R59: the flash bytes of a slot. -/
def inSlot (slotB : Bool) (a : Nat) : Bool :=
  if slotB then decide (0x180000 ≤ a) && decide (a < 0x300000) else decide (a < 0x180000)

/-- R438: does the flash guard refuse the transfer? -/
def State.guarded (s : State) : Bool :=
  let op := s.fld F.FLASH_XFER_CTRL_OPCODE
  s.bit F.LIVE_FLASH_GUARD && s.bit F.IMG_STATUS_ACCEPTED && !s.seedling
    && (erasesAll.contains op
      || (erasesAt.contains op && inSlot (s.bit F.IMG_STATUS_SLOT) (s.fld F.FLASH_XFER_ADDR_ADDR)))

/-- The first `n` bytes of the transfer buffer. -/
def State.xferBytes (s : State) (n : Nat) : List Byte :=
  (List.range n).map fun i => BitVec.ofNat 8 (getBits (s.reg (A.FLASH_XFER_BUFk (i / 4))) (8 * (i % 4)) 8)

/-- R83: the transfer that the fields give, as it goes out: of the address, its low 3 or 4 bytes. -/
def State.xferCmd (s : State) : FlashCmd :=
  let write := s.bit F.FLASH_XFER_CTRL_DIR
  let n := s.xferAddrBytes
  { opcode := BitVec.ofNat 8 (s.fld F.FLASH_XFER_CTRL_OPCODE), addrBytes := n,
    addr := s.fld F.FLASH_XFER_ADDR_ADDR % 2 ^ (8 * n), dummy := s.fld F.FLASH_XFER_CTRL_DUMMY,
    send := if write then s.xferBytes s.xferLen else [], read := if write then 0 else s.xferLen, quad := false,
    mhz := s.flashMhz }

/-- R83: GO, with the other fields of the write in place: refused while a transfer runs, while the boot ROM uses the
flash, or by the guard of R438. -/
def State.xferGo (s : State) : State :=
  if s.boot.xfer.isSome || s.boot.flashBusy || s.guarded then
    s.setBit F.FLASH_XFER_CTRL_ERR true
  else
    ((s.setBit F.FLASH_XFER_CTRL_GO true).modBoot fun b =>
      { b with xfer := some ⟨s.bit F.FLASH_XFER_CTRL_DIR, s.xferLen⟩ }).emit (.flash s.xferCmd)

/-- R83: the transfer ends: a read's bytes land in the buffer, as many as LEN gave at its GO, and GO reads 0. -/
def State.xferDone (s : State) (x : FlashXfer) (data : List Byte) : State :=
  let n := if x.write then 0 else min x.len data.length
  let s1 := (List.range n).foldl (fun t i =>
    t.setFld ⟨A.FLASH_XFER_BUFk (i / 4), 8 * (i % 4), 8⟩ (data.getD i 0).toNat) s
  (s1.setBit F.FLASH_XFER_CTRL_GO false).modBoot fun b => { b with xfer := none }

def doFlashXferDone (data : List Byte) (s : State) : Answer :=
  match s.boot.xfer with
  | some x => .next (s.xferDone x data)
  | none => .next s

end Sys2Proof.Machine
end

