-- ==== Sys2Proof/Machine/Tele.lean ====
section
/-!
DEFINITION. The telemetry converter and the thermal sensors (chapter 12): what their rows and register writes do.
-/

namespace Sys2Proof.Machine

def State.modTcv (s : State) (f : Tcv → Tcv) : State := { s with tcv := f s.tcv }

/-- Nearest integer to a rational, ties away from zero (R362). -/
def roundRat (q : Rat) : Int := roundDiv q.num q.den

/-! ### Conversions (R362-R372) -/

/-- AVG_N: codes 9-15 act as 8 (R372). -/
def State.avgN (s : State) (n : Nat) : Nat := min (s.fld (F.TCV_INn_AVG_AVG_N n)) 8

/-- R371: an urgent request or a calibration step is pending or running. -/
def State.urgPend (s : State) : Bool := s.bit F.TCV_URGENT_GO || s.bit F.TCV_SYSCAL_GO

/-- REF_SEL as it acts: code 3 acts as 0 (R364). -/
def State.refField (s : State) : Nat := s.fld F.TCV_CFG_REF_SEL % 3

/-- R364, Table 12.2: a REF_SEL write takes effect, and the settling restarts; VDDA needs none. -/
def State.applyRef (s : State) : State :=
  if s.tcv.refWrite then
    (s.modTcv fun k => { k with refSel := s.refField, refWrite := false }).setBit F.TCV_STATUS_REF_OK (s.refField == 2)
  else s

/-- R368: the master frames of a window: FRAMES, 0 acting as 1, raised to 1 ms or cut to 100 ms with CH0's TOP as it is. -/
def State.windowFrames (s : State) (n : Fin 32) : Nat :=
  let top := max (s.top 0) 1
  min (max (s.fld (F.TCV_INn_CFG_FRAMES n.val)) (max ((400000 + top - 1) / top) 1)) (40000000 / top)

/-- R366: the timed window of an input. -/
def State.windowTenths (s : State) (n : Fin 32) : Nat := min (max (s.fld (F.TCV_INn_CFG_WIN n.val)) 10) 1000

/-- Table 12.3, R368: the window of an input; without a master timebase a frame-locked one is timed by WIN. -/
def State.convWindow (s : State) (n : Fin 32) : ConvWindow :=
  match s.fld (F.TCV_INn_CFG_WMODE n.val) with
  | 1 => .line 50
  | 2 => .line 60
  | 3 => if s.engine.timebase then .frames (s.windowFrames n) else .timed (s.windowTenths n)
  | _ => .timed (s.windowTenths n)

/-- R368: a window that was to be frame-locked is timed. -/
def State.fellBack (s : State) (n : Fin 32) : Bool := s.fld (F.TCV_INn_CFG_WMODE n.val) == 3 && !s.engine.timebase

/-- R365, R368: a conversion is selected; it begins at once, or waits for the reference. -/
def State.beginConv (s : State) (n : Fin 32) (kind : TcvKind) : State :=
  let s1 := s.applyRef
  let ok := s1.bit F.TCV_STATUS_REF_OK
  let r : TcvRun := { input := n, kind := kind, begun := ok || !s1.bit F.TCV_CFG_REF_WAIT, window := s1.convWindow n,
                      refu := !ok, fb := s1.fellBack n, skip := false }
  s1.modTcv fun k => { k with run := some r }

/-- The lowest input of TCV_SCAN above the last one of the pass (R370). -/
def State.nextInput (s : State) : Option (Fin 32) :=
  (upto 32).find? fun n => s.bit (F.TCV_SCAN_MASK.at n.val)
    && (match s.tcv.last with | some m => decide (m.val < n.val) | none => true)

/-- R370: a pass ends; with CONT a new one begins. -/
def State.endPass (s : State) : State :=
  let s1 := (s.raise 11 13).modTcv fun k => { k with last := none, run := none }
  if s1.bit F.TCV_CTRL_STOP then
    ((s1.setBit F.TCV_CTRL_START false).setBit F.TCV_CTRL_STOP false).setBit F.TCV_CTRL_CONT false
  else if s1.bit F.TCV_CTRL_CONT then s1
  else s1.setBit F.TCV_CTRL_START false

/-- R365, R370, R371: the pass's next conversion has not started for want of its reference, and gives way to an urgent request
or to STOP. -/
def State.givesWay (s : State) (r : TcvRun) : Bool :=
  !r.begun && r.kind == .scan && (s.tcv.urgent.isSome || s.bit F.TCV_CTRL_STOP)

/-- R370, R371: with D11 on and nothing running, the next conversion: an urgent request first, then the pass. -/
def State.selectConv (s : State) : State :=
  if !s.domOn 11 || s.tcv.run.any (fun r => !s.givesWay r) then s
  else
    match s.tcv.urgent with
    | some (n, kind) => (s.beginConv n kind).modTcv fun k => { k with urgent := none }
    | none =>
      if !s.bit F.TCV_CTRL_START then s
      else if s.bit F.TCV_CTRL_STOP then s.endPass
      else
        match s.nextInput with
        | some n => s.beginConv n .scan
        | none => s.endPass

/-- R362: the raw value. -/
def rawCode (mean : Rat) : Nat := (clamp (roundRat (mean * 2 ^ 24)) 0 0xFFFFFF).toNat

/-- R362: the calibrated code before its clamp. -/
def State.calCode (s : State) (n : Fin 32) (raw : Nat) : Int :=
  roundDiv (((raw : Int) - s.sfld (F.TCV_INn_OFS_OFS n.val)) * s.fld (F.TCV_INn_GAIN_GAIN n.val)) (2 ^ 22)

/-- R372: a scan result enters the input's average. -/
def State.average (s : State) (n : Fin 32) (code : Nat) (ovr : Bool) : State :=
  let a := s.tcv.acc[n]
  let b : TcvAcc := { sum := a.sum + code, num := a.num + 1, ovr := a.ovr || ovr }
  let put (s : State) (x : TcvAcc) : State := s.modTcv fun k => { k with acc := k.acc.set n.val x n.isLt }
  if s.avgN n.val = 0 then s
  else if b.num < 2 ^ s.avgN n.val then put s b
  else
    let s1 := (s.setFld (F.TCV_INn_AVGRES_AVG n.val) (b.sum / 2 ^ min (s.fld (F.TCV_INn_AVG_SHIFT n.val)) 8)).setFld
      (F.TCV_AVG_NEW_NEW.at n.val) 1
    put ((s1.setFld (F.TCV_AVG_OVR_OVR.at n.val) b.ovr.toNat).raise 11 3) { sum := 0, num := 0, ovr := false }

/-- The result word of TCV_INn_RES and TCV_URG_RES, with NEW = 1. -/
def resultWord (code : Nat) (ovr refu fb : Bool) : Word :=
  BitVec.ofNat 32 (code + 2 ^ 24 + ovr.toNat * 2 ^ 25 + refu.toNat * 2 ^ 26 + fb.toNat * 2 ^ 27)

/-- R370: a scan result is written. -/
def State.scanResult (s : State) (r : TcvRun) (code : Nat) (ovr fb : Bool) : State :=
  let n := r.input
  let s1 := if s.bit (F.TCV_INn_RES_NEW n.val) then s.raise 11 15 else s
  let s2 := (s1.setReg (A.TCV_INn_RES n.val) (resultWord code ovr r.refu fb)).raise 11 0
  let s3 := s2.modTcv fun k => { k with last := some n }
  if r.skip then s3 else s3.average n code ovr

/-- R374: a calibration step ends with a RESULT. -/
def State.calResult (s : State) (result : Nat) : State :=
  let s1 := (s.setFld F.TCV_SYSCAL_RESULT result).setBit F.TCV_SYSCAL_GO false
  let s2 := s1.modTcv fun k => { k with calSum := 0, calNum := 0, calOvr := false }
  if result < 3 then s2.raise 11 4 else if result = 3 then s2 else s2.raise 11 5

/-- R373, R374: the measuring step has its samples; of several failures the lowest RESULT is reported (log 40). -/
def State.calEnd (s : State) (r : TcvRun) : State :=
  let mean := openDiv s.tcv.calSum (max s.tcv.calNum 1)
  match r.kind with
  | .zero =>
    if mean < -0x100000 ∨ 0x100000 < mean then s.calResult 5
    else if s.tcv.calOvr then s.calResult 6
    else ((s.setSFld F.TCV_SYSCAL_ZERO_RAW0 mean).modTcv fun k => { k with zeroed := some r.input, halfway := true }).calResult 1
  | _ =>
    let raw0 := s.sfld F.TCV_SYSCAL_ZERO_RAW0
    let gain := if mean ≤ raw0 then 0 else roundDiv ((s.fld F.TCV_SYSCAL_FS_TARGET : Int) * 2 ^ 22) (mean - raw0).toNat
    if gain < 0x200000 ∨ 0x600000 < gain then s.calResult 4
    else if s.tcv.calOvr then s.calResult 6
    else
      let s1 := (s.setFld (F.TCV_INn_GAIN_GAIN r.input.val) gain.toNat).setSFld (F.TCV_INn_OFS_OFS r.input.val) raw0
      (s1.modTcv fun k => { k with scaled := r.input :: k.scaled }).calResult 2

/-- R373: a sample of a calibration step, and the next one or the step's end. -/
def State.calSample (s : State) (r : TcvRun) (raw : Nat) (ovr : Bool) : State :=
  let s1 := s.modTcv fun k => { k with calSum := k.calSum + raw, calNum := k.calNum + 1, calOvr := k.calOvr || ovr }
  if s1.tcv.calNum < 2 ^ s1.avgN r.input.val then s1.beginConv r.input r.kind
  else (s1.modTcv fun k => { k with halfway := false }).calEnd r

/-- R362, R363: a window has ended. -/
def State.conversion (s : State) (r : TcvRun) (mean : Rat) (wild stopped : Bool) : State :=
  let raw := rawCode mean
  let exact := s.calCode r.input raw
  let code := (clamp exact 0 0xFFFFFF).toNat
  let ovr := decide (1 ≤ mean) || decide (mean < 0) || wild || decide (exact < 0) || decide (0xFFFFFF < exact)
  let fb := r.fb || (r.window.locked && stopped)
  let s0 := s.modTcv fun k => { k with run := none }
  let s1 := if ovr then s0.raise 11 1 else s0
  match r.kind with
  | .scan => s1.scanResult r code ovr fb
  | .urgent => ((s1.setReg A.TCV_URG_RES (resultWord code ovr r.refu fb)).setBit F.TCV_URGENT_GO false).raise 11 6
  | _ => s1.calSample r raw ovr

def doConversionDone (mean : Rat) (wild stopped : Bool) (s : State) : Answer :=
  match s.tcv.run with
  | some r => s.onlyIf (r.begun && s.domOn 11) fun s => s.conversion r mean wild stopped
  | none => .next s

/-- R365: a conversion that waits for the reference begins. -/
def State.beginWaiting (s : State) : State :=
  s.modTcv fun k =>
    { k with run := k.run.map fun r => if r.begun then r
               else { r with begun := true, window := s.convWindow r.input, refu := !s.bit F.TCV_STATUS_REF_OK,
                             fb := s.fellBack r.input } }

/-- R364: the reference has settled. -/
def State.settleRef (s : State) : State := (s.setBit F.TCV_STATUS_REF_OK true).beginWaiting

def doRefSettled (s : State) : Answer := s.onlyIf (s.domOn 11 && !s.bit F.TCV_STATUS_REF_OK) fun s => s.settleRef

/-! ### What register writes do (R364, R370-R375) -/

/-- R372: the accumulator clears; a sample that is being converted does not count. -/
def State.clearAvg (s : State) (n : Fin 32) : State :=
  s.modTcv fun k =>
    { k with acc := k.acc.set n.val { sum := 0, num := 0, ovr := false } n.isLt,
             run := k.run.map fun r => if r.input = n then { r with skip := true } else r }

/-- R370: a write of TCV_CTRL: STOP outside a pass only clears CONT; START begins a pass. -/
def State.ctrlWritten (s : State) (was : Bool) : State :=
  let s1 := if was then s else s.modTcv fun k => { k with last := none }
  if s1.bit F.TCV_CTRL_START then s1
  else if s1.bit F.TCV_CTRL_STOP then (s1.setBit F.TCV_CTRL_STOP false).setBit F.TCV_CTRL_CONT false else s1

/-- R371: GO of TCV_URGENT; `busy` is URG_PEND before the write. -/
def State.urgentGo (s : State) (busy : Bool) : State :=
  if busy then s.setBit F.TCV_STATUS_URG_ERR true
  else (s.setBit F.TCV_URGENT_GO true).modTcv fun k => { k with urgent := some (⟨s.fld F.TCV_URGENT_INPUT % 32, by omega⟩, .urgent) }

/-- The calibration-set groups of an input's OFS and GAIN (Table 13.5). -/
def State.sysCalGroups (s : State) (n : Nat) : List (Nat × Word) :=
  [(0x4100 + 8 * n, s.reg (A.TCV_INn_OFS n)), (0x4104 + 8 * n, s.reg (A.TCV_INn_GAIN n))]

/-- R373, R374: GO of TCV_SYSCAL; STEP 0 names no step and ends at once. A step for another input between steps 1 and 2
fails (log 73). -/
def State.syscalGo (s : State) (busy : Bool) (key : Nat) : State :=
  let n : Fin 32 := ⟨s.fld F.TCV_SYSCAL_INPUT % 32, by omega⟩
  if busy then s.setBit F.TCV_STATUS_URG_ERR true
  else if s.tcv.halfway && s.tcv.zeroed != some n && s.fld F.TCV_SYSCAL_STEP != 0 then s.calResult 7
  else
    let s1 := s.modTcv fun k => { k with zeroed := if k.zeroed == some n then k.zeroed else none }
    match s.fld F.TCV_SYSCAL_STEP with
    | 1 => (s1.setBit F.TCV_SYSCAL_GO true).modTcv fun k => { k with urgent := some (n, .zero), zeroed := none, halfway := false }
    | 2 => if s1.tcv.zeroed = some n then (s1.setBit F.TCV_SYSCAL_GO true).modTcv fun k => { k with urgent := some (n, .full) }
        else s1.calResult 7
    | 3 => if key = 0xC5 ∧ s1.tcv.scaled.contains n then (s1.setBit F.TCV_SYSCAL_GO true).kprCal false (s1.sysCalGroups n.val)
        else s1.calResult 7
    | _ => s1

/-- R373: the keeper has written a committed calibration. -/
def State.syscalWritten (s : State) : State := (s.calResult 3).raise 11 14

/-! ### Thermal sensors (R376-R381) -/

/-- R377: a demand; it has no effect while a measurement runs, and D11 has no house source. -/
def State.thmDemand (s : State) : State :=
  if s.bit F.THM_STATUS_BUSY || !s.fullOp then s else s.setBit F.THM_STATUS_BUSY true

/-- R380: k runs from 0 to THR_MAX, so a lower THR_MAX lowers it at once (log 73). -/
def State.capThrottle (s : State) : State :=
  if s.fld F.THM_CTRL_THR_MAX < s.throttle then (s.setFld F.THM_STATUS_STEP (s.fld F.THM_CTRL_THR_MAX)).raise 11 12 else s

/-- R377: GO reads 1 until the measurement ends. -/
def State.thmGo (s : State) : State := (s.thmDemand).setBit F.THM_CTRL_GO (s.thmDemand.bit F.THM_STATUS_BUSY)

def doThmDemandTimer (s : State) : Answer :=
  s.onlyIf (s.domOn 2 && s.fld F.THM_CTRL_PERIOD != 0 && !s.bit F.THM_STATUS_SHUT_HOLD && !s.seedling)
    fun s => s.thmDemand

def doShutHoldMeasure (s : State) : Answer := s.onlyIf (s.bit F.THM_STATUS_SHUT_HOLD) fun s => s.thmDemand

/-- R376: the sensors beside one. -/
def neighbours (i : Fin 9) : List (Fin 9) :=
  (upto 9).filter fun j =>
    let dr := if i.val / 3 < j.val / 3 then j.val / 3 - i.val / 3 else i.val / 3 - j.val / 3
    let dc := if i.val % 3 < j.val % 3 then j.val % 3 - i.val % 3 else i.val % 3 - j.val % 3
    dr + dc == 1

abbrev Temps := Vector Rat 9

def neighbourMean (t : Temps) (i : Fin 9) : Rat := ((neighbours i).map fun j => t[j]).sum / ((neighbours i).length : Rat)

/-- R378: |t_i - the mean of its neighbours|. -/
def deviation (t : Temps) (i : Fin 9) : Rat := |t[i] - neighbourMean t i|

/-- The outcome of the cross-check. -/
structure Checked where
  temps : Temps
  replaced : List (Fin 9)
  valid : Bool

/-- R378: at most two replacements, then a third suspect makes the measurement invalid; the fuel covers the three
passes. -/
def crossCheck (lim : Rat) : Nat → Temps → List (Fin 9) → Checked
  | 0, t, r => ⟨t, r, false⟩
  | fuel + 1, t, r =>
    let bad := (upto 9).filter fun i => !r.contains i && decide (lim < deviation t i)
    if bad = [] then ⟨t, r, true⟩
    else if r.length = 2 then ⟨t, r, false⟩
    else
      match bad.foldl (fun (b : Option (Fin 9)) i =>
          match b with
          | none => some i
          | some j => if deviation t j < deviation t i then some i else some j) none with
      | some j => crossCheck lim fuel (t.set j.val (neighbourMean t j) j.isLt) (r ++ [j])
      | none => ⟨t, r, true⟩

/-- R377: a sensor's temperature. -/
def State.sensorTemp (s : State) (i : Fin 9) (count : BitVec 16) : Rat :=
  25 + (((s.fld (F.THM_CALi_C25 i.val) : Int) - (count.toNat : Int) : Int) : Rat) * (s.fld (F.THM_CALi_SLOPE i.val) : Rat) / 2 ^ 16

/-- A temperature in 0.125 deg C; one outside the 12-bit field is a free value (log 41). -/
def State.tempCode (s : State) (t : Rat) : Int × State :=
  let c := openRat (8 * t)
  if -2048 ≤ c ∧ c ≤ 2047 then (c, s) else let (v, s1) := s.fresh 12; (v.toInt, s1)

/-- Set a latched STATUS_TEMPERATURE bit on every page for every host (Table 10.4). -/
def State.latchTemp (s : State) (b : Nat) : State :=
  s.forAll fun (l : Loop) t => t.latchAll fun h => (F.HP_PGn_STATh_TEMP l.val h).at b

/-- Table 12.5: the warning condition; its rise sets OT_WARNING. -/
def State.warn (s : State) (tmax : Option Rat) : State :=
  let w : Rat := (s.fld F.THM_THRESH_WARN : Rat)
  let low : Rat := w - (s.fld F.THM_HYST_WARN_HYST : Rat)
  match tmax with
  | none => if s.bit F.THM_STATUS_WARN then s else (s.setBit F.THM_STATUS_WARN true).latchTemp 6
  | some t =>
    if w ≤ t then if s.bit F.THM_STATUS_WARN then s else (s.setBit F.THM_STATUS_WARN true).latchTemp 6
    else if t ≤ low then s.setBit F.THM_STATUS_WARN false
    else s

/-- R380: the throttle step. -/
def State.throttleStep (s : State) (tmax : Option Rat) : State :=
  let k := s.throttle
  let th : Rat := (s.fld F.THM_THRESH_THROT : Rat)
  let rise := match tmax with | none => true | some t => decide (th ≤ t)
  let fall := match tmax with | none => false | some t => decide (t ≤ th - (s.fld F.THM_HYST_THROT_HYST : Rat))
  let k' := if rise then if k < s.fld F.THM_CTRL_THR_MAX then k + 1 else k else if fall then k - 1 else k
  if k' = k then s else (s.setFld F.THM_STATUS_STEP k').raise 11 12

/-- R381: a thermal shutdown, and the end of its hold; within the hold no further one is reported (log 104). -/
def State.shutdown (s : State) (t : Rat) : State :=
  let shut : Rat := (min (s.fld F.THM_THRESH_SHUT) 130 : Nat)
  let hyst : Rat := (max (s.fld F.THM_HYST_SHUT_HYST) 1 : Nat)
  if s.bit F.THM_STATUS_SHUT_HOLD then
    if t ≤ shut - hyst then s.setBit F.THM_STATUS_SHUT_HOLD false else s
  else if shut ≤ t then
    let s1 := (((s.report scopeDevice 0x11 4 none 0).raise 11 10).latchTemp 7).setBit F.THM_STATUS_SHUT_HOLD true
    (s1.deviceSafe).safeStart
  else s

/-- R404: t_max in its histogram and among the extremes. -/
def State.tmaxStats (s : State) (t : Rat) (code : Int) : State :=
  let bin := (clamp ((t - 50) / 5).floor 0 15).toNat
  ((s.count (0xAA0 + 4 * bin)).extreme 20 code true).extreme 21 code false

/-- The highest of the nine, the lowest index among equals. -/
def hottest (t : Temps) : Fin 9 := (upto 9).foldl (fun b i => if t[b] < t[i] then i else b) 0

/-- R377-R381: a measurement has ended. -/
def State.thermal (s : State) (counts : Vector (BitVec 16) 9) : State :=
  let s0 := (((s.setBit F.THM_STATUS_BUSY false).setBit F.THM_CTRL_GO false)).raise 11 7
  let c := crossCheck (s.fld F.THM_HYST_XCHK_LIM : Rat) 4 (Vector.ofFn fun i => s.sensorTemp i counts[i]) []
  let s1 := c.replaced.foldl (fun t i => t.setFld (F.THM_STATUS_XFAIL.at i.val) 1) s0
  let s2 := if c.replaced.isEmpty && c.valid then s1 else s1.raise 11 11
  let s3 := { s2 with thmBad := !c.valid }
  if !c.valid then (((s3.setBit F.THM_STATUS_INVALID true).warn none).throttleStep none)
  else
    let s4 := s3.forAll fun (i : Fin 9) t =>
      let (code, t1) := t.tempCode c.temps[i]
      ((t1.setSFld (F.THM_Ti_TEMP i.val) code).setBit (F.THM_Ti_REPL i.val) (c.replaced.contains i)).setFld
        (F.THM_Ti_COUNT i.val) counts[i].toNat
    let j := hottest c.temps
    let tmax := c.temps[j]
    let code := s4.sfld (F.THM_Ti_TEMP j.val)
    let s5 := ((s4.setSFld F.THM_MAX_MAX code).setFld F.THM_MAX_SENSOR j.val).tmaxStats tmax code
    ((s5.warn (some tmax)).throttleStep (some tmax)).shutdown tmax

def doThDone (counts : Vector (BitVec 16) 9) (s : State) : Answer :=
  s.onlyIf (s.bit F.THM_STATUS_BUSY && s.domOn 11) fun s => s.thermal counts

end Sys2Proof.Machine
end

