-- ==== Sys2Proof/Machine/Keeper.lean ====
section
/-!
DEFINITION. Keeper commands and operations as they run, and the recorder's rows (chapter 13).
-/

namespace Sys2Proof.Machine

/-! ### Commands (R387, R391-R393, Table 13.8) -/

/-- Groups of a WRITE: 1-32 (Table 13.10). -/
def State.writeLen (s : State) : Nat := min (max (s.fld F.KPR_WLEN_LEN) 1) 32

/-- First offset of a WRITE. -/
def State.writeAddr (s : State) : Nat := 4 * s.fld F.KPR_WADDR_ADDR

/-- A command operation is pending or running. -/
def State.cmdPend (s : State) : Bool :=
  s.kpr.command.isSome || (match s.kpr.running with | some ⟨.command _, _⟩ => true | _ => false)

/-- R393: the buffer's words. -/
def State.bufWords (s : State) (n : Nat) : List Word := (List.range n).map fun k => s.reg (A.KPR_WBUFk k)

/-- Table 13.2, R73: a core, or any host in seedling mode; `owner` asks for resource 14 besides. -/
def State.kprRight (s : State) (who : Writer) (owner : Bool) : Bool :=
  match who with
  | .core _ => true
  | .host h => s.seedling || (owner && s.fld (F.HP_OWNERr_OWNER 14) == h.val)

/-- R392: does a range reach the protected part of the user area? -/
def State.protectedTo (s : State) (last : Nat) : Bool :=
  match s.fld F.KPR_PROT_UA_PROT with
  | 1 => decide (0x33800 ≤ last)
  | 2 => decide (0x27000 ≤ last)
  | 3 => true
  | _ => false

/-- R391: the checks of a GO, in order: 0 accepts it, otherwise the RESULT. -/
def State.kprCheck (s : State) (who : Writer) (op key : Nat) : Nat :=
  let a := s.writeAddr
  let last := a + 4 * s.writeLen - 1
  let q := partition a
  if s.cmdPend then 1
  else
    match op with
    | 1 =>
      if q = 1 ∧ key ≠ 0xC5 then 5
      else if 0x3FFFF < last ∨ partition last ≠ q then 4
      else if !(if q = 1 then (match who with | .core _ => true | .host _ => false)
                else q == 4 && s.kprRight who true) then 3
      else if q = 4 ∧ s.protectedTo last then 2 else 0
    | 2 => if key ≠ 0x5A then 5 else if s.kprRight who false then 0 else 3
    | 3 => if key ≠ 0x4B then 5 else if !s.kprRight who false then 3 else if s.sealed then 6 else 0
    | _ => 5

/-- The operation that an accepted GO queues. -/
def State.kprCommand (s : State) (op : Nat) : KprCmd :=
  match op with
  | 1 => .write s.writeAddr (s.bufWords s.writeLen)
  | 2 => .startClr
  | _ => .keyset (s.bufWords 8)

/-- R391: GO of KPR_CMD. -/
def State.kprGo (s : State) (who : Writer) (op key : Nat) : State :=
  let r := s.kprCheck who op key
  let s1 := s.setFld F.KPR_CMD_RESULT r
  if r = 0 then ((s1.setBit F.KPR_CMD_GO true).modKpr fun k => { k with command := some (s.kprCommand op) }).kprTake
  else if r = 2 then s1.raise 12 4
  else s1.raise 12 14

/-! ### Operations as they run (R388, R393-R395) -/

/-- R393: the hash reads back wrong: the rest of the KEYSET is not written. -/
def verifyFails (op : KprOp) (a : Nat) (same : Bool) : Bool :=
  match op with
  | .command (.keyset _) => a == 0x3C && !same
  | _ => false

/-- A group is written; a log entry's change moves its generation counter (R410). -/
def State.groupDone (s : State) (op : KprOp) (a : Nat) (w : Word) (rest : List (Nat × Word)) (same : Bool) : State :=
  let s1 := (s.kprStore a w).modKpr fun k =>
    { k with running := some ⟨op, if verifyFails op a same then [] else rest⟩ }
  match op with
  | .log first _ => s1.recGen (if first then 2 else 3)
  | _ => s1

def doKeeperGroupDone (same : Bool) (s : State) : Answer :=
  match s.kpr.running with
  | some ⟨op, (a, w) :: rest⟩ => s.onlyIf (s.domOn 1) fun s => s.groupDone op a w rest same
  | _ => .next s

/-- A command operation ends with its RESULT; OK raises WRITE_DONE. -/
def State.commandDone (s : State) (c : KprCmd) : State :=
  let s1 := s.setBit F.KPR_CMD_GO false
  match c with
  | .write a _ =>
    let s2 := (s1.setFld F.KPR_CMD_RESULT 0).raise 12 3
    if partition a = 1 then (s2.calCheck).raise 11 14 else s2
  | .startClr =>
    ((s1.setFld F.KPR_CMD_RESULT 0).raise 12 3).modBoot fun b => { b with record := { b.record with fails := 0, opened := false } }
  | .keyset _ => if s1.sealed then (s1.setFld F.KPR_CMD_RESULT 0).raise 12 3 else s1.setFld F.KPR_CMD_RESULT 7

/-- R405: a FLUSH ends once both records are written. -/
def State.flushDone (s : State) : State :=
  if s.recorder.flushing && s.kpr.pieces.isEmpty then
    (s.modRec fun r => { r with flushing := false }).setBit F.REC_CTRL_FLUSH false
  else s

/-- R394: the operation ends, and the next one is taken. -/
def State.operationDone (s : State) (op : KprOp) : State :=
  let s1 := s.modKpr fun k => { k with running := none, lastWasLog := match op with | .log _ _ => true | _ => false }
  let s2 :=
    match op with
    | .log _ _ => (s1.raise 12 10).modRec fun r => { r with committing := none, seq := r.seq + 1 }
    | .command c => s1.commandDone c
    | .piece _ _ => s1.flushDone
    | .cal retrim => if retrim then (s1.calCheck).raise 11 14 else (s1.calCheck).syscalWritten
    | _ => s1
  s2.kprTake

def doKeeperOperationDone (s : State) : Answer :=
  match s.kpr.running with
  | some ⟨op, []⟩ => s.onlyIf (s.domOn 1) fun s => s.operationDone op
  | _ => .next s

/-- R397: OPMIN follows the D0 operating-time counter, every 16 minutes. -/
def doOpminPersist (s : State) : Answer :=
  s.onlyIf (s.kprPowered && !s.power.dormant) fun s => s.kprSpread .opmin (s.power.opmin - s.spreadValue .opmin)

/-! ### Reads, protection and the hold-up mark (R392, R395, R411) -/

/-- R411: KPR_RADDR advances within its partition. -/
def nextRead (a : Nat) : Nat := if a + 4 = partEnd (partition a) then partBase (partition a) else a + 4

/-- R411: a read of KPR_RDATA: the group, and the state after it. -/
def State.readGroup (s : State) : Word × State :=
  let a := 4 * s.fld F.KPR_RADDR_ADDR
  (s.kprWord a,
   (((s.kprTouch a).setFld F.KPR_RSTAT_ECC (s.kprEcc a)).setFld F.KPR_RADDR_ADDR (nextRead a / 4)))

/-! ### The recorder (R404, R405, R410) -/

/-- R405: the changed records are written. -/
def State.persist (s : State) : State :=
  let s1 := if s.recorder.statsDirty then s.kprRecord false else s
  if s1.recorder.extremesDirty then s1.kprRecord true else s1

def doRecorderPersist (s : State) : Answer := s.onlyIf (s.domOn 2 && s.boot.kprRead) fun s => s.persist

/-- R405: REC_CTRL.FLUSH. -/
def State.flush (s : State) : State :=
  (((s.setBit F.REC_CTRL_FLUSH true).modRec fun r => { r with flushing := true }).persist).flushDone

/-- R410: REC_CTRL.SNAP copies the live payload in one step. -/
def State.takeSnap (s : State) : State :=
  ((s.modRec fun r => { r with snap := r.stats }).recGen 0).setBit F.REC_CTRL_SNAP false

/-- R404: the samples of one rail, once per second in STATE 3. A negative current is counted in the lowest bin, and any current
against a limit of 0 in the highest (log 103). -/
def State.railSample (s : State) (l : Loop) : State :=
  if s.loopSt l ≠ 3 then s
  else
    let i := s.iph l
    let ol : Rat := (s.olEff l : Rat)
    let bin := if ol ≤ 0 then 15 else (clamp (16 * i / ol).floor 0 15).toNat
    ((s.count (0x8A0 + 64 * l.val + 4 * bin)).extreme l.val (openRat i) true).extreme (8 + l.val) (s.sensed l) true

/-- R404: the samples of one port, once per second while attached; `w` is its power in 0.25 W. -/
def State.portSample (s : State) (p : Port) (w : Nat) : State :=
  if !s.attached p then s
  else (s.count (0xAE0 + 64 * p.val + 4 * min 15 (w / 60))).extreme (16 + p.val) w true

def State.sample (s : State) (power : Vector Nat 4) (vin vsys : Nat) : State :=
  let s1 := s.forAll fun (l : Fin 8) t => t.railSample (railLoop l)
  let s2 := s1.forAll fun (p : Port) t => t.portSample p power[p]
  ((s2.extreme 22 vin true).extreme 23 vsys true).extreme 24 vsys false

def doStatisticsSample (power : Vector Nat 4) (vin vsys : Nat) (s : State) : Answer :=
  s.onlyIf (s.domOn 2 && s.boot.kprRead) fun s => s.sample power vin vsys

end Sys2Proof.Machine
end

