-- ==== Sys2Proof/Machine/Live.lean ====
section
/-!
DEFINITION. Service in operation and perturbation testing (chapter 15): what its rows and register writes do.
-/

namespace Sys2Proof.Machine

def State.modLive (s : State) (f : Live → Live) : State := { s with live := f s.live }
def State.modTst (s : State) (f : Tst → Tst) : State := { s with tst := f s.tst }

/-! ### Staging and verifying (R439, R440) -/

/-- First SRAM offset of the staging region. -/
def State.stageBase (s : State) : Nat := s.fld F.LIVE_STAGE_CFG_BASE * 0x40000

/-- R439: the live block's LCK fields may be written: no verification and no copy runs. -/
def State.stageOpen (s : State) : Bool :=
  !s.bit F.LIVE_STAGE_CTRL_VERIFY && (upto 4).all fun k => s.fld (F.LIVE_HOk_STATE k.val) != 2

/-- R439: a staged word; the pointer advances, and VERIFIED clears. -/
def State.stageWord (s : State) (w : Word) : State :=
  let p := s.fld F.LIVE_STAGE_PTR_PTR
  (((s.setSramWord (s.stageBase + 4 * p) w).setReg A.LIVE_STAGE_DATA w).setFld F.LIVE_STAGE_PTR_PTR ((p + 1) % 0x10000)).setBit
    F.LIVE_STAGE_CTRL_VERIFIED false

/-- The bytes of the staging region. -/
def State.staged (s : State) : List Byte := (List.range 0x40000).map fun i => s.sram.get sramDefault (s.stageBase + i)

/-- The installed section that a package's section replaces: the same TYPE and DEST (R440). -/
def State.installed (s : State) (x : Section) : Option Section :=
  s.boot.sections.find? fun y => y.type == x.type && y.dest == x.dest

/-- Check 6 of R440. -/
def State.packageFits (s : State) (xs : List Section) : Bool :=
  decide ((xs.filter fun x => (codeCore x.type).isSome).length = 1)
    && decide ((xs.filter fun x => x.type == 0x21 || x.type == 0x22).length + 1 = xs.length)
    && xs.all (fun x => (s.installed x).any fun y => decide (x.size ≤ y.size))
    && decide (((xs.filterMap s.installed).map fun y => y.size).sum ≤ 0x40000)

/-- R440: the package's checks, in order: 0 passes. -/
def State.packageCode (s : State) (img : List Byte) : Nat :=
  let length := imgNum img 0xC 4
  let n := imgNum img 0x10 2
  let key := part img 0x40 64
  let big (bs : List Byte) : List Byte := (bs.take 32).reverse ++ (bs.drop 32).reverse
  if imgNum img 0 4 ≠ 0x424C5256 then 1
  else if !(headerOk img && decide (length + 64 ≤ 0x40000) && (n == 1 || n == 2)) then 2
  else if !s.sealed then 3
  else if sha256 key ≠ s.keyHash then 4
  else if !ecdsaOk (big key) (big (part img length 64)) (sha256 (img.take length)) then 5
  else if !s.packageFits (imgSections img) then 6 else 0

/-- The core of a package. -/
def packageCore (xs : List Section) : Nat := ((xs.findSome? fun x => codeCore x.type).map Fin.val).getD 0

/-- R440: C0's answer to VERIFY. -/
def State.verify (s : State) : State :=
  let img := s.staged
  let xs := imgSections img
  let code := s.packageCode img
  let s1 := (s.setBit F.LIVE_STAGE_CTRL_VERIFY false).setFld F.LIVE_STAGE_CTRL_RESULT code
  if code = 0 then
    (((s1.setBit F.LIVE_STAGE_CTRL_VERIFIED true).setFld F.LIVE_STAGE_CTRL_TARGET (packageCore xs)).modLive fun v =>
      { v with package := xs }).raise 14 12
  else (s1.setBit F.LIVE_STAGE_CTRL_VERIFIED false).raise 14 13

/-- A VERIFY waits for C0 to run (R440, R443). -/
def State.settleVerify (s : State) : State := if s.bit F.LIVE_STAGE_CTRL_VERIFY && s.coreActs 0 then s.verify else s

/-! ### Handing over (R441, R442) -/

def State.hoState (s : State) (k : Core) : Nat := s.fld (F.LIVE_HOk_STATE k.val)

/-- STATE and RESULT of a handover. -/
def State.setHo (s : State) (k : Core) (st result : Nat) : State :=
  (s.setFld (F.LIVE_HOk_STATE k.val) st).setFld (F.LIVE_HOk_RESULT k.val) result

/-- R441: REQ. -/
def State.handoverReq (s : State) (k : Core) : State :=
  if s.live.handover.isSome then s.setFld (F.LIVE_HOk_RESULT k.val) 2
  else if !(s.bit F.LIVE_STAGE_CTRL_VERIFIED && s.fld F.LIVE_STAGE_CTRL_TARGET == k.val) then s.setFld (F.LIVE_HOk_RESULT k.val) 3
  else if !s.bit F.CLK_STATUS_PLL_LOCK then s.setFld (F.LIVE_HOk_RESULT k.val) 4
  else (s.setHo k 1 0).modLive fun v => { v with handover := some k }

/-- A partner-memory keeper write is pending or running. -/
def State.pmemBusy (s : State) : Bool :=
  !s.kpr.pmems.isEmpty || (match s.kpr.running with | some ⟨.pmem, _⟩ => true | _ => false)

/-- Table 15.2. -/
def State.quiescent (s : State) (k : Core) : Bool :=
  match k with
  | 0 => ([0, 1, 2, 64, 65, 66].all fun n => !s.mbxFull n) && !s.cmdPend && !s.bit F.DORMANT_CFG_ENTER
      && (upto 4).all fun p => (s.path p).want == 0
  | 1 => ((upto 12).all fun l => (s.loop l).inject.isNone && !s.bit (F.LP_Ln_CTRL_SWAP l.val)) && !s.bit F.PE_CTRL_LOAD_ALL
      && s.live.retrim.isNone
  | 2 => ((upto 4).all fun p => !s.bit (F.PD_Pp_STATUS_AMS p.val)) && !s.pmemBusy
  | 3 => !s.inApp 3

/-- R441, R442: READY by core k: an accepted one holds the core in reset for the copy. -/
def State.ready (s : State) (k : Core) : State :=
  if s.hoState k = 1 ∧ s.live.handover = some k ∧ s.quiescent k then
    ((s.setFld (F.LIVE_HOk_STATE k.val) 2).modCore k fun _ => CoreState.reset).setFld (F.CORE_Ck_STATUS_STATE k.val) 0
  else s

/-- A handover fails with a RESULT (R441, R442). -/
def State.handoverFails (s : State) (k : Core) (result : Nat) : State :=
  ((s.setHo k 5 result).modLive fun v => { v with handover := none }).raise 14 (8 + k.val)

def doHandoverTimeout (k : Core) (s : State) : Answer :=
  s.onlyIf (s.live.handover == some k && s.hoState k == 1) fun s => s.handoverFails k 5

/-- R442: the installed range of a replaced section takes the staged words, then zeros, in both copies. -/
def State.copySection (s : State) (x : Section) : State :=
  match s.installed x with
  | some y =>
    let bs := (List.range y.size).map fun i =>
      if i < x.size then s.sram.get sramDefault (s.stageBase + x.offset + i) else 0
    y.ranges.foldl (fun t r => t.setSramBytes r.1 bs) s
  | none => s

/-- R442: the copy ends and the core is released. -/
def State.copyDone (s : State) (k : Core) : State :=
  let xs := (s.live.package.filter fun x => (codeCore x.type).isSome) ++ s.live.package.filter fun x => (codeCore x.type).isNone
  let s1 := xs.foldl (fun t x => t.copySection x) s
  (s1.releaseCore k).setFld (F.LIVE_HOk_STATE k.val) 3

def doHandoverCopyDone (k : Core) (s : State) : Answer :=
  s.onlyIf (s.live.handover == some k && s.hoState k == 2) fun s => s.copyDone k

/-- R442: ALIVE by core k. -/
def State.alive (s : State) (k : Core) : State :=
  if s.hoState k = 3 ∧ s.live.handover = some k then
    ((s.setHo k 4 1).modLive fun v => { v with handover := none }).raise 14 (4 + k.val)
  else s

/-- R442: not alive in time: the core restarts from the new code. -/
def State.notAlive (s : State) (k : Core) : State :=
  ((s.handoverFails k 6).releaseCore k).satInc (F.CORE_Ck_STATUS_RESTARTS k.val)

def doNotAlive (k : Core) (s : State) : Answer :=
  s.onlyIf (s.live.handover == some k && s.hoState k == 3) fun s => s.notAlive k

/-- What a write of LIVE_HOk does: REQ, then READY and ALIVE by core k alone. -/
def State.hoWritten (s : State) (who : Writer) (k : Core) (req ready alive : Bool) : State :=
  let s1 := if req then s.handoverReq k else s
  let mine := who == .core k
  let s2 := if ready && mine then s1.ready k else s1
  if alive && mine then s2.alive k else s2

/-! ### Retiring a stage (R444) -/

/-- R444: GO of LIVE_RETIRE. -/
def State.retireGo (s : State) : State :=
  let ch := s.fld F.LIVE_RETIRE_CH
  let hit := (upto 8).findSome? fun l =>
    let l := railLoop l
    ((s.serving l).find? fun n => n.val == ch).map fun n => (l, n)
  match hit with
  | some (l, n) =>
    let ok := (s.loopSt l == 3 || s.loopSt l == 5) && !s.retired n && (s.available l).any fun m => m != n
    if h : ok ∧ n.val < 24 then (s.modChan n fun c => { c with retire := true }).modLive fun v => { v with retire := some ⟨n.val, h.2⟩ }
    else s.setFld F.LIVE_RETIRE_RESULT 2
  | none => s.setFld F.LIVE_RETIRE_RESULT 2

/-! ### Re-trimming (R446-R448) -/

def State.setRetrim (s : State) (r : Option Retrim) : State :=
  (s.modLive fun v => { v with retrim := r }).setBit F.LIVE_RETRIM_RUN r.isSome

/-- R446: GO of LIVE_RETRIM. -/
def State.retrimGo (s : State) : State :=
  let n := s.fld F.LIVE_RETRIM_LOOP
  if h : n < 12 then
    let l : Loop := ⟨n, h⟩
    let ok := s.loopSt l == 3 && ((upto 12).all fun k => (s.loop k).inject.isNone) && s.live.retrim.isNone
      && s.bit F.IRQ_CONT_STATUS_CHECKER_OK
    if ok then
      ((s.setRetrim (some { loop := l, step := .settling, before := s.reg (A.LIVE_WTRIMn n), hit := false })).setFld
        F.LIVE_RETRIM_RESULT 0).modLive fun v => { v with trimmed := none }
    else s.setFld F.LIVE_RETRIM_RESULT 4
  else s.setFld F.LIVE_RETRIM_RESULT 4

/-- R447: the re-trim must abort: the loop has left STATE 3, or a fault of severity 2 or more is recorded on it. -/
def State.retrimLost (s : State) (r : Retrim) : Bool := r.hit || s.loopSt r.loop != 3

/-- R446, R447: the loop goes back to its window ADC with the old trims, at the next master valley if it has taken
its error from the twin. -/
def State.retrimBack (s : State) (r : Retrim) (result : Nat) : State :=
  let s1 := s.setFld F.LIVE_RETRIM_RESULT result
  match r.step with
  | .settling | .ready => s1.setRetrim none
  | _ => (s1.setReg (A.LIVE_WTRIMn r.loop.val) r.before).setRetrim (some { r with step := .old })

/-- A row of the re-trim that runs, in one of its steps and not lost. -/
def State.onRetrim (s : State) (steps : List RetrimStep) (f : Retrim → State → State) : Answer :=
  match s.live.retrim with
  | some r => s.onlyIf (steps.contains r.step && !s.retrimLost r) (f r)
  | none => .next s

/-- Table 15.3, 30 us. -/
def doRetrimTwinSettled (agree : Bool) (s : State) : Answer :=
  s.onRetrim [.settling] fun r s => if agree then s.setRetrim (some { r with step := .ready }) else s.retrimBack r 2

/-- Table 15.3, up to 4.0 ms after the change. -/
def doRetrimTrimsComputed (trims : BitVec 24) (agree : Bool) (s : State) : Answer :=
  s.onRetrim [.twin] fun r s =>
    if agree then (s.setReg (A.LIVE_WTRIMn r.loop.val) (trims.setWidth 32)).setRetrim (some { r with step := .done })
    else s.retrimBack r 2

/-- R446: 5.0 ms on the twin. -/
def doRetrimTimeout (s : State) : Answer := s.onRetrim [.twin, .done] fun r s => s.retrimBack r 3

/-- R447: the abort. -/
def doRetrimAbort (s : State) : Answer :=
  match s.live.retrim with
  | some r => s.onlyIf (r.step != .old && s.retrimLost r) fun s => s.retrimBack r 5
  | none => .next s

/-- R448: COMMIT. -/
def State.commitTrims (s : State) (key : Nat) : State :=
  let n := s.fld F.LIVE_RETRIM_LOOP
  if key = 0xC5 ∧ (s.live.trimmed.map Fin.val) = some n then
    (s.setFld F.LIVE_RETRIM_RESULT 6).kprCal true [(0x4400 + 64 * n, s.reg (A.LIVE_WTRIMn n))]
  else s.setFld F.LIVE_RETRIM_RESULT 7

/-- What a master valley brings to a re-trim (Table 15.3). -/
def State.retrimValley (s : State) : State :=
  match s.live.retrim with
  | some r =>
    match r.step with
    | .ready => if s.retrimLost r then s else s.setRetrim (some { r with step := .twin })
    | .done =>
      if s.retrimLost r then s
      else (((s.setRetrim none).setFld F.LIVE_RETRIM_RESULT 1).modLive fun v => { v with trimmed := some r.loop }).raise 14 15
    | .old => s.setRetrim none
    | _ => s
  | none => s

/-- R444: a retirement on command has committed, or could not. -/
def State.retireValley (s : State) : State :=
  match s.live.retire with
  | some n =>
    let c : Chan := ⟨n.val, by omega⟩
    if (s.chan c).retire then s
    else (s.setFld F.LIVE_RETIRE_RESULT (if s.retired c then 1 else 2)).modLive fun v => { v with retire := none }
  | none => s

def doMasterValley (late : Nat) (loadLate faultnHigh : Bool) (s : State) : Answer :=
  s.onlyIf s.engine.timebase fun s => ((s.masterValley late loadLate faultnHigh).retireValley).retrimValley

/-! ### The unlock (R449) -/

/-- R449: a wrong key, or a second one that comes late. -/
def State.keyBad (s : State) : State :=
  (s.modTst fun _ => { half := false, lockout := true }).raise 15 14

/-- R449: the unlock opens; it is reported, and counted, as a device-scope fault of severity 0. -/
def State.unlock (s : State) : State :=
  ((s.modTst fun t => { t with half := false }).setBit F.TST_CTRL_UNLOCKED true).report scopeDevice 0x12 0 none 0

/-- R449: a write of TST_KEY; without ALLOW it does nothing (log 42). -/
def State.tstKey (s : State) (v : Nat) : State :=
  if !s.bit F.TST_CFG_ALLOW || s.tst.lockout then s
  else if !s.tst.half then if v = 0xC3 then s.modTst fun t => { t with half := true } else s.keyBad
  else if v = 0x3C then s.unlock else s.keyBad

def doTstUnlockTimeout (s : State) : Answer := s.onlyIf s.tst.half fun s => s.keyBad

def doTstKeyLockoutEnd (s : State) : Answer :=
  s.onlyIf s.tst.lockout fun s => s.modTst fun t => { t with lockout := false }

/-! ### The perturbation log (R450, R451) -/

/-- R450: an entry of TST_LOG; wrapping past entry 15 raises TST_LOG_FULL. -/
def State.logUse (s : State) (off : Nat) (w : Word) : State :=
  let i := s.fld F.TST_LOG_IDX_NEXT
  let s1 := ((s.setReg (A.TST_LOGi_MS i) (BitVec.ofNat 32 s.power.ms)).setReg (A.TST_LOGi_OFF i) (BitVec.ofNat 32 off)).setReg
    (A.TST_LOGi_VAL i) w
  let s2 := (s1.setFld F.TST_LOG_IDX_NEXT ((i + 1) % 16)).raise 15 1
  if i = 15 then (s2.setBit F.TST_LOG_IDX_WRAPPED true).raise 15 13 else s2

/-- R449: LOG_CLR. -/
def State.logClr (s : State) : State :=
  ((List.range 16).foldl (fun t i => ((t.setReg (A.TST_LOGi_MS i) 0).setReg (A.TST_LOGi_OFF i) 0).setReg (A.TST_LOGi_VAL i) 0)
    s).setReg A.TST_LOG_IDX 0

/-- R451: invert the parity of one word. -/
def toggle (l : List Nat) (a : Nat) : List Nat := if l.contains a then l.filter (· != a) else a :: l

/-- R359: a register that holds an RW field carries parity. -/
def carriesParity (a : Nat) : Bool :=
  match findReg a with
  | some r => r.fields.any fun f => f.acc == .rw || f.acc == .rwsh
  | none => false

/-- R450, R451: GO of TST_PAR; `w` is the word written. -/
def State.inject (s : State) (w : Word) : State :=
  let a := s.fld F.TST_PAR_ADDR / 4 * 4
  let s1 := s.logUse 0x48 w
  if s.bit F.TST_PAR_SPACE then if carriesParity a then { s1 with regBad := toggle s1.regBad a } else s1
  else { s1 with sramBad := toggle s1.sramBad a }

end Sys2Proof.Machine
end

