-- ==== Sys2Proof/Machine/Link.lean ====
section
/-!
DEFINITION. The load voltage link (chapter 05): frames, checks, responses, commands and attention.
-/

namespace Sys2Proof.Machine

def State.link (s : State) (v : Port) : Link := s.links[v]

def State.modLink (s : State) (v : Port) (f : Link → Link) : State :=
  { s with links := s.links.set v.val (f s.links[v]) v.isLt }

/-! ### Frames (R159, R160) -/

/-- The three bytes a frame's CRC covers. -/
def frameBytes (w : Word) : List Byte := [w.extractLsb' 24 8, w.extractLsb' 16 8, w.extractLsb' 8 8]

/-- R160: the frame's CRC matches. -/
def frameGood (w : Word) : Bool := crc8 (frameBytes w) == w.extractLsb' 0 8

/-- R159: the frame that a command makes, with its CRC. -/
def frameWord (cmd : Nat) (f : LinkFrame) : Word :=
  let w : Word := (BitVec.ofNat 4 cmd ++ f.sel ++ f.tag ++ f.payload) ++ (0 : Byte)
  w ||| (crc8 (frameBytes w)).setWidth 32

def frameCmd (w : Word) : Nat := getBits w 28 4
def frameSel (w : Word) : Nat := getBits w 26 2
def frameTag (w : Word) : Nat := getBits w 24 2
def framePay (w : Word) : Nat := getBits w 8 16

/-! ### Conditions -/

/-- R155: the port takes frames. -/
def State.linkOn (s : State) (v : Port) : Bool := s.bit (F.VLK_n_CFG_EN v) && s.domOn 9

/-- R164, R451: the perturbation of link responses is active on the port. -/
def State.linkBusy (s : State) (v : Port) : Bool := s.fld F.TST_VLK_DLY / 16 ^ v.val % 16 != 0

/-- R167: the slots a SEL names; none where it is reserved. -/
def selSlots (sel : Nat) : List (Fin 2) :=
  if sel = 0 then [0] else if sel = 1 then [1] else if sel = 3 then [0, 1] else []

/-- The loops a SEL names. -/
def State.selLoops (s : State) (v : Port) (sel : Nat) : List Loop := (selSlots sel).filterMap fun k => s.slotLoop v k

def State.targetOwn (s : State) (v : Port) (k : Fin 2) : Bool := s.bit ((F.VLK_n_STATUS_TARGET_OWN v).at k)

/-- R170: LNK_SETTLED of a slot. -/
def State.lnkSettled (s : State) (v : Port) (k : Fin 2) : Bool :=
  match s.slotLoop v k with
  | some l => s.targetOwn v k && s.bit (F.LP_Ln_STATUS_SETTLED l)
  | none => false

/-- R171: alert cause SETTLED in every slot whose LNK_SETTLED has risen since `was`. -/
def State.noteSettled (s was : State) : State :=
  s.forAll fun (v : Port) t => t.forAll fun (k : Fin 2) u =>
    if u.lnkSettled v k && !was.lnkSettled v k then u.alertSlot v k 0 else u

/-- R172: a notice is pending on a slot's loop. -/
def State.slotNotice (s : State) (v : Port) (k : Fin 2) : Bool :=
  match s.slotLoop v k with
  | some l => (s.loop l).notice.isSome
  | none => false

/-! ### Checks (R162, R167, R168, Table 5.5) -/

/-- The STATEs in which a command is refused. -/
def stateForbids (cmd st : Nat) : Bool :=
  match cmd with
  | 1 => st == 4 || st == 6 || st == 7
  | 2 | 4 => st == 6 || st == 7
  | 3 => st != 3
  | _ => false

/-- R168: a limit as it acts. -/
def vrefRange (x : Nat) : Nat := min (max x 0xC8) 0x7D0

/-- R168: the cause with which a target code is refused on a slot; 0 for none. -/
def State.targetRefusal (s : State) (v : Port) (k : Fin 2) (l : Loop) (pay : Nat) : Nat :=
  if 2048 ≤ pay then 3
  else if pay = 0 then
    let offEn := if k.val = 0 then s.bit (F.VLK_n_MAP_OFF_EN0 v) else s.bit (F.VLK_n_MAP_OFF_EN1 v)
    if offEn && !s.sequenced l then 0 else 5
  else if vrefRange (s.fld (F.VLK_n_LIMs_VMIN v k)) ≤ pay ∧ pay ≤ vrefRange (s.fld (F.VLK_n_LIMs_VMAX v k)) then 0
  else 3

/-- The cause with which a payload is refused; 0 for none. -/
def State.payloadRefusal (s : State) (v : Port) (k : Fin 2) (l : Loop) (cmd pay : Nat) : Nat :=
  match cmd with
  | 1 => s.targetRefusal v k l pay
  | 2 => if 1 ≤ pay ∧ pay ≤ 128 then 0 else 3
  | 4 => if pay ≤ 24 then 0 else 3
  | 5 => if pay < 8 then 0 else 3
  | 6 => if pay = 0 then 0 else 3
  | 7 => if pay < 128 then 0 else 3
  | _ => 0

/-- Steps 6 and 7 of R162 for one slot. -/
def State.slotRefusal (s : State) (v : Port) (cmd pay : Nat) (k : Fin 2) : Nat :=
  match s.slotLoop v k with
  | none => 2
  | some l =>
    match s.payloadRefusal v k l cmd pay with
    | 0 => if stateForbids cmd (s.loopSt l) then 4 else 0
    | c => c

/-- R167: the slot rules fail. -/
def State.selectBad (s : State) (v : Port) (cmd sel : Nat) : Bool :=
  sel == 2 || (sel == 3 && !(cmd == 2 || cmd == 3 || cmd == 4 || cmd == 7))
    || (selSlots sel).any fun k => (s.slotLoop v k).isNone

/-- Steps 4 to 7 of R162: the cause of a REJ, or 0. -/
def State.linkRefusal (s : State) (v : Port) (w : Word) : Nat :=
  let cmd := frameCmd w
  if cmd = 0 ∨ 8 ≤ cmd then 1
  else if s.selectBad v cmd (frameSel w) then 2
  else ((selSlots (frameSel w)).map fun k => s.slotRefusal v cmd (framePay w) k).find? (· != 0) |>.getD 0

/-! ### Commands (Table 5.5) -/

/-- R168-R170: an accepted target. -/
def State.linkTarget (s : State) (v : Port) (k : Fin 2) (l : Loop) (code : Nat) : State :=
  (s.writeVref l code (some (v, k))).setFld ((F.VLK_n_STATUS_TARGET_OWN v).at k) 1

/-- R172: an accepted notice; 0 A cancels the pending one without further effect, and with FULL_EN and FF_EN both 0 nothing but
the NOTICE bit changes. -/
def State.linkNotice (s : State) (v : Port) (l : Loop) (di : Int) : State :=
  if di = 0 then s.modLoop l fun k => { k with notice := none }
  else
    let full := s.bit (F.LP_Ln_CTRL_FULL_EN l) && decide ((s.fld (F.LP_Ln_FF_FULL_MIN_DI l) : Int) ≤ di)
    let s1 := s.modLoop l fun k => { k with notice := some ⟨v, di⟩, fullTrig := k.fullTrig || full }
    if s.bit (F.LP_Ln_CTRL_FULL_EN l) || s.bit (F.LP_Ln_CTRL_FF_EN l) then s1.stopInject l 5 else s1

/-- R175: CLEAR_ALERT on a slot. -/
def State.clearAlert (s : State) (v : Port) (k : Fin 2) (mask : Nat) : State :=
  s.setFld (F.VLK_n_ALERTs_CAUSE v k) (s.fld (F.VLK_n_ALERTs_CAUSE v k) &&& (127 - mask))

/-- A command acts on one slot. -/
def State.linkApply (s : State) (v : Port) (cmd pay : Nat) (k : Fin 2) : State :=
  match s.slotLoop v k with
  | none => s
  | some l =>
    match cmd with
    | 1 => s.linkTarget v k l pay
    | 2 => (s.setFld (F.LP_Ln_SLEW_SLEW l) pay).stopInject l 4
    | 3 => s.linkNotice v l (signed 10 (pay / 64))
    | 4 => s.setFld (F.LP_Ln_PHCFG_PH_FLOOR l) pay
    | 7 => s.clearAlert v k pay
    | _ => s

/-! ### Telemetry and status (R176, R177) -/

/-- Table 5.6, as a signed or unsigned number. -/
def State.telemetryItem (s : State) (l : Loop) (item : Nat) : Int :=
  match item with
  | 0 => s.fld (F.LP_Ln_VNOW_VREF_NOW l)
  | 1 => s.sensed l
  | 2 => openRat (s.loop l).ill
  | 3 => s.isum l
  | 4 => (s.fld (F.LP_Ln_STATUS_NACT l) + 32 * s.fld (F.LP_Ln_STATUS_CSET l) + 128 * s.fld (F.LP_Ln_STATUS_BANK l)
      + 256 * s.loopSt l + 2048 * s.fld (F.LP_Ln_STATUS_FULLING l) + 4096 * s.fld (F.LP_Ln_STATUS_WSAT l) : Nat)
  | 5 => openRat (s.vt l)
  | 6 => s.fld (F.LP_Ln_VREF_VREF l)
  | _ => s.fld (F.LP_Ln_SLEW_SLEW l)

/-- Table 5.7. -/
def State.statusItem (s : State) (v : Port) (k : Fin 2) (l : Loop) : Int :=
  (s.fld (F.VLK_n_ALERTs_CAUSE v k) + 256 * s.loopSt l + 2048 * (s.lnkSettled v k).toNat
    + 4096 * (s.refNow l != s.refTarget l).toNat + 8192 * (s.slotNotice v k).toNat
    + 16384 * s.fld (F.LP_Ln_STATUS_FULLING l) + 32768 * (s.targetOwn v k).toNat : Nat)

/-- The 16 data bits of a trailer. -/
def State.trailerData (s : State) (v : Port) (cmd sel pay : Nat) : Option (BitVec 16) :=
  match selSlots sel with
  | [k] =>
    match s.slotLoop v k with
    | some l =>
      if cmd = 5 then some (BitVec.ofInt 16 (s.telemetryItem l pay))
      else if cmd = 6 then some (BitVec.ofInt 16 (s.statusItem v k l)) else none
    | none => none
  | _ => none

/-- R166: a trailer, its CRC-8 over its two data bytes. -/
def trailerOf (d : BitVec 16) : BitVec 24 := d ++ crc8 [d.extractLsb' 8 8, d.extractLsb' 0 8]

/-! ### Responses (R166) -/

/-- R166: a response from its header's fields. -/
def responseWord (resp tag low : Nat) : BitVec 16 :=
  let h : Byte := BitVec.ofNat 8 (64 * resp + 16 * tag + low)
  h ++ crc8 [h]

/-- The low four bits of an ACK's header (Table 5.3). -/
def State.ackBits (s : State) (v : Port) (sel : Nat) : Nat :=
  let slots := selSlots sel
  let settled := !slots.isEmpty && slots.all fun k => s.lnkSettled v k
  let alert := (upto 2).any fun k => s.alertPending v k != 0
  let hurt := (s.selLoops v sel).any fun l => s.loopSt l == 5 || s.loopSt l == 6 || s.loopSt l == 7
  let notice := slots.any fun k => s.slotNotice v k
  8 * settled.toNat + 4 * alert.toNat + 2 * hurt.toNat + notice.toNat

/-- Send a response. -/
def State.respond (s : State) (v : Port) (resp tag low : Nat) (trailer : Option (BitVec 24)) : State :=
  let w := responseWord resp tag low
  (s.setFld (F.VLK_n_LRESP_RESP v) w.toNat).emit (.link v w trailer)

/-- Alert cause LINK_ERR in both slots, and its crown cause (Table 5.9, G4). -/
def State.linkErr (s : State) (v : Port) : State := ((s.alertSlot v 0 6).alertSlot v 1 6).raise 4 (8 + v.val)

def State.linkAck (s : State) (v : Port) (w : Word) (trailer : Option (BitVec 24)) : State :=
  s.respond v 1 (frameTag w) (s.ackBits v (frameSel w)) trailer

def State.linkRej (s : State) (v : Port) (w : Word) (cause : Nat) : State :=
  (s.satInc (F.VLK_n_ERR_REJ_CNT v)).respond v 0 (frameTag w) cause none

def State.linkNak (s : State) (v : Port) (w : Word) (cause : Nat) : State :=
  (s.respond v 2 (frameTag w) cause none).linkErr v

/-! ### Receipt (R161-R164) -/

/-- R163: the frame is a duplicate. -/
def State.linkDuplicate (s : State) (v : Port) (w : Word) : Bool :=
  (s.link v).acked == some w && frameCmd w != 5 && frameCmd w != 6

/-- Steps 4 to 8 of R162. -/
def State.linkExecute (s : State) (v : Port) (w : Word) : State :=
  match s.linkRefusal v w with
  | 0 =>
    let cmd := frameCmd w
    let data := s.trailerData v cmd (frameSel w) (framePay w)
    let s1 := (selSlots (frameSel w)).foldl (fun t k => t.linkApply v cmd (framePay w) k) s
    (s1.modLink v fun k => { k with acked := some w }).linkAck v w (data.map trailerOf)
  | c => s.linkRej v w c

/-- A frame with a good CRC: FRAME, and what R163 and R164 remember of it. -/
def State.linkNote (s : State) (v : Port) (w : Word) : State :=
  (s.setReg (A.VLK_n_LAST v) w).modLink v fun k =>
    { k with acked := if k.acked = some w then k.acked else none, seen := if k.seen.contains w then k.seen else w :: k.seen }

/-- R164: the port is busy for a frame: its perturbation is active, and no identical frame was first received at least
the set delay before. -/
def State.linkBusyFor (s : State) (v : Port) (w : Word) (waited : Bool) : Bool :=
  s.linkBusy v && !(waited && (s.link v).seen.contains w)

/-- R175: a transaction ends an attention pulse. -/
def State.endPulse (s : State) (v : Port) : State := s.setFld (F.VLK_n_STATUS_ATTN v) 0

/-- R162: the answer to a frame, at its receipt. -/
def State.linkReceive (s : State) (v : Port) (w : Word) (waited : Bool) : State :=
  let s0 := s.endPulse v
  if !frameGood w then (s0.satInc (F.VLK_n_ERR_CRC_CNT v)).linkNak v w 1
  else
    let s1 := s0.linkNote v w
    if s.linkBusyFor v w waited then s1.linkNak v w 2
    else if s.linkDuplicate v w then (s1.satInc (F.VLK_n_ERR_DUP_CNT v)).linkAck v w none
    else s1.linkExecute v w

/-- A frame of a command reaches a port that takes frames. -/
def State.linkFrame (s : State) (v : Port) (cmd : Nat) (f : LinkFrame) : Answer :=
  s.onlyIf (s.linkOn v) fun s => s.linkReceive v (frameWord cmd f) f.waited

def doSetTarget (v : Port) (f : LinkFrame) (s : State) : Answer := s.linkFrame v 1 f
def doSetSlew (v : Port) (f : LinkFrame) (s : State) : Answer := s.linkFrame v 2 f
def doStepNotice (v : Port) (f : LinkFrame) (s : State) : Answer := s.linkFrame v 3 f
def doSetState (v : Port) (f : LinkFrame) (s : State) : Answer := s.linkFrame v 4 f
def doGetTelemetry (v : Port) (f : LinkFrame) (s : State) : Answer := s.linkFrame v 5 f
def doGetStatus (v : Port) (f : LinkFrame) (s : State) : Answer := s.linkFrame v 6 f
def doClearAlert (v : Port) (f : LinkFrame) (s : State) : Answer := s.linkFrame v 7 f

/-- Steps 1, 2 and 4 of R162: the frames of this row. -/
def State.frameRefused (s : State) (v : Port) (w : Word) (waited : Bool) : Bool :=
  !frameGood w || s.linkBusyFor v w waited || frameCmd w == 0 || decide (8 ≤ frameCmd w)

def doLinkFrameRefused (v : Port) (w : Word) (waited : Bool) (s : State) : Answer :=
  s.onlyIf (s.linkOn v && s.frameRefused v w waited) fun s => s.linkReceive v w waited

/-- R158: before E32 there was no frame; from E32 on its row has acted already. -/
def doLinkAbort (v : Port) (received : Bool) (s : State) : Answer :=
  s.onlyIf (s.linkOn v) fun s =>
    ((if received then s else s.endPulse v).satInc (F.VLK_n_ERR_ABORT_CNT v)).linkErr v

/-! ### Attention (R174, R175) -/

/-- An enabled cause is pending on the port. -/
def State.attention (s : State) (v : Port) : Bool := (upto 2).any fun k => s.alertPending v k != 0

/-- R175: a pulse starts. -/
def doAttentionPulse (v : Port) (again : Bool) (s : State) : Answer :=
  s.onlyIf (s.linkOn v && s.attention v && !s.bit (F.VLK_n_STATUS_ATTN v)
      && (if again then s.fld (F.VLK_n_CFG_ATTN_REP v) != 0 else (s.link v).owed))
    fun s => (s.setFld (F.VLK_n_STATUS_ATTN v) 1).modLink v fun k => { k with owed := false }

def doAttentionPulseEnd (v : Port) (s : State) : Answer := .next (s.endPulse v)

/-! ### Register writes (R155, R170, R178) -/

/-- R170: a write of VLK_n_MAP that takes effect. -/
def State.mapWritten (s : State) (v : Port) : State := s.setFld (F.VLK_n_STATUS_TARGET_OWN v) 0

/-- R178: CNT_CLR. -/
def State.clearErr (s : State) (v : Port) : State := s.setReg (A.VLK_n_ERR v) 0

end Sys2Proof.Machine
end

