-- ==== Sys2Proof/Machine/Reads.lean ====
section
/-!
DEFINITION. What a read of a register returns (R10-R13): the stored fields, and the live fields that other state
gives. The fields and their meanings are those of the register tables of chapters 01 to 15.
-/

namespace Sys2Proof.Machine

/-- A word with one field given. -/
def withFld (w : Word) (f : Fld) (v : Nat) : Word := putBits w f.lo f.width v

/-- A one-bit field given. -/
def withBit (w : Word) (f : Fld) (b : Bool) : Word := withFld w f b.toNat

/-- A signed field given, in two's complement (R17). -/
def withInt (w : Word) (f : Fld) (v : Int) : Word := withFld w f (unsigned f.width v)

/-! ### Live fields of each block -/

/-- R116: PE_CHn_STATUS. -/
def State.liveChan (s : State) (n : Chan) (w : Word) : Word :=
  let w1 := withBit (withFld w (F.PE_CHn_STATUS_PIN n) (s.pin n)) (F.PE_CHn_STATUS_RUN n) (s.chanRun n)
  let w2 := withBit (withBit w1 (F.PE_CHn_STATUS_SAFE n) (s.chanSafe n)) (F.PE_CHn_STATUS_OV_LOW n) (s.ovLow n)
  withFld w2 (F.PE_CHn_STATUS_SLOT n) ((s.chan n).slot.getD 31)

/-- R178: VLK_n_STATUS. A command of the model is a whole transaction, so between commands the port is idle. -/
def State.liveLink (s : State) (v : Port) (w : Word) : Word :=
  let two (f : Fin 2 → Bool) : Nat := (f 0).toNat + 2 * (f 1).toNat
  let w1 := withBit w (F.VLK_n_STATUS_MAP_CONFLICT v) (s.slotConflict v 0 || s.slotConflict v 1)
  let w2 := withBit w1 (F.VLK_n_STATUS_IDLE v) true
  let w3 := withFld w2 (F.VLK_n_STATUS_LNK_SETTLED v) (two fun k => s.lnkSettled v k)
  withFld w3 (F.VLK_n_STATUS_NOTICE v) (two fun k => s.slotNotice v k)

/-- Table 9.6: SEQ_STATUS.WAIT: 1 delays, 2 power-good, 3 SEQ_SYNC, 4 reading off. -/
def State.seqWait (s : State) : Nat :=
  if s.seq.ready then 3
  else if s.dir = 1 ∧ !s.seq.complete then if (s.railsOf s.cur).all fun n => s.seq.rails[n].onDone then 2 else 1
  else if s.dir = 2 then if (s.railsOf s.cur).all fun n => s.seq.rails[n].offDone then 4 else 1
  else 0

/-- R451: a mailbox channel that reads FULL for the perturbation. -/
def State.mbxForced (s : State) (n : Nat) : Bool :=
  (upto 4).any fun k => s.bit (F.TST_MBXk_EN k) && s.fld (F.TST_MBXk_CH k) == n

/-- FULL as everyone reads it (R333, R451). -/
def State.mbxReadsFull (s : State) (n : Nat) : Bool := s.mbxFull n || s.mbxForced n

/-- R327: the configuration of a tenancy channel reads as fixed. -/
def State.liveMbxCfg (s : State) (n : Nat) (w : Word) : Word :=
  let c := s.mbxCfg n
  withFld (withFld (withFld w (F.MBX_CHn_CFG_DIR n) c.1) (F.MBX_CHn_CFG_RCV n) c.2.1) (F.MBX_CHn_CFG_SND n) c.2.2

/-- Table 11.4: IRQ_CONT_STATUS. -/
def State.liveCont (s : State) (w : Word) : Word :=
  let bits := (s.contBits.zipIdx.map fun x => x.1.toNat * 2 ^ x.2).sum
  withFld w ⟨A.IRQ_CONT_STATUS, 0, 8⟩ (bits + 128 * s.guarantee.toNat)

/-- IRQ_STATUS. -/
def State.liveIrq (s : State) (w : Word) : Word :=
  let by_ := (s.view 0 != 0).toNat + 2 * (s.view 1 != 0).toNat + 4 * (s.view 2 != 0).toNat
  withBit (withFld (withBit w F.IRQ_STATUS_INT s.intLow) F.IRQ_STATUS_BY by_) F.IRQ_STATUS_SEEDLING_HOLD s.seedling

/-- R405: a record has changed and is unwritten. -/
def State.recDirty (s : State) : Bool := s.recorder.statsDirty || s.recorder.extremesDirty

/-- R410: REC_STATUS. -/
def State.liveRec (s : State) (w : Word) : Word :=
  let used := ((List.range 64).filter fun i => s.logValid true i).length
  let w1 := withFld (withFld w F.REC_STATUS_QLEN s.recorder.queue.length) F.REC_STATUS_FIRST_USED used
  withFld (withBit w1 F.REC_STATUS_DIRTY s.recDirty) F.REC_STATUS_LAST_SLOT (s.lastTop.getD 0)

/-- Table 13.11: REC_QUEUE, pending entries in commit order. -/
def State.queueWord (s : State) (j : Nat) : Word :=
  match (commitOrder s.recorder.queue)[j / 8]? with
  | some r => (r.words 0).getD (j % 8) 0
  | none => 0

/-- R435: CORE_Ck_STATUS. -/
def State.liveCore (s : State) (k : Core) (w : Word) : Word :=
  withBit (withBit w (F.CORE_Ck_STATUS_APP k) (s.psrBit k psrApp)) (F.CORE_Ck_STATUS_EXL k) (s.psrBit k psrExl)

/-- R46-R49, R80: what the start record and the house supply give. -/
def State.liveReason (s : State) : Word :=
  BitVec.ofNat 32 (s.boot.record.reason0 + 256 * s.boot.record.reason1 + 65536 * s.boot.record.reason2)

/-- R184: OL_EFF in 0.25 A; what it shows of a limit above its 10 bits is open (log 44). -/
def olEffField (v : Nat) : Nat := if v < 1024 then v else (Config.outOfField 10 v).toNat

/-- An index of a register window as a core, port, loop, or channel. -/
def asIdx (n i : Nat) (h : 0 < n) : Fin n := ⟨i % n, Nat.mod_lt _ h⟩

/-- A register's stored word with its live fields given. `who` reads it: a port that is being read is busy. -/
def State.liveWord (s : State) (who : Writer) (r : RegAt) (w : Word) : Word :=
  match r.cls.name with
  | .START_STATUS => withFld w F.START_STATUS_FAILS s.boot.record.fails
  | .START_REASON => s.liveReason
  | .PE_CHn_STATUS => s.liveChan (asIdx 32 r.i (by decide)) w
  | .LP_Ln_VNOW => withInt w (F.LP_Ln_VNOW_VT r.i) (openRat (s.vt (asIdx 12 r.i (by decide))))
  | .LP_Ln_IRAIL =>
    let l : Loop := asIdx 12 r.i (by decide)
    withInt (withInt w (F.LP_Ln_IRAIL_I_LL r.i) (openRat (s.loop l).ill)) (F.LP_Ln_IRAIL_I_PH r.i) (openRat (s.iph l))
  | .VLK_n_STATUS => s.liveLink (asIdx 4 r.i (by decide)) w
  | .PROT_Ln_OLCAP => withFld w (F.PROT_Ln_OLCAP_OL_EFF r.i) (olEffField (s.olEff (asIdx 12 r.i (by decide)) / 4))
  | .PD_PMEM_STATUS => withFld w F.PD_PMEM_STATUS_USED s.pmemUsed
  | .SEQ_STATUS => withFld w F.SEQ_STATUS_WAIT s.seqWait
  | .HP_TWk_STATUS => withBit w (F.HP_TWk_STATUS_BUSY r.i) (who == .host (asIdx 3 r.i (by decide)))
  | .HP_TWk_NOTIFY => withBit w (F.HP_TWk_NOTIFY_PENDING r.i) (s.hosts[asIdx 3 r.i (by decide)].notify.isSome)
  | .MBX_CHn_ACK => withBit w (F.MBX_CHn_ACK_FULL r.i) (s.mbxReadsFull r.i)
  | .MBX_CHn_CFG => s.liveMbxCfg r.i w
  | .MBX_FULLj => BitVec.ofNat 32 ((List.range 32).map fun b => (s.mbxReadsFull (32 * r.i + b)).toNat * 2 ^ b).sum
  | .IRQ_CROWN => BitVec.ofNat 32 s.crown
  | .IRQ_VIEWk => BitVec.ofNat 32 (s.view r.i)
  | .IRQ_STATUS => s.liveIrq w
  | .IRQ_CAUSEg => BitVec.ofNat 32 (s.causeWord r.i)
  | .IRQ_CONT_STATUS => s.liveCont w
  | .TCV_STATUS =>
    let w1 := withBit w F.TCV_STATUS_BUSY (s.tcv.run.any fun k => k.begun)
    withBit (withFld w1 F.TCV_STATUS_CUR ((s.tcv.run.map fun k => k.input.val).getD 0)) F.TCV_STATUS_URG_PEND s.urgPend
  | .KPR_STATUS =>
    withBit (withBit (withBit (withBit w F.KPR_STATUS_BUSY s.kpr.running.isSome) F.KPR_STATUS_CMD_PEND s.cmdPend)
      F.KPR_STATUS_SEALED s.sealed) F.KPR_STATUS_HOLDUP_USED s.power.holdup
  | .KPR_WEARq =>
    let q : Fin 5 := asIdx 5 r.i (by decide)
    BitVec.ofNat 32 (s.spreadValue (.wear q) + s.kpr.unworn[q])
  | .KPR_OPMIN => BitVec.ofNat 32 s.power.opmin
  | .KPR_PCYC => BitVec.ofNat 32 s.pcyc
  | .REC_STATUS => s.liveRec w
  | .REC_SEQ => BitVec.ofNat 32 s.recorder.seq
  | .REC_LOSTs => s.recorder.stats.get statsDefault (8 + 4 * r.i)
  | .REC_SNAP => s.recorder.snap.get statsDefault (4 * r.i)
  | .REC_EXTR => s.recorder.extremes.get extremesDefault (4 * r.i)
  | .REC_FIRST => s.kprWord (0x8000 + 4 * r.i)
  | .REC_LAST => s.kprWord (0x8800 + 4 * r.i)
  | .REC_QUEUE => s.queueWord r.i
  | .CORE_Ck_STATUS => s.liveCore (asIdx 4 r.i (by decide)) w
  | .CORE_Ck_EVT_PEND => BitVec.ofNat 32 (s.evtPend (asIdx 4 r.i (by decide)))
  | _ => w

/-! ### Reads -/

/-- What a read of an address answers: 0 where no register is or where its domain is off, with the return code of
Table 10.6. -/
structure RegRead where
  code : Nat
  word : Word
  state : State

/-- R10, R411: read a register. KPR_RDATA moves its address on. -/
def State.readReg (s : State) (who : Writer) (a : Nat) : RegRead :=
  match findReg a with
  | none => ⟨1, 0, s⟩
  | some r =>
    if !s.domOn r.dom then ⟨6, 0, s⟩
    else if r.cls.name = .KPR_RDATA then let (w, t) := s.readGroup; ⟨0, w, t⟩
    else ⟨0, s.liveWord who r (s.reg a), s⟩

end Sys2Proof.Machine
end

