-- ==== Sys2Proof/Machine/Mailbox.lean ====
section
/-!
DEFINITION. The mailboxes and tenancy (R322-R334): parties, checks, answers, and C0's answer to a tenancy request.
-/

namespace Sys2Proof.Machine

/-! ### Parties (R326, R327) -/

/-- The receiver of a channel, if it has parties. Core codes 4-6, which name no core, act as off (log 45). -/
def State.mbxReceiver (s : State) (n : Nat) : Option Writer :=
  let (dir, rcv, _) := s.mbxCfg n
  if dir = 0 then if h : rcv < 4 then some (.core ⟨rcv, h⟩) else none
  else if h : rcv < 3 then some (.host ⟨rcv, h⟩) else none

/-- Is the writer a sender of the channel? -/
def State.mbxSender (s : State) (who : Writer) (n : Nat) : Bool :=
  match s.mbxReceiver n with
  | none => false
  | some r =>
    match who with
    | .core _ => who != r
    | .host h => (s.mbxCfg n).1 == 0 && (s.mbxCfg n).2.2 / 2 ^ h.val % 2 == 1

/-- R326: MB0-MB63 are secure. -/
def mbxSecure (n : Nat) : Bool := decide (n < 64)

/-- R326: MB0-MB3 and MB64-MB67 are privileged. -/
def mbxPriv (n : Nat) : Bool := decide (n < 4) || (decide (64 ≤ n) && decide (n < 68))

/-- R330: a host's port is not secure. -/
def State.notSecure (s : State) (who : Writer) : Bool :=
  match who with
  | .core _ => false
  | .host h => !s.bit (F.HP_TWk_CFG_SECURE h.val)

/-- R328, check 3: the domain of a core that receives is off. -/
def State.mbxDomOff (s : State) (n : Nat) : Bool :=
  match s.mbxReceiver n with
  | some (.core k) => !s.domOn (coreDom k)
  | _ => false

/-- The place of a tenancy channel (R324): MB0-MB2, then MB64-MB66. -/
def tenancyPlace (n : Nat) : Option (Fin 6) :=
  if h : n < 3 then some ⟨n, by omega⟩ else if h : 64 ≤ n ∧ n < 67 then some ⟨n - 61, by omega⟩ else none

/-- The channel of a place. -/
def tenancyChan (i : Fin 6) : Nat := if i.val < 3 then i.val else i.val + 61

/-! ### Writes (R328-R332) -/

/-- R328: the return code of a write of DATA; 0 accepts it. -/
def State.mbxCheck (s : State) (who : Writer) (n : Nat) : Nat :=
  if !s.mbxSender who n then 8
  else if mbxSecure n && s.notSecure who then 7
  else if !mbxPriv n && s.mbxDomOff n then 0xA
  else if s.mbxReadsFull n then 9 else 0

/-- R328, R329: an accepted word. -/
def State.mbxPut (s : State) (n : Nat) (w : Word) : State :=
  let s1 := ((s.setReg (A.MBX_CHn_DATA n) w).setFld (F.MBX_CHn_ACK_FULL n) 1).setFld (F.MBX_CHn_ACK_VALID n) 0
  let s2 := if mbxPriv n && s.mbxDomOff n then s1.raise 10 13 else s1
  match tenancyPlace n with
  | some i => { s2 with tenancy := s2.tenancy ++ [i] }
  | none => s2

/-- R328, R332: a write of MBX_CHn_DATA, and its return code. -/
def State.mbxSend (s : State) (who : Writer) (n : Nat) (w : Word) : State × Nat :=
  match s.mbxCheck who n with
  | 0 => (s.mbxPut n w, 0)
  | 0xA => (s.raise 10 12, 0xA)
  | c => (s, c)

/-- R331: an answer: CODE, VALID, and FULL clears. -/
def State.mbxAnswer (s : State) (n code : Nat) : State :=
  let s1 := ((s.setFld (F.MBX_CHn_ACK_CODE n) code).setFld (F.MBX_CHn_ACK_VALID n) 1).setFld (F.MBX_CHn_ACK_FULL n) 0
  match tenancyPlace n with
  | some i => { s1 with tenancy := s1.tenancy.filter (· != i) }
  | none => s1

/-- R330, R331: a write of MBX_CHn_ACK, and its return code. -/
def State.mbxAck (s : State) (who : Writer) (n code : Nat) : State × Nat :=
  if mbxSecure n && s.notSecure who then (s, 7)
  else if s.mbxReceiver n != some who then (s, 8)
  else if s.mbxFull n then (s.mbxAnswer n code, 0) else (s, 0)

/-! ### Tenancy (R322-R325) -/

/-- The owner of a resource: a host, or none (3). -/
def State.owner (s : State) (r : Nat) : Nat := s.fld (F.HP_OWNERr_OWNER r)

/-- A resource's owner changes (R325, G9). -/
def State.setOwner (s : State) (r o : Nat) : State :=
  if s.owner r = o then s else (s.setFld (F.HP_OWNERr_OWNER r) o).raise 9 r

/-- Table 10.8: the code, and the owner after the request; `h` asks. -/
def State.tenancyAnswer (s : State) (h : HostId) (w : Word) : Nat × Nat :=
  let op := getBits w 28 4
  let r := getBits w 0 4
  let to_ := getBits w 4 2
  let own := s.owner r
  if r = 15 ∨ op = 0 ∨ 4 ≤ op ∨ to_ = 3 ∨ getBits w 6 22 ≠ 0 then (0x13, own)
  else if op = 1 then
    if own = 3 then if s.bit (F.HP_OWNERr_CLAIM_EN r) then (0, h.val) else (0x12, own)
    else if own = h.val then (0, own) else (0x10, own)
  else if own ≠ h.val then (0x11, own)
  else if op = 2 then (0, 3) else (0, to_)

/-- R324, R325: C0 takes a channel: the owner changes at the instant of its ACK. -/
def State.tenancy_ (s : State) (i : Fin 6) : State :=
  let n := tenancyChan i
  let h : HostId := ⟨i.val % 3, by omega⟩
  let w := s.reg (A.MBX_CHn_DATA n)
  let (code, o) := s.tenancyAnswer h w
  let r := getBits w 0 4
  let s1 := if code = 0 then s.setOwner r o else s
  (if code = 0 then s1 else s1.raise 9 15).mbxAnswer n code

/-- The operation that the word at the head of the tenancy order asks for; one that no row names comes under CLAIM. -/
def tenancyOp (w : Word) : Nat := let op := getBits w 28 4; if op = 2 ∨ op = 3 then op else 1

/-- R324: a row of C0's answers: the channel is the first in order and its word asks for the row's operation. -/
def State.tenancyRow (s : State) (h : HostId) (secure : Bool) (op : Nat) : Answer :=
  let i : Fin 6 := if secure then ⟨h.val, by omega⟩ else ⟨h.val + 3, by omega⟩
  s.onlyIf (s.coreActs 0 && !s.seedling && !s.houseOp && s.tenancy.head? == some i
      && tenancyOp (s.reg (A.MBX_CHn_DATA (tenancyChan i))) == op)
    fun s => s.tenancy_ i

def doClaim (h : HostId) (secure : Bool) (s : State) : Answer := s.tenancyRow h secure 1
def doRelease (h : HostId) (secure : Bool) (s : State) : Answer := s.tenancyRow h secure 2
def doGive (h : HostId) (secure : Bool) (s : State) : Answer := s.tenancyRow h secure 3

end Sys2Proof.Machine
end

