-- ==== Sys2Proof/Machine/RegWrite.lean ====
section
/-!
DEFINITION. A write of a register (R9-R15, Table 0.6): who may make it, which bits it changes, and what the write of
each register does. The codes are those of Table 10.6.
-/

namespace Sys2Proof.Machine

/-- A write as it arrives: the bits under `mask` take those of `value` (R320). -/
structure RegWr where
  who : Writer
  mask : Word
  value : Word
  deriving DecidableEq, Repr

/-- The bits written as 1. -/
def RegWr.ones (x : RegWr) : Word := x.value &&& x.mask

/-- Does the write reach a field: any bit of an RW or WO field under the mask, a 1 in a W1C or W1S field? -/
def RegWr.touches (x : RegWr) (f : FieldD) : Bool :=
  match f.acc with
  | .ro => false
  | .rw | .rwsh | .wo => x.mask &&& bitsMask f.lo f.width != 0
  | .w1c | .w1s => x.ones &&& bitsMask f.lo f.width != 0

/-- Bit i is written as 1. -/
def RegWr.bit (x : RegWr) (i : Nat) : Bool := x.ones.getLsbD i

/-- The write covers bits of a field. -/
def RegWr.covers (x : RegWr) (lo width : Nat) : Bool := x.mask &&& bitsMask lo width != 0

/-! ### Who may write (R13, R322, R343, R435, R436, R439, R449, R453) -/

/-- The loop that a LIVE_RETIRE or LIVE_RETRIM write concerns (R444, R446). -/
def State.liveLoopOf (s : State) (r : RegAt) (x : RegWr) : Option Loop :=
  let w := (s.reg (r.cls.base) &&& ~~~x.mask) ||| x.ones
  if r.cls.name = .LIVE_RETIRE then s.chanLoop (asIdx 32 (getBits w 0 5) (by decide))
  else if h : getBits w 0 4 < 12 then some ⟨getBits w 0 4, h⟩ else none

/-- Does host h own the resource that the register's OWN fields belong to? -/
def State.ownsReg (s : State) (h : HostId) (r : RegAt) (x : RegWr) : Bool :=
  let is (res : Nat) : Bool := s.owner res == h.val
  match r.cls.own with
  | .seq | .live | .handover => is 12
  | .loop => is r.i
  | .chLoop => match s.homeLoop (asIdx 32 r.i (by decide)) with | some l => is l.val | none => false
  | .slotLoop =>
    match s.slotLoop (asIdx 4 r.i (by decide)) (asIdx 2 r.j (by decide)) with | some l => is l.val | none => false
  | .port => is (8 + r.i)
  | .anyPort => is 8 || is 9 || is 10 || is 11
  | .userArea => is 14
  | .recorder => is 13
  | .liveLoop => match s.liveLoopOf r x with | some l => is l.val | none => false
  | .test => is 12 && s.bit (F.HP_TWk_CFG_SECURE h.val)
  | _ => false

/-- A field with an OWN condition. -/
def FieldD.isOwn (f : FieldD) : Bool := f.cond == .own || f.cond == .ownlck

/-- R13: what a host's write meets before its LCK conditions; 0 passes. -/
def State.hostCheck (s : State) (h : HostId) (r : RegAt) (x : RegWr) : Nat :=
  let touched := r.fields.filter x.touches
  let plain := touched.any fun f => !f.isOwn && f.acc != .wo
  let owned := touched.any FieldD.isOwn
  match r.cls.own with
  | .none | .coreWin | .anyCore | .sandbox => 3
  | .irqEn => if r.i = h.val then 0 else 3
  | .irqCause | .keeper | .mailbox => 0
  | .test => if s.ownsReg h r x then 0 else 3
  | .anyPort | .live | .liveLoop | .handover => if plain || (owned && !s.ownsReg h r x) then 3 else 0
  | _ => if owned && !s.ownsReg h r x then 3 else 0

/-- Table 14.11, R436: a core's write that is discarded. -/
def coreBarred (k : Core) (r : RegAt) : Bool :=
  match r.cls.own with
  | .coreWin => k.val != r.i && k != 0
  | .sandbox => k != 3 && k != 0
  | _ => false

/-- R439, R449: an LCK field is written while its block's unlock is closed. -/
def State.lockBars (s : State) (r : RegAt) (x : RegWr) : Bool :=
  (r.fields.any fun f => (f.cond == .lck || f.cond == .ownlck) && x.touches f)
    && !(if r.cls.own = .test then s.bit F.TST_CTRL_UNLOCKED else s.stageOpen)

/-- Where a host may write in seedling mode (Table 2.6). -/
def seedlingWritable (a : Nat) : Bool := decide (a < 0x10000) || (decide (0xB0000 ≤ a) && decide (a < 0xC0000))

/-- The code of a write of a register that exists; 0 passes. Where several refusals apply, the first of this order is
the code (log 46). -/
def State.writeCheck (s : State) (r : RegAt) (a : Nat) (x : RegWr) : Nat :=
  if !s.domOn r.dom then 6
  else
    match x.who with
    | .core k => if coreBarred k r then 3 else if s.lockBars r x then 4 else 0
    | .host h =>
      if s.limited then if seedlingWritable a then 0 else 5
      else
        match s.hostCheck h r x with
        | 0 => if s.lockBars r x then 4 else 0
        | c => c

/-! ### The bits that change -/

/-- Bits of a register that only its own effect changes, or that the state holds against the write: MEMBERS of a loop
that is on (R120), a map in use (R155), an active bank and a reserved GSHIFT bit (R132, R151), VREF, TARGET and the
rail states, UA_PROT once frozen (R392), the sandbox in applet mode (R436), and the tenancy channels (R327). -/
def State.heldBits (s : State) (r : RegAt) : Word :=
  let all (b : Bool) : Word := if b then BitVec.allOnes 32 else 0
  match r.cls.name with
  | .CLK_CFG => bitsMask 0 1
  | .LP_Ln_MEMBERS => all (s.loopOn (asIdx 12 r.i (by decide)))
  | .LP_Ln_VREF | .IRQ_CAUSEg => all true
  | .LP_Ln_COEF =>
    if r.j / 32 == s.fld (F.LP_Ln_STATUS_BANK r.i) || s.bit (F.LP_Ln_CTRL_SWAP r.i) then all true
    else if r.j % 8 = 5 then ~~~(bitsMask 0 4) else 0
  | .LP_CHn_CARD => all true
  | .VLK_n_MAP => all (s.bit (F.VLK_n_CFG_EN r.i))
  | .SEQ_Sn_CFG | .SEQ_CTRL => bitsMask 0 6
  | .HP_OWNERr => bitsMask 0 2
  | .MBX_CHn_CFG => all (tenancyPlace r.i).isSome
  | .KPR_PROT => if s.bit F.KPR_PROT_PROT_LOCK then bitsMask 0 2 else 0
  | .CORE_SBX_CFG => all (s.inApp 3)
  | _ => 0

/-- Table 0.6: the word after the write, but for W1S bits, which the effect of the write sets. -/
def State.wordAfter (s : State) (r : RegAt) (old : Word) (x : RegWr) : Word :=
  let held := s.heldBits r
  r.fields.foldl (fun w f =>
    let m := bitsMask f.lo f.width &&& ~~~held
    match f.acc with
    | .rw | .rwsh => (w &&& ~~~(m &&& x.mask)) ||| (x.ones &&& m)
    | .w1c => w &&& ~~~(x.ones &&& m)
    | _ => w) old

/-- A register with SH fields (R103). -/
def RegAt.shadowed (r : RegAt) : Bool := r.fields.any fun f => f.acc == .rwsh

/-- R359: a write gives a register good parity. -/
def State.mendReg (s : State) (a : Nat) : State := { s with regBad := s.regBad.filter (· != a) }

/-- Store the bits that change. -/
def State.storeWord (s : State) (r : RegAt) (a : Nat) (x : RegWr) : State :=
  let w := s.wordAfter r (s.reg a) x
  if r.shadowed then (s.mendReg a).writeShadow a w else (s.mendReg a).setReg a w

/-! ### Effects by block -/

/-- LF_SRC: a change, or a 1 after the crystal has failed, selects anew (R33). -/
def State.lfWritten (s : State) (x : RegWr) : State :=
  let v := x.bit 0
  if x.covers 0 1 && (v != s.bit F.CLK_CFG_LF_SRC || (v && s.power.xtal == .failed)) then s.writeLfSrc v else s

/-- Effects in the system and start block. -/
def State.sysEffect (s : State) (n : RegName) (old : Word) (x : RegWr) : State :=
  match n with
  | .CLK_CFG =>
    let s1 := s.lfWritten x
    let s2 := if s1.bit F.CLK_CFG_SYNC_EN != old.getLsbD 5 then s1.chooseRef else s1
    if s2.pllWanted then s2 else if s2.bit F.CLK_STATUS_PLL_LOCK then s2.pllOff else s2
  | .DORMANT_CFG => if x.bit 16 then s.enterDormant else s
  | .START_HEALTH => match x.who with | .core k => if x.bit k.val then s.healthy k else s | .host _ => s
  | .START_CTRL => s.startCtrl (getBits x.ones 0 8) (x.bit 8) (x.bit 9) (x.bit 10)
  | .FLASH_XFER_CTRL => if x.bit 22 then s.xferGo else s
  | _ => s

/-- R112: a GO recalibrates on the replica line of a domain that is on; the code it gives is a free value (log 1). -/
def State.goCal (s : State) (h : Half) : State :=
  if !s.domOn (halfDom h) then s else
  let (c, s1) := s.fresh 10
  (s1.setBit (halfGo h) true).recalibrate h c

/-- Effects in the engine block. -/
def State.engineEffect (s : State) (n : RegName) (old : Word) (x : RegWr) : State :=
  match n with
  | .PE_CTRL =>
    let en := s.bit F.PE_CTRL_ENGINE_EN
    let s1 := if old.getLsbD 0 && !en then s.engineOff else if !old.getLsbD 0 && en then s.allNeedLoad else s
    let s2 := if x.bit 1 then s1.setBit F.PE_CTRL_LOAD_ALL true else s1
    if x.bit 2 then s2.setReg A.PE_TRG_DROP 0 else s2
  | .PE_CAL_CTRL =>
    let s1 := if x.bit 0 then s.goCal .west else s
    if x.bit 1 then s1.goCal .east else s1
  | .PE_CNT_CLR => s.clearMinp x.ones
  | .PE_STATUS => if old.getLsbD 7 && !s.bit F.PE_STATUS_SAFE_PLL then s.allPllLoad else s
  | .PE_SYNC_CFG => s.settleSync
  | .PE_FAULT_MASK => s.maskWritten
  | _ => s

/-- Writes of LP_Ln_CTRL: SWAP, FB_FORCE and FB_RET (R133, R146, R149). -/
def State.loopCtrl (s : State) (l : Loop) (x : RegWr) : State :=
  let s1 := if x.bit 8 then s.setBit (F.LP_Ln_CTRL_SWAP l) true else s
  let s2 := if x.bit 9 then s1.fbForce l else s1
  if x.bit 10 && s2.loopSt l == 5 then s2.setBit (F.LP_Ln_CTRL_FB_RET l) true else s2

/-- Writes of LP_Ln_BLK_CTRL (R142, R145, G3). -/
def State.blkCtrl (s : State) (l : Loop) (x : RegWr) : State :=
  let s1 := if x.covers 8 4 then s.raise 3 l.val else s
  if x.bit 0 then s1.blkGo l else s1

/-- Effects in the loop block; a register reserved on L8-L11 has none there (R150). -/
def State.loopEffect (s : State) (r : RegAt) (x : RegWr) : State :=
  let l : Loop := asIdx 12 r.i (by decide)
  if r.fields.isEmpty then s else
  match r.cls.name with
  | .LP_Ln_CTRL => s.loopCtrl l x
  | .LP_Ln_VREF =>
    s.writeVref l (getBits ((s.reg (A.LP_Ln_VREF l) &&& ~~~x.mask) ||| x.ones) 0 11) none
  | .LP_Ln_SLEW => if x.covers 0 8 then s.stopInject l 4 else s
  | .LP_Ln_BLK_CTRL => s.blkCtrl l x
  | .LP_Ln_COEF =>
    if s.heldBits r == BitVec.allOnes 32 then s.setBit (F.LP_Ln_STATUS_COEF_DISC l) true else s
  | .LP_CHn_CARD => if x.bit 16 then s.retiredClear (asIdx 32 r.i (by decide)) else s
  | _ => s

/-- Effects in the link block (R155, R170, R178). -/
def State.linkEffect (s : State) (r : RegAt) (x : RegWr) : State :=
  let v : Port := asIdx 4 r.i (by decide)
  match r.cls.name with
  | .VLK_n_CFG =>
    let s1 := if x.bit 7 then s.clearErr v else s
    if s1.bit (F.VLK_n_CFG_EN v) then s1 else s1.endPulse v
  | .VLK_n_MAP => if s.bit (F.VLK_n_CFG_EN v) then s else s.mapWritten v
  | _ => s

/-- R181: may the writer clear an over-voltage latch? A core only while the loop has no owner, and then C0. -/
def State.mayOvClr (s : State) (who : Writer) (l : Loop) : Bool :=
  match who with
  | .host _ => true
  | .core k => k == 0 && s.owner l.val == 3

/-- R181, R191: PROT_Ln_CLR; what the comparators read is a free value here (log 1). -/
def State.protEffect (s : State) (r : RegAt) (x : RegWr) : State :=
  let l : Loop := asIdx 12 r.i (by decide)
  match r.cls.name with
  | .PROT_Ln_CLR =>
    let s1 := if x.bit 0 && s.mayOvClr x.who l then 
      let (v, t) := s.fresh 26; let (y, u) := t.fresh 26; u.ovClr l ⟨v.toInt, y.toInt⟩ else s
    if x.bit 1 then s1.loffClr l else s1
  | _ => s

/-- R229-R232: the requests of PD_Pp_CTRL read 1 until they are sent or done. -/
def State.pdCtrl (s : State) (p : Port) (x : RegWr) : State :=
  let set (b : Bool) (f : Fld) (t : State) : State := if b then t.setFld f 1 else t
  let s1 := set (x.bit 1) (F.PD_Pp_CTRL_REQ_PR p) (set (x.bit 0) (F.PD_Pp_CTRL_REQ_DR p) s)
  (set (x.bit 3) (F.PD_Pp_CTRL_EXIT p) (set (x.bit 2) (F.PD_Pp_CTRL_ENTER p) s1)).startPending p

/-- Effects in the Type-C block (R208, R229-R233, R241). -/
def State.pdEffect (s : State) (r : RegAt) (x : RegWr) : State :=
  let p : Port := asIdx 4 r.i (by decide)
  match r.cls.name with
  | .PD_Pp_CFG =>
    let s1 := if x.covers 9 1 then s.armFrs p else s
    if x.bit 15 then s1.applyCfg p else if x.covers 0 2 then s1.leaveDisabled p else s1
  | .PD_Pp_CTRL => s.pdCtrl p x
  | .PD_Pp_VDM_TXCTL => if x.bit 6 && !s.bit (F.PD_Pp_VDM_TXCTL_GO p) then s.vdmTxGo p else s
  | .PD_PMEM_CTRL => if x.bit 13 then s.pmemOp (s.fld F.PD_PMEM_CTRL_OP) (s.fld F.PD_PMEM_CTRL_INDEX) else s
  | _ => s

/-- A rail's STATE is written: an equal value is no change (R275). -/
def State.railStateWritten (s : State) (n : Rail) (x : RegWr) : State :=
  let k := getBits ((s.reg (A.SEQ_Sn_CFG n) &&& ~~~x.mask) ||| x.ones) 0 6
  if k = s.railState n then s else s.writeRailState n k

/-- SYNC_EN has changed: with no step in progress the sequencer takes it up at once; in a step the line is held or let
go (R287, R288). Before the sequencer has started, a member of a group holds the line. -/
def State.syncWritten (s : State) : State :=
  let idle := s.dir == 0 || (s.dir == 1 && s.seq.complete)
  if !s.seq.started then if s.syncEn then s.driveSync true else s
  else if idle then (s.driveSync false).advance
  else s.driveSync (s.syncEn && !s.seq.holdOff)

/-- Effects in the sequencer block (R275, R283, R287, R302). -/
def State.seqEffect (s : State) (r : RegAt) (old : Word) (x : RegWr) : State :=
  match r.cls.name with
  | .SEQ_Sn_CFG => s.railStateWritten (asIdx 36 r.i (by decide)) x
  | .SEQ_CTRL => if x.covers 0 6 then s.retarget (getBits ((s.reg A.SEQ_CTRL &&& ~~~x.mask) ||| x.ones) 0 6) else s
  | .SEQ_CFG => if s.bit F.SEQ_CFG_SYNC_EN != old.getLsbD 8 then s.syncWritten else s
  | .SEQ_FAULT => if x.bit 24 then s.clearSeqFault else s
  | _ => s

/-- R335: CNT_CLR clears the counts of HP_TWk_CNT and HP_TWk_NOTIFY. -/
def State.clearHpCnt (s : State) (h : HostId) : State :=
  (((s.setReg (A.HP_TWk_CNT h) 0).setFld (F.HP_TWk_NOTIFY_SENT h) 0).setFld (F.HP_TWk_NOTIFY_FAILED h) 0)

/-- R342: a cause write: a core clears any edge cause, a host those that its enables show. -/
def State.causeWritten (s : State) (g : Nat) (x : RegWr) : State :=
  let m := match x.who with
    | .core _ => x.ones
    | .host h => x.ones &&& s.reg (A.IRQ_ENk_g h.val g)
  s.setReg (A.IRQ_CAUSEg g) (s.reg (A.IRQ_CAUSEg g) &&& ~~~m)

/-- Effects in the host and interrupt blocks. -/
def State.hostEffect (s : State) (r : RegAt) (x : RegWr) : State :=
  match r.cls.name with
  | .HP_TWk_CFG => if x.bit 6 then s.clearHpCnt (asIdx 3 r.i (by decide)) else s
  | .HP_OWNERr =>
    s.setOwner r.i (getBits ((s.reg (A.HP_OWNERr r.i) &&& ~~~x.mask) ||| x.ones) 0 2)
  | .IRQ_CAUSEg => s.causeWritten r.i x
  | _ => s

/-- R370: TCV_CTRL. -/
def State.tcvCtrl (s : State) (old : Word) (x : RegWr) : State :=
  let s1 := if x.bit 0 then s.setBit F.TCV_CTRL_START true else s
  (if x.bit 2 then s1.setBit F.TCV_CTRL_STOP true else s1).ctrlWritten (old.getLsbD 0)

/-- Effects in the telemetry block (R364, R370-R377). `busy` is URG_PEND before the write. -/
def State.tcvEffect (s : State) (r : RegAt) (old : Word) (x : RegWr) (busy : Bool) : State :=
  match r.cls.name with
  | .TCV_INn_AVG => if x.covers 0 8 || x.bit 8 then s.clearAvg (asIdx 32 r.i (by decide)) else s
  | .TCV_CFG =>
    let s1 := if x.covers 0 2 then s.modTcv fun k => { k with refWrite := true } else s
    if s1.bit F.TCV_CFG_REF_WAIT then s1 else s1.beginWaiting
  | .TCV_CTRL => s.tcvCtrl old x
  | .TCV_URGENT => if x.bit 5 then s.urgentGo busy else s
  | .TCV_SYSCAL => if x.bit 7 then s.syscalGo busy (getBits x.ones 8 8) else s
  | .THM_CTRL => let s1 := s.capThrottle; if x.bit 0 then s1.thmGo else s1
  | _ => s

/-- Effects in the keeper and recorder blocks (R391, R392, R395, R405, R410). -/
def State.kprEffect (s : State) (n : RegName) (x : RegWr) : State :=
  match n with
  | .KPR_STATUS => if x.bit 3 then s.modPower fun p => { p with holdup := false } else s
  | .KPR_CMD => if x.bit 16 then s.kprGo x.who (s.fld F.KPR_CMD_OP) (getBits x.ones 8 8) else s
  | .KPR_PROT => if x.bit 2 then s.setBit F.KPR_PROT_PROT_LOCK true else s
  | .REC_CTRL =>
    let s1 := if x.bit 0 then s.takeSnap else s
    if x.bit 1 then s1.flush else s1
  | _ => s

/-- Effects in the core block (R429, R431). -/
def State.coreEffect (s : State) (r : RegAt) (x : RegWr) : State :=
  let k : Core := asIdx 4 r.i (by decide)
  match r.cls.name with
  | .CORE_Ck_WDOG => if getBits x.ones 8 8 = 0xA5 then s.modCore k fun c => { c with wdog := 0 } else s
  | .CORE_Ck_RING => if x.bit 0 then s.setFld (F.CORE_Ck_EVT_PEND_RING k) 1 else s
  | _ => s

/-- Effects in the live-service block (R439-R448). -/
def State.liveEffect (s : State) (r : RegAt) (x : RegWr) : State :=
  match r.cls.name with
  | .LIVE_STAGE_CFG => s.setBit F.LIVE_STAGE_CTRL_VERIFIED false
  | .LIVE_STAGE_DATA => s.stageWord (s.reg A.LIVE_STAGE_DATA)
  | .LIVE_STAGE_CTRL => if x.bit 0 then s.setBit F.LIVE_STAGE_CTRL_VERIFY true else s
  | .LIVE_HOk => s.hoWritten x.who (asIdx 4 r.i (by decide)) (x.bit 0) (x.bit 1) (x.bit 2)
  | .LIVE_RETIRE => if x.bit 5 then s.retireGo else s
  | .LIVE_RETRIM =>
    let s1 := if x.bit 4 then s.retrimGo else s
    if x.bit 5 then s1.commitTrims (getBits x.ones 8 8) else s1
  | _ => s

/-- Effects in the perturbation block (R449-R451): a perturbation that changes is logged. -/
def State.testEffect (s : State) (r : RegAt) (a : Nat) (old : Word) (x : RegWr) : State :=
  match r.cls.name with
  | .TST_KEY => s.tstKey (getBits x.ones 0 8)
  | .TST_CTRL =>
    let s1 := if x.bit 2 then s.logClr else s
    if x.bit 1 then s1.relock else s1
  | .TST_PAR => if x.bit 22 then s.inject x.ones else s
  | _ => if s.reg a = old then s else s.logUse (a - 0xF0000) (s.reg a)

/-- What the write of a register does beside storing its bits. `s0` is the state before it. -/
def State.regEffect (s0 s : State) (r : RegAt) (a : Nat) (x : RegWr) : State :=
  let old := s0.reg a
  match a / 0x10000 with
  | 0x0 => s.sysEffect r.cls.name old x
  | 0x1 => s.engineEffect r.cls.name old x
  | 0x2 => s.loopEffect r x
  | 0x3 => (s.linkEffect r x).noteSettled s0
  | 0x4 => s.protEffect r x
  | 0x5 => s.pdEffect r x
  | 0x7 => s.seqEffect r old x
  | 0x8 | 0x9 => s.hostEffect r x
  | 0xA => s.tcvEffect r old x s0.urgPend
  | 0xB | 0xC => s.kprEffect r.cls.name x
  | 0xD => s.coreEffect r x
  | 0xE => s.liveEffect r x
  | 0xF => s.testEffect r a old x
  | _ => s

/-! ### Writes -/

/-- What a write of an address does, and its code: 0 OK. -/
structure RegDone where
  code : Nat
  state : State

/-- R330: a host whose port is not secure writes a register of a secure channel. -/
def State.mbxBars (s : State) (r : RegAt) (who : Writer) : Bool :=
  r.cls.name == .MBX_CHn_CFG && mbxSecure r.i && s.notSecure who

/-- R273: a host's write of VREF = 0x000 on a sequenced loop: it is discarded, with BAD_DATA. -/
def State.stopsSequenced (s : State) (r : RegAt) (x : RegWr) : Bool :=
  let w := (s.reg r.addr &&& ~~~x.mask) ||| x.ones
  r.cls.name == .LP_Ln_VREF && x.covers 0 11 && getBits w 0 11 == 0 && s.sequenced (asIdx 12 r.i (by decide))
    && (match x.who with | .host _ => true | .core _ => false)

/-- R9-R15, R338: write a register. -/
def State.regWrite (s : State) (a : Nat) (x : RegWr) : RegDone :=
  match findReg a with
  | none => ⟨1, s⟩
  | some r =>
    if s.mbxBars r x.who then ⟨7, s⟩
    else
      match s.writeCheck r a x with
      | 0 =>
        let w := (s.reg a &&& ~~~x.mask) ||| x.ones
        match r.cls.name with
        | .MBX_CHn_DATA => let (t, c) := s.mbxSend x.who r.i w; ⟨c, t⟩
        | .MBX_CHn_ACK => let (t, c) := s.mbxAck x.who r.i (getBits w 0 16); ⟨c, t⟩
        | _ => ⟨if s.stopsSequenced r x then 0xF else 0, s.regEffect (s.storeWord r a x) r a x⟩
      | c => ⟨c, s⟩

/-- A write of a whole word. -/
def RegWr.word (who : Writer) (w : Word) : RegWr := ⟨who, BitVec.allOnes 32, w⟩

/-- A write of one field, and of nothing else in its register (R320). -/
def RegWr.field (who : Writer) (f : Fld) (v : Nat) : RegWr :=
  ⟨who, bitsMask f.lo f.width, putBits 0 f.lo f.width v⟩

end Sys2Proof.Machine
end

