-- ==== Sys2Proof/Machine/Except.lean ====
section
/-!
DEFINITION. Exceptions of the cores (R426-R428, R432, R433), the bounds of the sandbox, and what falls due at an
instruction boundary: the end of a wait, BUDGET and EVENT.
-/

namespace Sys2Proof.Machine

/-- The causes of Table 14.8. -/
inductive Exc where
  | illegal | sandbox | misalign | bus | data | svc | budget | event
  deriving DecidableEq, Repr

/-- ECAUSE (Table 14.8). -/
def Exc.code (c : Exc) : Nat :=
  match c with
  | .illegal => 1 | .sandbox => 2 | .misalign => 3 | .bus => 4 | .data => 5 | .svc => 6 | .budget => 7 | .event => 8

/-- PSR at entry: EXL set, IE and APP clear, the flags kept (R426). -/
def psrEntered (psr : Word) : Word := setBitW (setBitW (setBitW psr psrExl true) psrIe false) psrApp false

/-- Entry: SPSR, PSR, ECAUSE, EPC and EVAL, and the vector (R426). -/
def CoreState.enter (c : CoreState) (e : Exc) (epc eval : Word) : CoreState :=
  { c with spsr := c.psr, psr := psrEntered c.psr, ecause := BitVec.ofNat 32 e.code, epc := epc, eval := eval,
           pc := c.vbase + BitVec.ofNat 32 (0x10 * e.code) }

/-- R432: every exception other than SVC and EVENT taken from applet mode is an APPLET_FAULT. -/
def State.appletFault (s : State) (k : Core) (e : Exc) : State :=
  if k = 3 ∧ s.inApp k ∧ e ≠ .svc ∧ e ≠ .event then
    ((s.raise 14 14).satInc F.CORE_SBX_FAULTS_COUNT).setFld F.CORE_SBX_FAULTS_LAST e.code
  else s

/-- R426, R428: take an exception; a synchronous one or SVC with EXL = 1 is an unrecoverable fault. -/
def State.exception (s : State) (k : Core) (e : Exc) (epc eval : Word) : State :=
  if s.psrBit k psrExl ∧ e.code ≤ 6 then s.coreFault k 1 e.code
  else ((s.appletFault k e).modCore k fun c => c.enter e epc eval).spend k 3

/-- R427: PSR from SPSR and PC from EPC. -/
def CoreState.eret (c : CoreState) : CoreState := { c with psr := c.spsr &&& 0x7F#32, pc := c.epc }

/-! ### The sandbox (R432) -/

/-- The SRAM offset of the sandbox; BASE 0 acts as 31 (Table 14.12). -/
def State.sbxBase (s : State) : Nat :=
  let b := s.fld F.CORE_SBX_CFG_BASE
  (if b = 0 then 31 else b) * 0x10000

/-- Fetches, loads and stores of an applet lie within the sandbox or bit-space words 128-255. -/
def State.inSandbox (s : State) (a : Nat) : Bool :=
  (decide (0x20000000 + s.sbxBase ≤ a) && decide (a < 0x20010000 + s.sbxBase))
    || (decide (0x10000200 ≤ a) && decide (a < 0x10000400))

/-! ### Instruction boundaries (R426, R429, R433) -/

/-- R433: BUDGET is due. -/
def State.budgetDue (s : State) (k : Core) : Bool :=
  k == 3 && s.coreSt k == 1 && s.inApp k && s.fld F.CORE_SBX_LEFT_LEFT == 0

/-- R429: EVENT is due. -/
def State.eventDue (s : State) (k : Core) : Bool :=
  s.coreSt k == 1 && s.evtDue k && s.psrBit k psrIe && !s.psrBit k psrExl

/-- R429: a WFE completes. -/
def State.wakeCore (s : State) (k : Core) : State :=
  if s.coreSt k == 2 && s.evtDue k then s.setFld (F.CORE_Ck_STATUS_STATE k) 1 else s

/-- R433: BUDGET, with the next instruction in EPC and 0 in EVAL. -/
def State.takeBudget (s : State) (k : Core) : State :=
  if s.budgetDue k then s.exception k .budget (s.core k).pc 0 else s

/-- CORE_Ck_EVT_PEND and CORE_Ck_EVT_EN. -/
def State.enabledEvents (s : State) (k : Core) : Word :=
  BitVec.ofNat 32 (s.evtPend k) &&& BitVec.ofNat 32 (s.fld (F.CORE_Ck_EVT_EN_EN k))

/-- R429: EVENT, with the next instruction in EPC. -/
def State.takeEvent (s : State) (k : Core) : State :=
  if s.eventDue k then s.exception k .event (s.core k).pc (s.enabledEvents k) else s

/-- R433: an invocation ends when C3 runs neither the applet nor a handler. -/
def State.endApplet (s : State) : State :=
  if s.applet.isSome && !s.inApp 3 && !s.psrBit 3 psrExl then { s with applet := none } else s

/-- What falls due at a core's boundary: BUDGET comes before EVENT (R426). -/
def State.boundary (s : State) (k : Core) : State := ((s.wakeCore k).takeBudget k).takeEvent k

/-- Every core's boundary. -/
def State.settleCores (s : State) : State := (s.forAll fun (k : Core) t => t.boundary k).endApplet

/-- A bus error response to a register access that a row makes for a core (R415): the next instruction is at its PC,
which a row that is no instruction leaves where it is. -/
def State.busError (s : State) (k : Core) (a : Nat) : State :=
  s.exception k .bus (s.core k).pc (BitVec.ofNat 32 (0x40000000 + a))

end Sys2Proof.Machine
end

