-- ==== Sys2Proof/Machine/Writes.lean ====
section
/-!
DEFINITION. The commands that are writes of a register: each writes the fields its row names, by a core or by a host,
through the one register write of R9-R15. A host's write records its return code (R321); a core's that meets a bus
error takes the BUS exception (R415).
-/

namespace Sys2Proof.Machine

/-! ### Who can write now -/

/-- A port answers: D2 is on with the keeper read, and EN is 1 (R303, R470). -/
def State.portOpen (s : State) (h : HostId) : Bool := s.domOn 2 && s.boot.kprRead && s.bit (F.HP_TWk_CFG_EN h)

/-- A core writes while it runs, outside applet mode: the register space lies outside the sandbox (R432). -/
def State.canWrite (s : State) (who : Writer) : Bool :=
  match who with
  | .core k => s.coreSt k == 1 && !s.inApp k
  | .host h => s.portOpen h

/-! ### Return codes (R321, Table 10.4) -/

/-- The codes that set STATUS_CML bit 6: NOT_OWNER, LOCKED, SEEDLING_REFUSED, SECURE, NOT_PARTY, BAD_DATA. -/
def badDataCodes : List Nat := [3, 4, 5, 7, 8, 0xF]

/-- Bit i of a port's STATUS_CML is set. -/
def State.setCml (s : State) (h : HostId) (i : Nat) : State := s.setFld ((F.HP_TWk_STATUS_CML h).at i) 1

/-- R321: a completed transaction records its return code; a refusal sets STATUS_CML as Table 10.4 gives. -/
def State.hostCode (s : State) (h : HostId) (code : Nat) : State :=
  let s1 := s.setFld (F.HP_TWk_STATUS_LAST_CODE h) code
  if code = 0xA then s1.setCml h 0 else if badDataCodes.contains code then s1.setCml h 6 else s1

/-- The codes that a core meets as a bus error: UNASSIGNED, DOMAIN_OFF, MBX_DOWN (R10, R416, R332). -/
def busCodes : List Nat := [1, 6, 0xA]

/-- What a writer meets: a host its return code, a core a bus error where there is one. -/
def State.met (s : State) (who : Writer) (a code : Nat) : State :=
  match who with
  | .host h => s.hostCode h code
  | .core k => if busCodes.contains code then s.busError k a else s

/-! ### Writes of a row -/

/-- A write of several fields of one register, and of nothing else in it. -/
def RegWr.fields (who : Writer) (fs : List (Fld × Nat)) : RegWr :=
  fs.foldl (fun x f => { x with mask := x.mask ||| bitsMask f.1.lo f.1.width,
                                value := putBits x.value f.1.lo f.1.width f.2 }) ⟨who, 0, 0⟩

/-- Write a register, and meet what comes of it. -/
def State.writeBy (s : State) (a : Nat) (x : RegWr) : State := let d := s.regWrite a x; d.state.met x.who a d.code

/-- A row that is a write. -/
def State.rowWrite (s : State) (a : Nat) (x : RegWr) : Answer := s.onlyIf (s.canWrite x.who) fun s => s.writeBy a x

/-- A row that writes one field. -/
def State.rowField (s : State) (who : Writer) (f : Fld) (v : Nat) : Answer := s.rowWrite f.addr (RegWr.field who f v)

/-- The return code that a write of one field would have; 0 passes. -/
def State.fieldCode (s : State) (who : Writer) (f : Fld) (v : Nat) : Nat :=
  match findReg f.addr with
  | none => 1
  | some r => s.writeCheck r f.addr (RegWr.field who f v)

/-- A row that writes one field whose effect needs what the part measures then. -/
def State.rowEffect (s : State) (who : Writer) (f : Fld) (v : Nat) (g : State → State) : Answer :=
  s.onlyIf (s.canWrite who) fun s =>
    match s.fieldCode who f v with
    | 0 => (g (s.mendReg f.addr)).met who f.addr 0
    | c => s.met who f.addr c

/-! ### Supplies, clocks and start -/

def doLfSrcWrite (who : Writer) (crystal : Bool) (s : State) : Answer := s.rowField who F.CLK_CFG_LF_SRC crystal.toNat
def doPwrDomReqWrite (who : Writer) (v : BitVec 12) (s : State) : Answer :=
  s.rowWrite A.PWR_DOM_REQ ⟨who, 0xFFF, v.setWidth 32⟩
def doDormantEnter (who : Writer) (s : State) : Answer := s.rowField who F.DORMANT_CFG_ENTER 1
def doHealthy (k : Core) (s : State) : Answer := s.rowField (.core k) (F.START_HEALTH_HEALTHY.at k.val) 1
def doRestartOrderly (who : Writer) (key : Byte) (s : State) : Answer :=
  s.rowWrite A.START_CTRL (RegWr.fields who [(F.START_CTRL_KEY, key.toNat), (F.START_CTRL_RESTART_ORDERLY, 1)])
def doRestartNow (who : Writer) (key : Byte) (s : State) : Answer :=
  s.rowWrite A.START_CTRL (RegWr.fields who [(F.START_CTRL_KEY, key.toNat), (F.START_CTRL_RESTART_NOW, 1)])
def doClearFails (who : Writer) (key : Byte) (s : State) : Answer :=
  s.rowWrite A.START_CTRL (RegWr.fields who [(F.START_CTRL_KEY, key.toNat), (F.START_CTRL_CLEAR_FAILS, 1)])
def doFlashXferGo (who : Writer) (ctrl : BitVec 22) (s : State) : Answer :=
  s.rowWrite A.FLASH_XFER_CTRL ⟨who, 0x7FFFFF, 0x400000 ||| ctrl.setWidth 32⟩

/-! ### The pulse engine -/

def doLoadAll (who : Writer) (s : State) : Answer := s.rowField who F.PE_CTRL_LOAD_ALL 1

/-- R112: a write of GO, or the PERIOD timer; `code` is what the replica line gives. -/
def doRecalibration (who : Option Writer) (h : Half) (code : BitVec 10) (s : State) : Answer :=
  match who with
  | some w => s.rowEffect w (halfGo h) 1 fun t =>
      if t.domOn (halfDom h) then (t.setBit (halfGo h) true).recalibrate h code else t
  | none => s.onlyIf (s.domOn (halfDom h) && s.fld F.PE_CAL_CTRL_PERIOD != 0) fun t => t.recalibrate h code

def doEngineEnClear (who : Writer) (s : State) : Answer := s.rowField who F.PE_CTRL_ENGINE_EN 0
def doClrTrgDrop (who : Writer) (s : State) : Answer := s.rowField who F.PE_CTRL_CLR_TRG_DROP 1
def doPeCntClr (who : Writer) (mask : Word) (s : State) : Answer := s.rowWrite A.PE_CNT_CLR (RegWr.word who mask)

/-! ### Rail loops, the link and protection -/

def doVrefWrite (who : Writer) (l : Fin 8) (code : BitVec 11) (s : State) : Answer :=
  s.rowField who (F.LP_Ln_VREF_VREF l.val) code.toNat
def doSwap (who : Writer) (l : Loop) (s : State) : Answer := s.rowField who (F.LP_Ln_CTRL_SWAP l.val) 1
def doBlkGo (who : Writer) (l : Fin 8) (s : State) : Answer := s.rowField who (F.LP_Ln_BLK_CTRL_GO l.val) 1
def doFbForce (who : Writer) (l : Loop) (s : State) : Answer := s.rowField who (F.LP_Ln_CTRL_FB_FORCE l.val) 1
def doFbRet (who : Writer) (l : Loop) (s : State) : Answer := s.rowField who (F.LP_Ln_CTRL_FB_RET l.val) 1
def doRetiredClear (who : Writer) (n : Fin 24) (s : State) : Answer := s.rowField who (F.LP_CHn_CARD_RETIRED n.val) 1
def doVlkMapWrite (who : Writer) (v : Port) (w : Word) (s : State) : Answer :=
  s.rowWrite (A.VLK_n_MAP v.val) (RegWr.word who w)
def doVlkCntClr (who : Writer) (v : Port) (s : State) : Answer := s.rowField who (F.VLK_n_CFG_CNT_CLR v.val) 1

/-- R181: with what the comparators read. -/
def doOvClr (who : Writer) (l : Loop) (x : OvSense) (s : State) : Answer :=
  s.rowEffect who (F.PROT_Ln_CLR_OV_CLR l.val) 1 fun t => if t.mayOvClr who l then t.ovClr l x else t

def doLoffClr (who : Writer) (l : Loop) (s : State) : Answer := s.rowField who (F.PROT_Ln_CLR_LOFF_CLR l.val) 1

/-! ### Ports and the partner memory -/

def doApply (who : Writer) (p : Port) (s : State) : Answer := s.rowField who (F.PD_Pp_CFG_APPLY p.val) 1
def doReqDr (who : Writer) (p : Port) (s : State) : Answer := s.rowField who (F.PD_Pp_CTRL_REQ_DR p.val) 1
def doReqPr (who : Writer) (p : Port) (s : State) : Answer := s.rowField who (F.PD_Pp_CTRL_REQ_PR p.val) 1
def doEnter (who : Writer) (p : Port) (idx : Fin 16) (s : State) : Answer :=
  s.rowWrite (A.PD_Pp_CTRL p.val)
    (RegWr.fields who [(F.PD_Pp_CTRL_MODE_IDX p.val, idx.val), (F.PD_Pp_CTRL_ENTER p.val, 1)])
def doExit (who : Writer) (p : Port) (idx : Fin 16) (s : State) : Answer :=
  s.rowWrite (A.PD_Pp_CTRL p.val)
    (RegWr.fields who [(F.PD_Pp_CTRL_MODE_IDX p.val, idx.val), (F.PD_Pp_CTRL_EXIT p.val, 1)])
def doVdmTxGo (who : Writer) (p : Port) (count : Fin 16) (sop : Fin 4) (s : State) : Answer :=
  s.rowWrite (A.PD_Pp_VDM_TXCTL p.val) (RegWr.fields who [(F.PD_Pp_VDM_TXCTL_COUNT p.val, count.val),
    (F.PD_Pp_VDM_TXCTL_SOP p.val, sop.val), (F.PD_Pp_VDM_TXCTL_GO p.val, 1)])
def doVdmRxRelease (who : Writer) (p : Port) (s : State) : Answer := s.rowField who (F.PD_Pp_VDM_RXCTL_VALID p.val) 1

/-- A partner memory command (R241). -/
def State.pmemRow (s : State) (who : Writer) (op idx : Nat) : Answer :=
  s.rowWrite A.PD_PMEM_CTRL
    (RegWr.fields who [(F.PD_PMEM_CTRL_INDEX, idx), (F.PD_PMEM_CTRL_OP, op), (F.PD_PMEM_CTRL_GO, 1)])

def doPmemRead (who : Writer) (idx : Fin 1024) (s : State) : Answer := s.pmemRow who 1 idx.val
def doPmemPin (who : Writer) (idx : Fin 1024) (s : State) : Answer := s.pmemRow who 2 idx.val
def doPmemUnpin (who : Writer) (idx : Fin 1024) (s : State) : Answer := s.pmemRow who 3 idx.val
def doPmemForget (who : Writer) (idx : Fin 1024) (s : State) : Answer := s.pmemRow who 4 idx.val
def doPmemForgetAllUnpinned (who : Writer) (s : State) : Answer := s.pmemRow who 5 0

/-! ### The sequencer, host ports, mailboxes and causes -/

def doTargetWrite (who : Writer) (k : BitVec 6) (s : State) : Answer := s.rowField who F.SEQ_CTRL_TARGET k.toNat
def doSeqStateWrite (who : Writer) (n : Rail) (k : BitVec 6) (s : State) : Answer :=
  s.rowField who (F.SEQ_Sn_CFG_STATE n.val) k.toNat
def doSeqFaultClr (who : Writer) (s : State) : Answer := s.rowField who F.SEQ_FAULT_CLR 1
def doHpCntClr (who : Writer) (h : HostId) (s : State) : Answer := s.rowField who (F.HP_TWk_CFG_CNT_CLR h.val) 1

/-- R332: a host's data byte meets NACK where the receiving domain is down. -/
def State.nackDown (s : State) (who : Writer) (a : Nat) (x : RegWr) : State :=
  match who with
  | .host h => if (s.regWrite a x).code = 0xA then s.emit (.nack h) else s
  | .core _ => s

def doMbxDataWrite (who : Writer) (n : Fin 256) (w : Word) (s : State) : Answer :=
  s.onlyIf (s.canWrite who) fun s =>
    let x := RegWr.word who w
    (s.nackDown who (A.MBX_CHn_DATA n.val) x).writeBy (A.MBX_CHn_DATA n.val) x

def doMbxAckWrite (who : Writer) (n : Fin 256) (code : BitVec 16) (s : State) : Answer :=
  s.rowWrite (A.MBX_CHn_ACK n.val) (RegWr.word who (code.setWidth 32))
def doIrqCauseWrite (who : Writer) (g : Fin 16) (v : BitVec 16) (s : State) : Answer :=
  s.rowWrite (A.IRQ_CAUSEg g.val) (RegWr.word who (v.setWidth 32))
def doIrqEnWrite (who : Writer) (h : HostId) (g : Fin 16) (v : BitVec 16) (s : State) : Answer :=
  s.rowWrite (A.IRQ_ENk_g h.val g.val) (RegWr.word who (v.setWidth 32))

/-! ### Telemetry and thermal sensing -/

def doTcvStart (who : Writer) (s : State) : Answer := s.rowField who F.TCV_CTRL_START 1
def doTcvStop (who : Writer) (s : State) : Answer := s.rowField who F.TCV_CTRL_STOP 1
def doUrgent (who : Writer) (n : Fin 32) (s : State) : Answer :=
  s.rowWrite A.TCV_URGENT (RegWr.fields who [(F.TCV_URGENT_INPUT, n.val), (F.TCV_URGENT_GO, 1)])
def doRefSelWrite (who : Writer) (v : Fin 4) (s : State) : Answer := s.rowField who F.TCV_CFG_REF_SEL v.val
def doAvgClr (who : Writer) (n : Fin 32) (s : State) : Answer := s.rowField who (F.TCV_INn_AVG_AVG_CLR n.val) 1

/-- A step of the system calibration (R373). -/
def State.syscalRow (s : State) (who : Writer) (n : Fin 32) (step : Nat) (key : Byte) : Answer :=
  s.rowWrite A.TCV_SYSCAL (RegWr.fields who [(F.TCV_SYSCAL_INPUT, n.val), (F.TCV_SYSCAL_STEP, step),
    (F.TCV_SYSCAL_GO, 1), (F.TCV_SYSCAL_KEY, key.toNat)])

def doSyscalZero (who : Writer) (n : Fin 32) (s : State) : Answer := s.syscalRow who n 1 0
def doSyscalFullScale (who : Writer) (n : Fin 32) (s : State) : Answer := s.syscalRow who n 2 0
def doSyscalCommit (who : Writer) (n : Fin 32) (key : Byte) (s : State) : Answer := s.syscalRow who n 3 key
def doThmGo (who : Writer) (s : State) : Answer := s.rowField who F.THM_CTRL_GO 1

/-! ### The keeper and the recorder -/

/-- A command operation (R391). -/
def State.kprRow (s : State) (who : Writer) (op : Nat) (key : Byte) : Answer :=
  s.rowWrite A.KPR_CMD (RegWr.fields who [(F.KPR_CMD_OP, op), (F.KPR_CMD_KEY, key.toNat), (F.KPR_CMD_GO, 1)])

def doWrite (who : Writer) (key : Byte) (s : State) : Answer := s.kprRow who 1 key
def doStartClr (who : Writer) (key : Byte) (s : State) : Answer := s.kprRow who 2 key
def doKeyset (who : Writer) (key : Byte) (s : State) : Answer := s.kprRow who 3 key

/-- R411: a read of KPR_RDATA, and the word it returned. -/
def doKprRdataRead (who : Writer) (s : State) : Answer :=
  s.onlyIf (s.canWrite who) fun s =>
    let d := s.readReg who A.KPR_RDATA
    (d.state.emit (.data who d.word)).met who A.KPR_RDATA d.code

def doHoldupUsedClear (who : Writer) (s : State) : Answer := s.rowField who F.KPR_STATUS_HOLDUP_USED 1
def doProtLock (who : Writer) (s : State) : Answer := s.rowField who F.KPR_PROT_PROT_LOCK 1
def doFlush (who : Writer) (s : State) : Answer := s.rowField who F.REC_CTRL_FLUSH 1
def doSnap (who : Writer) (s : State) : Answer := s.rowField who F.REC_CTRL_SNAP 1

/-! ### Cores, live service and test -/

def doKick (who : Writer) (k : Core) (v : Byte) (s : State) : Answer :=
  s.rowField who (F.CORE_Ck_WDOG_KICK k.val) v.toNat
def doRing (who : Writer) (k : Core) (s : State) : Answer := s.rowField who (F.CORE_Ck_RING_RING k.val) 1
def doLiveStageData (who : Writer) (w : Word) (s : State) : Answer := s.rowWrite A.LIVE_STAGE_DATA (RegWr.word who w)
def doVerify (who : Writer) (s : State) : Answer := s.rowField who F.LIVE_STAGE_CTRL_VERIFY 1
def doHandoverReq (who : Writer) (k : Core) (s : State) : Answer := s.rowField who (F.LIVE_HOk_REQ k.val) 1
def doReady (who : Writer) (k : Core) (s : State) : Answer := s.rowField who (F.LIVE_HOk_READY k.val) 1
def doAlive (who : Writer) (k : Core) (s : State) : Answer := s.rowField who (F.LIVE_HOk_ALIVE k.val) 1
def doLiveRetire (who : Writer) (ch : Fin 32) (s : State) : Answer :=
  s.rowWrite A.LIVE_RETIRE (RegWr.fields who [(F.LIVE_RETIRE_CH, ch.val), (F.LIVE_RETIRE_GO, 1)])
def doRetrimGo (who : Writer) (l : Fin 16) (s : State) : Answer :=
  s.rowWrite A.LIVE_RETRIM (RegWr.fields who [(F.LIVE_RETRIM_LOOP, l.val), (F.LIVE_RETRIM_GO, 1)])
def doCommit (who : Writer) (l : Fin 16) (key : Byte) (s : State) : Answer :=
  s.rowWrite A.LIVE_RETRIM (RegWr.fields who [(F.LIVE_RETRIM_LOOP, l.val), (F.LIVE_RETRIM_COMMIT, 1),
    (F.LIVE_RETRIM_KEY, key.toNat)])
def doTstKey (who : Writer) (v : Byte) (s : State) : Answer := s.rowField who F.TST_KEY_KEY v.toNat
def doRelock (who : Writer) (s : State) : Answer := s.rowField who F.TST_CTRL_RELOCK 1
def doLogClr (who : Writer) (s : State) : Answer := s.rowField who F.TST_CTRL_LOG_CLR 1

/-- R450, R451: a perturbation register, by its offset. -/
def doPerturbationWrite (who : Writer) (off : BitVec 7) (w : Word) (s : State) : Answer :=
  let a := 0xF0000 + off.toNat
  s.onlyIf (s.canWrite who && perturbations.contains a) fun s => s.writeBy a (RegWr.word who w)

def doParityInjection (who : Writer) (addr : BitVec 21) (space : Bool) (s : State) : Answer :=
  s.rowWrite A.TST_PAR (RegWr.fields who [(F.TST_PAR_ADDR, addr.toNat), (F.TST_PAR_SPACE, space.toNat), (F.TST_PAR_GO, 1)])

/-- R13: any register. -/
def doRegisterWrite (who : Writer) (addr : BitVec 20) (w : Word) (s : State) : Answer :=
  s.rowWrite addr.toNat (RegWr.word who w)

end Sys2Proof.Machine
end

