-- ==== Sys2Proof/Machine/Hosts.lean ====
section
/-!
DEFINITION. The host ports (R303-R321): addresses, transactions and their checks, PMBus and register access, return
codes, and Host Notify.
-/

namespace Sys2Proof.Machine

/-! ### Addresses and arbitration (R303, R312) -/

/-- The addresses that no port answers on, whatever its configuration; 0x61 in mask mode only. -/
def reservedAddr (a : Nat) (mask : Bool) : Bool :=
  decide (a ≤ 8) || a == 0x0C || decide (0x78 ≤ a) || (mask && a == 0x61)

/-- R303: the port answers on the address. -/
def State.addrMatch (s : State) (h : HostId) (a : BitVec 7) : Bool :=
  let w := s.reg (A.HP_TWk_ADDR h)
  let at_ (i : Nat) : Bool := w.getLsbD (8 * i + 7) && getBits w (8 * i) 7 == a.toNat
  let mask := s.bit (F.HP_TWk_CFG_MASK_MODE h)
  !reservedAddr a.toNat mask &&
    if mask then (a ^^^ BitVec.ofNat 7 (getBits w 0 7)) &&& ~~~(BitVec.ofNat 7 (getBits w 8 7)) == 0
    else (List.range 4).any at_

/-- A transaction is addressed to the port, which answers. -/
def State.answers (s : State) (h : HostId) (t : Txn) : Bool := s.portOpen h && s.addrMatch h t.addr

/-- R312: a port that has lost arbitration to the controller hears it only with COMPAT = 1, if it lost in the address. -/
def State.hears (s : State) (h : HostId) (t : Txn) : Bool :=
  match t.arb with
  | .free => true
  | .wonInAddress => s.bit (F.HP_TWk_CFG_COMPAT h)
  | .wonLater => false

/-! ### Commands served (R309, Table 2.6) -/

/-- Table 10.3, and 0xD0-0xD4. -/
def supportedCodes : List Nat :=
  [0x00, 0x01, 0x02, 0x03, 0x21, 0x24, 0x27, 0x46, 0x78, 0x79, 0x7A, 0x7B, 0x7D, 0x7E, 0x88, 0x8B, 0x8C, 0x8D, 0x96, 0x99,
   0x9A, 0x9B, 0xD0, 0xD1, 0xD2, 0xD3, 0xD4]

/-- What seedling mode answers (Table 2.6). -/
def seedlingCodes : List Nat := [0x03, 0x78, 0x79, 0x7E, 0x99, 0x9A, 0x9B, 0xD0, 0xD1, 0xD2, 0xD3, 0xD4]

def State.serves (s : State) (code : Nat) : Bool := (if s.limited then seedlingCodes else supportedCodes).contains code

/-- What a read returns, with its return code. -/
structure HostRead where
  state : State
  data : List Byte
  code : Nat

/-- A command of a port: its code, the bytes a write carries (none: no write), its read if it has one, and its write. -/
structure HostCmd where
  code : Nat
  count : Option Nat
  read : Option (State → HostRead)
  write : State → List Byte → State × Nat

/-- R308: the PEC of a read. -/
def readPec (a : BitVec 7) (code : Nat) (data : List Byte) : Byte :=
  crc8 ([a.setWidth 8 <<< 1, BitVec.ofNat 8 code, (a.setWidth 8 <<< 1) ||| 1] ++ data)

/-- R309: an unsupported command is NACKed, and STATUS_CML bit 7 is set. -/
def State.refuseCommand (s : State) (h : HostId) : State := (s.setCml h 7).emit (.nack h)

/-- R308: does the PEC refuse a write? -/
def State.pecFails (s : State) (h : HostId) (t : Txn) : Bool :=
  t.pec == .bad || (t.pec == .absent && s.bit (F.HP_TWk_CFG_PEC_REQ h))

/-- R305: a write's checks at STOP: PEC, byte count, then the rules of the command. -/
def State.commitWrite (s : State) (h : HostId) (t : Txn) (c : HostCmd) (bs : List Byte) : State :=
  if s.pecFails h t then (((s.satInc (F.HP_TWk_CNT_PEC_ERR h)).setCml h 5).hostCode h 0xC)
  else if c.count ≠ some bs.length then s.hostCode h 0xB
  else let r := c.write s bs; r.1.hostCode h r.2

/-- R307: a stretch has lasted 2 ms. In a write every further byte is NACKed; in a read the lines are released. -/
def State.stretchOut (s : State) (h : HostId) (read : Bool) : State :=
  let s1 := ((s.satInc (F.HP_TWk_CNT_STRETCH_TMO h)).raise 10 14).setCml h 1
  (if read then s1 else s1.emit (.nack h)).hostCode h 0xE

/-- R451: the port stretches for 2 ms or more at each stretch point. -/
def State.overStretched (s : State) (h : HostId) : Bool := decide (200 ≤ s.fld F.TST_TW_S / 256 ^ h.val % 256)

/-- A read: what it returns, with its PEC. It has a stretch point after its command code (R307, R451). -/
def State.readCommand (s : State) (h : HostId) (t : Txn) (c : HostCmd) : State :=
  if s.overStretched h then s.stretchOut h true else
  match c.read with
  | some f => let r := f s; (r.state.emit (.reply h r.data (readPec t.addr c.code r.data))).hostCode h r.code
  | none => s.hostCode h 0xB

/-- A transaction that carries a command. -/
def State.transact (s : State) (h : HostId) (t : Txn) (c : HostCmd) : State :=
  if !s.answers h t then s
  else if !s.hears h t then s.emit (.nack h)
  else if !s.serves c.code then s.refuseCommand h
  else
    match t.write with
    | some bs => s.commitWrite h t c bs
    | none => s.readCommand h t c

/-- A command that only reads. -/
def readOnly (code : Nat) (f : State → HostRead) : HostCmd := ⟨code, none, some f, fun s _ => (s, 0)⟩

/-! ### Values on the wire (R317, R318) -/

/-- The bytes of a 16-bit word, low byte first. -/
def word2 (n : Nat) : List Byte := [BitVec.ofNat 8 n, BitVec.ofNat 8 (n / 256)]

/-- R317: ULINEAR16 of a value given in its steps; one that does not fit is open (log 44). -/
def ulinear (q : Rat) : Nat :=
  let n := openRat q
  if 0 ≤ n ∧ n < 65536 then n.toNat else (Config.outOfField 16 n.natAbs).toNat

/-- Steps of a volt: 2^12 on pages 0-7, 2^8 on pages 8-11 (R317). -/
def voutSteps (l : Loop) : Rat := if l.val < 8 then 4096 else 256

/-- R318: the mantissa with exponent i - 8. -/
def mantissa (x : Rat) (i : Nat) : Int := roundRat (x * 256 / (2 : Rat) ^ i)

/-- R318: the smallest exponent whose rounded mantissa fits; beyond them all the word is open (log 44). -/
def linear11 (x : Rat) : Nat :=
  match (List.range 16).find? fun i => decide (-1024 ≤ mantissa x i) && decide (mantissa x i ≤ 1023) with
  | some i => unsigned 5 ((i : Int) - 8) * 2048 + unsigned 11 (mantissa x i)
  | none => (Config.outOfField 16 0).toNat

/-- R318: the value of a LINEAR11 word. -/
def ofLinear11 (w : Nat) : Rat :=
  (signed 11 (w % 2048) : Rat) * (2 : Rat) ^ (signed 5 (w / 2048 % 32) + 16).toNat / 65536

/-! ### Pages (R315, R316) -/

/-- The loop that the port's PAGE names. -/
def State.page (s : State) (h : HostId) : Loop := asIdx 12 (s.fld (F.HP_TWk_STATUS_PAGE h)) (by decide)

/-- A write to the page's loop: pages 8-11 are refused first where the table refuses them, then another than the owner,
then by the value. -/
def State.pageWrite (s : State) (h : HostId) (rails : Bool) (f : Loop → State × Nat) : State × Nat :=
  let l := s.page h
  if rails && decide (8 ≤ l.val) then (s, 0xF) else if s.owner l.val ≠ h.val then (s, 3) else f l

/-- A host's write of one field. -/
def State.hostField (s : State) (h : HostId) (f : Fld) (v : Nat) : State × Nat :=
  let d := s.regWrite f.addr (RegWr.field (.host h) f v)
  (d.state, d.code)

/-- A read of one field, as two bytes made from it. -/
def State.hostReadFld (s : State) (h : HostId) (f : Fld) (g : Nat → Nat) : HostRead :=
  let d := s.readReg (.host h) f.addr
  ⟨d.state, word2 (if d.code = 0 then g (getBits d.word f.lo f.width) else 0), d.code⟩

/-- A read of a page whose value the manual does not state for a port's loop is a free value (log 1). -/
def State.hostReadRail (s : State) (h : HostId) (f : Nat → Fld) (g : Nat → Nat) : HostRead :=
  let l := s.page h
  if l.val < 8 then s.hostReadFld h (f l.val) g
  else let (v, t) := s.fresh 16; ⟨t, word2 v.toNat, 0⟩

def cmdPage (h : HostId) : HostCmd :=
  ⟨0x00, some 1, some fun s => ⟨s, [BitVec.ofNat 8 (s.page h).val], 0⟩,
    fun s bs => if 12 ≤ leNat bs then (s, 0xF) else (s.setFld (F.HP_TWk_STATUS_PAGE h) (leNat bs), 0)⟩

/-- OPERATION 0x00: a stop as STOP_MODE 0 gives (Table 4.2). -/
def State.immediateOff (s : State) (l : Loop) : State :=
  let st := s.loopSt l
  if s.bit (F.PROT_Ln_STATUS_HICCUP l) then s.endHiccup l
  else if st = 1 ∨ st = 2 ∨ st = 3 ∨ st = 5 then (if st = 5 then (s.setLoopSt l 4).loopMid l else s.setLoopSt l 4).stopMid l
  else s

/-- R316: OPERATION. -/
def State.operation (s : State) (l : Loop) (v : Nat) : State × Nat :=
  if s.sequenced l then (s, 0xF)
  else if v = 0x80 then (s.onCommand l, 0)
  else if v = 0x40 then (s.offCommand l, 0)
  else if v = 0x00 then (s.immediateOff l, 0) else (s, 0xF)

def cmdOperation (h : HostId) : HostCmd :=
  ⟨0x01, some 1, some fun s => ⟨s, [if 1 ≤ s.loopSt (s.page h) ∧ s.loopSt (s.page h) ≤ 5 then 0x80 else 0], 0⟩,
    fun s bs => s.pageWrite h true fun l => s.operation l (leNat bs)⟩

def cmdOnOffConfig (h : HostId) : HostCmd :=
  ⟨0x02, some 1, some fun s => ⟨s, [0x18], 0⟩,
    fun s bs => s.pageWrite h false fun _ => (s, if leNat bs = 0x18 then 0 else 0xF)⟩

/-- R319: the host's latched bits of the page, and its STATUS_CML. -/
def cmdClearFaults (h : HostId) : HostCmd :=
  ⟨0x03, some 0, none, fun s _ =>
    ((s.setReg (A.HP_PGn_STATh (s.page h).val h.val) 0).setFld (F.HP_TWk_STATUS_CML h) 0, 0)⟩

/-- R317: the VREF code of a VOUT value. -/
def voutCode (n : Nat) : Nat := (roundDiv (n * 100 : Nat) 512).toNat

/-- R317: VOUT_COMMAND; a code that VREF cannot hold is BAD_DATA. -/
def State.voutCommand (s : State) (h : HostId) (l : Loop) (n : Nat) : State × Nat :=
  let vmax := s.fld (F.HP_PGn_VMAX_VOUT_MAX l)
  let c := if vmax < n then voutCode vmax else voutCode n
  if voutCode n < 0xC8 ∨ 0x7FF < c then (s, 0xF)
  else
    let r := s.hostField h (F.LP_Ln_VREF_VREF l) c
    if r.2 = 0 ∧ vmax < n then (r.1.latchAll fun k => (F.HP_PGn_STATh_VOUT l.val k).at 3, 0) else r

def cmdVoutCommand (h : HostId) : HostCmd :=
  let steps (v : Nat) : Nat := ulinear ((v * 512 : Nat) / 100 : Rat)
  ⟨0x21, some 2, some fun s =>
      match loopPort? (s.page h) with
      | none => s.hostReadFld h (F.LP_Ln_VREF_VREF (s.page h).val) steps
      | some p => s.hostReadFld h (F.PP_Pp_RUN_VREF p.val) steps,
    fun s bs => s.pageWrite h true fun l => s.voutCommand h l (leNat bs)⟩

def cmdVoutMax (h : HostId) : HostCmd :=
  ⟨0x24, some 2, some fun s => s.hostReadFld h (F.HP_PGn_VMAX_VOUT_MAX (s.page h).val) id,
    fun s bs => s.pageWrite h true fun l => s.hostField h (F.HP_PGn_VMAX_VOUT_MAX l.val) (leNat bs)⟩

def cmdVoutTransitionRate (h : HostId) : HostCmd :=
  ⟨0x27, some 2, some fun s => s.hostReadRail h F.LP_Ln_SLEW_SLEW fun v => linear11 ((v : Rat) * 5 / 8),
    fun s bs => s.pageWrite h true fun l =>
      s.hostField h (F.LP_Ln_SLEW_SLEW l.val) (clamp (roundRat (ofLinear11 (leNat bs) * 8 / 5)) 1 128).toNat⟩

/-- Table 10.3: OL_LIM, rounded down to 1 A. -/
def State.ocLimit (s : State) (h : HostId) (l : Loop) (x : Rat) : State × Nat :=
  if x < 0 ∨ 1023 < x then (s, 0xF) else s.hostField h (F.PROT_Ln_OL_OL_LIM l.val) x.floor.toNat

def cmdIoutOcFaultLimit (h : HostId) : HostCmd :=
  ⟨0x46, some 2, some fun s => s.hostReadRail h F.PROT_Ln_OL_OL_LIM fun v => linear11 (v : Rat),
    fun s bs => s.pageWrite h true fun l => s.ocLimit h l (ofLinear11 (leNat bs))⟩

/-! ### Status (R319, Table 10.4) -/

/-- STATUS_WORD of the page for the host; its low byte is STATUS_BYTE. -/
def State.statusWord (s : State) (h : HostId) : Nat :=
  let l := s.page h
  let st := s.loopSt l
  let v := s.fld (F.HP_PGn_STATh_VOUT l h)
  let i := s.fld (F.HP_PGn_STATh_IOUT l h)
  let mfr := s.bit (F.HP_PGn_STATh_MFR l h)
  let notGood := st != 3 && st != 5
  let latched := st == 6
  let high := 128 * (v != 0).toNat + 64 * (i != 0).toNat + 16 * mfr.toNat + 8 * notGood.toNat + 2 * latched.toNat
  let off := st == 0 || st == 1 || st == 4 || st == 6 || st == 7
  let other := v % 128 != 0 || i % 128 != 0 || mfr || notGood || latched
  let low := 64 * off.toNat + 32 * (v / 128) + 16 * (i / 128) + 4 * (s.fld (F.HP_PGn_STATh_TEMP l h) != 0).toNat
    + 2 * (s.fld (F.HP_TWk_STATUS_CML h) != 0).toNat + other.toNat
  256 * high + low

/-- A read of one byte. -/
def readByte (code : Nat) (f : State → Nat) : HostCmd := readOnly code fun s => ⟨s, [BitVec.ofNat 8 (f s)], 0⟩
/-- A read of one word. -/
def readWord (code : Nat) (f : State → Nat) : HostCmd := readOnly code fun s => ⟨s, word2 (f s), 0⟩
/-- A block read. -/
def readBlock (code : Nat) (bs : List Byte) : HostCmd := readOnly code fun s => ⟨s, BitVec.ofNat 8 bs.length :: bs, 0⟩

/-! ### Readings (R316) -/

def State.readVoutWord (s : State) (h : HostId) (uv : Nat) : Nat := ulinear ((uv : Rat) * voutSteps (s.page h) / 1000000)

def State.readIoutWord (s : State) (h : HostId) : Nat :=
  let l := s.page h
  match loopPort? l with
  | none => linear11 ((s.loop l).ill / 16)
  | some p => linear11 ((s.sfld (F.PP_Pp_MEAS_IBUS p) : Rat) / 100)

/-- READ_VOUT times READ_IOUT, as they read. -/
def State.readPoutWord (s : State) (h : HostId) (uv : Nat) : Nat :=
  linear11 ((s.readVoutWord h uv : Rat) / voutSteps (s.page h) * ofLinear11 (s.readIoutWord h))

/-- ASCII text. -/
def ascii (t : String) : List Byte := t.toList.map fun c => BitVec.ofNat 8 c.toNat

/-! ### The rows of PMBus -/

def doPage (h : HostId) (t : Txn) (s : State) : Answer := .next (s.transact h t (cmdPage h))
def doOperation (h : HostId) (t : Txn) (s : State) : Answer := .next (s.transact h t (cmdOperation h))
def doOnOffConfig (h : HostId) (t : Txn) (s : State) : Answer := .next (s.transact h t (cmdOnOffConfig h))
def doClearFaults (h : HostId) (t : Txn) (s : State) : Answer := .next (s.transact h t (cmdClearFaults h))
def doVoutCommand (h : HostId) (t : Txn) (s : State) : Answer := .next (s.transact h t (cmdVoutCommand h))
def doVoutMax (h : HostId) (t : Txn) (s : State) : Answer := .next (s.transact h t (cmdVoutMax h))
def doVoutTransitionRate (h : HostId) (t : Txn) (s : State) : Answer :=
  .next (s.transact h t (cmdVoutTransitionRate h))
def doIoutOcFaultLimit (h : HostId) (t : Txn) (s : State) : Answer := .next (s.transact h t (cmdIoutOcFaultLimit h))
def doStatusByte (h : HostId) (t : Txn) (s : State) : Answer :=
  .next (s.transact h t (readByte 0x78 fun u => u.statusWord h))
def doStatusWord (h : HostId) (t : Txn) (s : State) : Answer :=
  .next (s.transact h t (readWord 0x79 fun u => u.statusWord h))
def doStatusVout (h : HostId) (t : Txn) (s : State) : Answer :=
  .next (s.transact h t (readByte 0x7A fun u => u.fld (F.HP_PGn_STATh_VOUT (u.page h) h)))
def doStatusIout (h : HostId) (t : Txn) (s : State) : Answer :=
  .next (s.transact h t (readByte 0x7B fun u => u.fld (F.HP_PGn_STATh_IOUT (u.page h) h)))
def doStatusTemperature (h : HostId) (t : Txn) (s : State) : Answer :=
  .next (s.transact h t (readByte 0x7D fun u => u.fld (F.HP_PGn_STATh_TEMP (u.page h) h)))
def doStatusCml (h : HostId) (t : Txn) (s : State) : Answer :=
  .next (s.transact h t (readByte 0x7E fun u => u.fld (F.HP_TWk_STATUS_CML h)))
def doReadVin (h : HostId) (t : Txn) (mv : Nat) (s : State) : Answer :=
  .next (s.transact h t (readWord 0x88 fun _ => linear11 ((mv : Rat) / 1000)))
def doReadVout (h : HostId) (t : Txn) (uv : Nat) (s : State) : Answer :=
  .next (s.transact h t (readWord 0x8B fun u => u.readVoutWord h uv))
def doReadIout (h : HostId) (t : Txn) (s : State) : Answer :=
  .next (s.transact h t (readWord 0x8C fun u => u.readIoutWord h))
def doReadTemperature1 (h : HostId) (t : Txn) (s : State) : Answer :=
  .next (s.transact h t (readWord 0x8D fun u => linear11 ((u.sfld F.THM_MAX_MAX : Rat) / 8)))
def doReadPout (h : HostId) (t : Txn) (uv : Nat) (s : State) : Answer :=
  .next (s.transact h t (readWord 0x96 fun u => u.readPoutWord h uv))
def doMfrId (h : HostId) (t : Txn) (s : State) : Answer := .next (s.transact h t (readBlock 0x99 (ascii "GWYNPEX")))
def doMfrModel (h : HostId) (t : Txn) (s : State) : Answer := .next (s.transact h t (readBlock 0x9A (ascii "VB2484-FA")))
def doMfrRevision (h : HostId) (t : Txn) (s : State) : Answer :=
  .next (s.transact h t (readBlock 0x9B [Config.identity 2, Config.identity 3]))

/-! ### Register access (R320, R321, R332) -/

/-- The address of a register-access block, after its count byte. -/
def blockAddr (bs : List Byte) : Nat := leNat (part bs 1 3)

/-- The checks of a block: its count byte, and its address. -/
def blockCheck (n : Nat) (bs : List Byte) : Nat :=
  if leNat (part bs 0 1) ≠ n ∨ 0x100000 ≤ blockAddr bs then 0xB else if blockAddr bs % 4 ≠ 0 then 2 else 0

/-- A little-endian word of a block. -/
def blockWord (bs : List Byte) (i : Nat) : Word := BitVec.ofNat 32 (leNat (part bs i 4))

/-- A block write that passes its checks. -/
def State.blockWrite (s : State) (n : Nat) (bs : List Byte) (f : Nat → State × Nat) : State × Nat :=
  match blockCheck n bs with
  | 0 => f (blockAddr bs)
  | c => (s, c)

/-- A host's write of a register. -/
def State.hostReg (s : State) (a : Nat) (x : RegWr) : State × Nat := let d := s.regWrite a x; (d.state, d.code)

def cmdRegWrite (h : HostId) : HostCmd :=
  ⟨0xD0, some 8, none, fun s bs => s.blockWrite 7 bs fun a => s.hostReg a (RegWr.word (.host h) (blockWord bs 4))⟩

/-- The port's own part of the state. -/
def State.modHost (s : State) (h : HostId) (f : HostPort → HostPort) : State :=
  { s with hosts := s.hosts.set h.val (f s.hosts[h]) h.isLt }

def cmdRegPtr (h : HostId) : HostCmd :=
  ⟨0xD1, some 4, none, fun s bs => s.blockWrite 3 bs fun a => (s.modHost h fun k => { k with ptr := a }, 0)⟩

/-- R320, R321: the register at the pointer, which then advances; a refused read returns 0. -/
def State.regReadCmd (s : State) (h : HostId) : HostRead :=
  let d := s.readReg (.host h) s.hosts[h].ptr
  ⟨d.state.modHost h fun k => { k with ptr := (k.ptr + 4) % 0x100000 }, 4 :: wordBytes d.word, d.code⟩

def cmdRegRead (h : HostId) : HostCmd := readOnly 0xD2 fun s => s.regReadCmd h

def cmdRegMaskwrite (h : HostId) : HostCmd :=
  ⟨0xD3, some 12, none, fun s bs => s.blockWrite 11 bs fun a =>
    s.hostReg a ⟨.host h, blockWord bs 4, blockWord bs 8⟩⟩

def cmdRegResult (h : HostId) : HostCmd := readWord 0xD4 fun s => s.fld (F.HP_TWk_STATUS_LAST_CODE h)

/-- R332: the first data byte of a write of a mailbox's DATA whose receiving domain is down. -/
def State.mbxDownAt (s : State) (h : HostId) (bs : List Byte) : Bool :=
  decide (5 ≤ bs.length) && decide (blockAddr bs < 0x100000) && decide (blockAddr bs % 4 = 0) && !s.limited &&
    match findReg (blockAddr bs) with
    | some r => r.cls.name == .MBX_CHn_DATA && s.mbxCheck (.host h) r.i == 0xA
    | none => false

/-- A register write of a port: R332 NACKs it at its first data byte. -/
def State.regTransact (s : State) (h : HostId) (t : Txn) (c : HostCmd) : State :=
  if s.answers h t && s.hears h t && (match t.write with | some bs => s.mbxDownAt h bs | none => false) then
    ((s.raise 10 12).emit (.nack h)).hostCode h 0xA
  else s.transact h t c

def doRegWrite (h : HostId) (t : Txn) (s : State) : Answer := .next (s.regTransact h t (cmdRegWrite h))
def doRegPtr (h : HostId) (t : Txn) (s : State) : Answer := .next (s.transact h t (cmdRegPtr h))
def doRegRead (h : HostId) (t : Txn) (s : State) : Answer := .next (s.transact h t (cmdRegRead h))
def doRegMaskwrite (h : HostId) (t : Txn) (s : State) : Answer := .next (s.regTransact h t (cmdRegMaskwrite h))
def doRegResult (h : HostId) (t : Txn) (s : State) : Answer := .next (s.transact h t (cmdRegResult h))

/-- R309: a code that the port does not support now. -/
def doUnsupportedCommand (h : HostId) (t : Txn) (code : Byte) (s : State) : Answer :=
  s.onlyIf (s.answers h t && !(s.hears h t && s.serves code.toNat)) fun s =>
    if s.hears h t then s.refuseCommand h else s.emit (.nack h)

/-! ### Wire happenings (R306, R307) -/

/-- R306: a transaction is abandoned. -/
def State.abandon (s : State) (h : HostId) : State :=
  ((s.satInc (F.HP_TWk_CNT_ABANDONED h)).raise 10 15).hostCode h 0xD

def doAbandoned (h : HostId) (s : State) : Answer := s.onlyIf (s.portOpen h) fun s => s.abandon h

/-- R306: SCL held low for 30 ms. -/
def doSclLowTimeout (h : HostId) (s : State) : Answer := s.onlyIf (s.portOpen h) fun s => (s.abandon h).setCml h 1

def doStretchTimeout (h : HostId) (read : Bool) (s : State) : Answer := s.onlyIf (s.portOpen h) fun s => s.stretchOut h read

/-! ### Host Notify (R311, R313) -/

/-- The notify that is pending ends. -/
def State.endNotify (s : State) (h : HostId) : State := s.modHost h fun k => { k with notify := none, losses := 0 }

/-- R311: a notify that fails. -/
def State.notifyFails (s : State) (h : HostId) : State :=
  ((s.satInc (F.HP_TWk_NOTIFY_FAILED h)).raise 10 (3 + h.val)).endNotify h

/-- R311, R313: an attempt at a notify, and how it ends; the fourth loss gives up. -/
def State.notifyTry (s : State) (h : HostId) (view : BitVec 16) (e : NotifyEnd) : State :=
  match e with
  | .sent =>
    ((s.emit (.notify h (BitVec.ofNat 8 (2 * s.fld (F.HP_TWk_ADDR_ADDR0 h))) view)).satInc (F.HP_TWk_NOTIFY_SENT h)).endNotify h
  | .nacked => s.notifyFails h
  | .lost =>
    let s1 := (s.satInc (F.HP_TWk_CNT_CONTENTION h)).raise 10 (9 + h.val)
    if s.hosts[h].losses = 3 then (s1.setCml h 1).notifyFails h
    else s1.modHost h fun k => { k with losses := k.losses + 1 }

/-- A notify is due; `retry`: it has lost arbitration before. -/
def State.notifyRow (s : State) (h : HostId) (retry : Bool) (e : NotifyEnd) : State :=
  match s.hosts[h].notify with
  | some v => if s.domOn 2 && decide (0 < s.hosts[h].losses) == retry then s.notifyTry h v e else s
  | none => s

def doHostNotify (h : HostId) (e : NotifyEnd) (s : State) : Answer := .next (s.notifyRow h false e)
def doNotifyRetry (h : HostId) (e : NotifyEnd) (s : State) : Answer := .next (s.notifyRow h true e)

end Sys2Proof.Machine
end

