-- ==== Sys2Proof/Machine/Contain.lean ====
section
/-!
DEFINITION. Single-fault containment (R350-R359): the checker, the sense cross-check, the clock monitors, the scrubber
and the register parity sweep; and the completion of the sequencer's steps (R280, R281).
-/

namespace Sys2Proof.Machine

/-! ### The loop datapath (R350-R353) -/

/-- A handover by the checker or the cross-check counts in MISMATCHES (Table 11.4). -/
def State.countMismatch (s : State) (bit : Nat) : State := (s.raise 13 bit).satInc F.IRQ_CONT_CNT_MISMATCHES

/-- R351: the checker finds a mismatch on a loop under digital control. While its self-test fails, loops go unchecked
(R352). -/
def doCheckMismatch (l : Loop) (s : State) : Answer :=
  s.onlyIf (s.domOn 9 && s.digital l && s.bit F.IRQ_CONT_STATUS_CHECKER_OK) fun s => (s.countMismatch 6).handover l

/-- R352: the result of a self-test. -/
def doCheckerSelfTest (pass : Bool) (s : State) : Answer :=
  s.onlyIf (s.domOn 9) fun s => s.setBit F.IRQ_CONT_STATUS_CHECKER_OK pass

/-- R353: the window ADC and the fallback comparator disagree: more than 8 mV above V_t against below FB_DAC, or more than
10.5 mV below V_t against above it. -/
def State.sensesDiffer (s : State) (x : CrossSense) : Bool :=
  let v : Rat := (s.loop x.loop).vs
  let t : Rat := 250 * s.vt x.loop
  if x.below then decide (t + 8000 < v) else decide (v < t - 10500)

/-- R353, Table 11.2: FALLBACK with the action of FALLBACK_EN = 0. -/
def doSenseXcheck (x : CrossSense) (s : State) : Answer :=
  s.onlyIf (s.loopSt x.loop == 3 && s.bit (F.LP_Ln_FB_FB_TRACK x.loop) && s.sensesDiffer x) fun s =>
    (s.countMismatch 8).fault x.loop 0x0E

/-! ### Clocks (R355) -/

/-- FALLBACK with FALLBACK_EN = 0 on a loop whose channels drive, whether digital or on its fallback loop. -/
def State.loopSafe (s : State) (l : Loop) : State :=
  match s.loopSt l with
  | 2 | 3 | 4 => s.fault l 0x0E
  | 5 => s.faultSev l 0x0E 3 none 0
  | _ => s

def doClkFrc (s : State) : Answer :=
  s.onlyIf (s.power.d0Up && s.bit F.CLK_STATUS_FRC_RUN) fun s => (s.raise 13 9).forAll fun (l : Loop) t => t.loopSafe l

/-- The divided fast RC replaces the slow clock until a power cycle. -/
def doClkSlow (s : State) : Answer :=
  s.onlyIf (s.power.d0Up && s.power.slow != .fastRc) fun s =>
    ((s.raise 13 10).setBit F.CLK_STATUS_XTAL_RUN false).modPower fun p => { p with slow := .fastRc }

/-! ### SRAM and registers (R358, R359) -/

/-- A bank is powered: bank 0 with D2, banks 1-3 with D6 (Table 1.6). -/
def State.bankOn (s : State) (a : Nat) : Bool := s.domOn (if a < 0x80000 then 2 else 6)

/-- The last word that a full pass covers, by its byte offset. -/
def State.scrubEnd (s : State) : Nat := if s.domOn 6 && !s.houseOp then 0x1FFFFC else 0x7FFFC

/-- R358: what the scrubber does with a word that fails. -/
def State.scrubFail (s : State) (a : Nat) : State :=
  let s1 := s.contAddr a 3
  match s.mirrorOf a with
  | some m =>
    if s.sramBad.contains m then s1.raise 13 2
    else ((s1.setSramWord a (s.sramWord m)).raise 13 3).satInc F.IRQ_CONT_CNT_REPAIRS
  | none => s1.raise 13 4

/-- A full pass has ended: SCRUB_PASSES wraps. -/
def State.scrubPass (s : State) : State :=
  (s.setFld F.IRQ_CONT_STATUS_SCRUB_PASSES (s.fld F.IRQ_CONT_STATUS_SCRUB_PASSES + 1)).raise 13 5

def State.scrub (s : State) (a : Nat) : State :=
  let s1 := if s.sramBad.contains a then s.scrubFail a else s
  if a = s.scrubEnd then s1.scrubPass else s1

def doScrubRead (word : Fin 0x80000) (s : State) : Answer :=
  let a := 4 * word.val
  s.onlyIf (s.bankOn a && decide (a ≤ s.scrubEnd)) fun s => s.scrub a

/-- R359: the loop that a register belongs to, by its loop, protection or channel window. -/
def State.windowLoop (s : State) (a : Nat) : Option Loop :=
  if 0x20000 ≤ a ∧ a < 0x23000 then some (asIdx 12 ((a - 0x20000) / 0x400) (by decide))
  else if 0x40000 ≤ a ∧ a < 0x40C00 then some (asIdx 12 ((a - 0x40000) / 0x100) (by decide))
  else if 0x10000 ≤ a ∧ a < 0x12000 then s.chanLoop (asIdx 32 ((a - 0x10000) / 0x100) (by decide))
  else none

/-- A failing register is in a powered domain. -/
def State.sweeps (s : State) (a : Nat) : Bool := match findReg a with | some r => s.domOn r.dom | none => false

/-- One failure of the sweep. -/
def State.parityFails (s : State) (a : Nat) : State :=
  let s1 := (s.raise 13 12).contAddr a 4
  match s.windowLoop a with
  | some l => s1.handover l
  | none => s1

def doRegParitySweep (s : State) : Answer :=
  s.onlyIf (s.domOn 2) fun s => (s.regBad.filter s.sweeps).foldl (fun t a => t.parityFails a) s

/-! ### Steps of the sequencer (R280, R281) -/

def doSeqPowerUpStepComplete (late : Bool) (s : State) : Answer := s.onlyIf s.upDone fun s => s.upComplete late
def doSeqPowerDownStepComplete (s : State) : Answer := s.onlyIf s.downDone fun s => s.downComplete

end Sys2Proof.Machine
end

