-- ==== Sys2Proof/Machine/CoreMem.lean ====
section
/-!
DEFINITION. A core's view of memory (R415-R417, R432): the address map, loads, stores and fetches, the exceptions they
raise and the cycles they take. Waits for a bank are not counted (log 48).
-/

namespace Sys2Proof.Machine

/-- The regions of Table 14.2, with the offset in the region. -/
inductive Region where
  | rom (off : Nat)
  | bits (off : Nat)
  | sram (off : Nat)
  | reg (a : Nat)
  | none
  deriving DecidableEq, Repr

def regionOf (a : Nat) : Region :=
  if a < 0x10000 then .rom a
  else if 0x10000000 ≤ a ∧ a < 0x10000400 then .bits (a - 0x10000000)
  else if 0x20000000 ≤ a ∧ a < 0x20200000 then .sram (a - 0x20000000)
  else if 0x40000000 ≤ a ∧ a < 0x40100000 then .reg (a - 0x40000000)
  else .none

/-- Banks 1-3 answer only while D6 is on (R415). -/
def State.sramOn (s : State) (off : Nat) : Bool := decide (off < 0x80000) || s.domOn 6

/-- Table 14.3: a register access, by the register's domain. -/
def regCycles (a : Nat) : Nat :=
  match findReg a with
  | some r => if r.dom = 2 then 4 else if r.dom = 0 then 8 else 6
  | none => 4

/-- What an access comes to: an exception with the address in EVAL, or a word and the cycles taken. -/
inductive Access where
  | trap (e : Exc) (s : State)
  | done (v : Word) (cycles : Nat) (s : State)

/-- The bytes of a bit space: an unlisted one reads 0 (R421). -/
def bitsDefault (_ : Nat) : Byte := 0

/-- `n` bytes from a memory, lowest address first, as a number (R16). -/
def bytesAt (f : Nat → Byte) (a n : Nat) : Word := BitVec.ofNat 32 (leNat ((List.range n).map fun i => f (a + i)))

/-- What a load, store or fetch meets before its region: the sandbox, then alignment (Table 14.8). A register access
follows R6 instead. -/
def State.addressCheck (s : State) (k : Core) (a n : Nat) : Option Exc :=
  if s.inApp k && !(s.inSandbox a && s.inSandbox (a + n - 1)) then some .sandbox
  else if a % n = 0 then none
  else match regionOf a with | .reg _ => none | _ => some .misalign

/-- A load of `n` bytes (R415-R417, R356, R357, R430). -/
def State.loadAt (s : State) (k : Core) (a n : Nat) (glitch : Bool) : Access :=
  match s.addressCheck k a n with
  | some e => .trap e s
  | none =>
    match regionOf a with
    | .rom off => .done (bytesAt Config.bootRom off n) 2 s
    | .bits off => .done (bytesAt ((s.core k).bits.get bitsDefault) off n) (if glitch then 3 else 1) s
    | .sram off =>
      if !s.sramOn off then .trap .bus s
      else
        let r := s.sramRead (off / 4 * 4) glitch
        if r.ok then .done (bytesAt (r.state.sram.get sramDefault) off n) (2 + r.extra) r.state else .trap .data r.state
    | .reg x =>
      if n ≠ 4 ∨ a % 4 ≠ 0 then .trap .bus s
      else
        let d := s.readReg (.core k) x
        if busCodes.contains d.code then .trap .bus s else .done d.word (regCycles x) d.state
    | .none => .trap .bus s

/-- The low `n` bytes of a word. -/
def lowBytes (v : Word) (n : Nat) : List Byte := (wordBytes v).take n

/-- A store of `n` bytes; a byte or halfword to SRAM reads the word first (Table 14.3). -/
def State.storeAt (s : State) (k : Core) (a n : Nat) (v : Word) : Access :=
  match s.addressCheck k a n with
  | some e => .trap e s
  | none =>
    match regionOf a with
    | .bits off =>
      .done 0 1 (s.modCore k fun c => { c with bits := c.bits.setBytes bitsDefault off (lowBytes v n) })
    | .sram off =>
      if !s.sramOn off then .trap .bus s
      else if n = 4 then .done 0 1 (s.sramStore off (lowBytes v 4))
      else
        let r := s.sramRead (off / 4 * 4) false
        if r.ok then .done 0 (3 + r.extra) (r.state.sramStore off (lowBytes v n)) else .trap .data r.state
    | .reg x =>
      if n ≠ 4 ∨ a % 4 ≠ 0 then .trap .bus s
      else
        let d := s.regWrite x (RegWr.word (.core k) v)
        if busCodes.contains d.code then .trap .bus d.state else .done 0 (regCycles x) d.state
    | .rom _ => .trap .bus s
    | .none => .trap .bus s

/-! ### Fetches (R415, R416, R428, R430, R432) -/

/-- A fetch: the cycles it adds, or the exception or fault it came to. -/
inductive Fetch where
  | ok (extra : Nat) (s : State)
  | stop (s : State)

/-- An exception at the fetch: EPC and EVAL hold the address. -/
def State.fetchTrap (s : State) (k : Core) (e : Exc) : Fetch := .stop (s.exception k e (s.core k).pc (s.core k).pc)

/-- The fetch of the instruction at PC. Code whose word fails in both copies is lost (R428); a word with no mirror is
a data region's. -/
def State.fetch (s : State) (k : Core) : Fetch :=
  let a := (s.core k).pc.toNat
  match s.addressCheck k a 4 with
  | some e => s.fetchTrap k e
  | none =>
    match regionOf a with
    | .rom _ => .ok 1 s
    | .sram off =>
      if !s.sramOn off then s.fetchTrap k .bus
      else
        let r := s.sramRead off false
        if r.ok then .ok r.extra r.state
        else if (s.mirrorOf off).isSome then .stop (r.state.coreFault k 3 0)
        else r.state.fetchTrap k .data
    | _ => if a % 4 = 0 then s.fetchTrap k .bus else s.fetchTrap k .misalign

end Sys2Proof.Machine
end

