-- ==== Sys2Proof/Machine/Services.lean ====
section
/-!
DEFINITION. The service calls of the Gwynpex policy firmware (R434, Table 14.10), which an SVC of the applet that it has
invoked holds whole: the exception, the service and the return. Of other firmware an SVC is the exception alone (log 61).
-/

namespace Sys2Proof.Machine

/-- Return codes (R334, R434). -/
def svcOk : Word := 0x0000
def svcBadArg : Word := 0x8001
def svcNotAllowed : Word := 0x8002
def svcMbxFull : Word := 0x8003

/-- A call returns: the code in w1, a value in w2. -/
def State.svcReturn (s : State) (code : Word) (value : Option Word := none) : State :=
  let s1 := s.setW 3 1 code
  match value with
  | some v => s1.setW 3 2 v
  | none => s1

/-- The registers that READ returns. -/
def svcReadable (n : RegName) : Bool :=
  [RegName.LP_Ln_STATUS, .LP_Ln_VNOW, .LP_Ln_IRAIL, .PD_Pp_STATUS, .PD_Pp_VI, .PP_Pp_MEAS, .PP_BUD_STATUS, .THM_STATUS,
   .THM_MAX, .TCV_INn_RES].contains n

/-- READ: w2 is the register, if it is one of those listed. -/
def State.svcRead (s : State) (a : Nat) : State :=
  match findReg a with
  | some r =>
    if svcReadable r.cls.name then
      let d := s.readReg (.core 3) a
      d.state.svcReturn svcOk (some d.word)
    else s.svcReturn svcNotAllowed
  | none => s.svcReturn svcNotAllowed

/-- A call that writes one field for C3. -/
def State.svcWrite (s : State) (ok : Bool) (f : Fld) (v : Nat) : State :=
  if ok then (s.regWrite f.addr (RegWr.field (.core 3) f v)).state.svcReturn svcOk else s.svcReturn svcBadArg

/-- The applet that runs has the channel from its table. -/
def State.svcGranted (s : State) (n : Nat) : Bool :=
  match s.applet with
  | some i => Config.appletChannel i.val n
  | none => false

/-- SEND: a word to a DIR = 1 channel granted to the applet. -/
def State.svcSend (s : State) (n : Nat) (w : Word) : State :=
  if 256 ≤ n then s.svcReturn svcBadArg
  else if !s.svcGranted n || (s.mbxCfg n).1 != 1 then s.svcReturn svcNotAllowed
  else
    match s.mbxSend (.core 3) n w with
    | (t, 0) => t.svcReturn svcOk
    | (t, 9) => t.svcReturn svcMbxFull
    | (t, _) => t.svcReturn svcNotAllowed

/-- TAKE: the channel's word, answered with CODE 0x0000 (R331). -/
def State.svcTake (s : State) (n : Nat) : State :=
  if 256 ≤ n then s.svcReturn svcBadArg
  else if !s.svcGranted n then s.svcReturn svcNotAllowed
  else
    match s.mbxAck (.core 3) n 0 with
    | (t, 0) => t.svcReturn svcOk (some (s.reg (A.MBX_CHn_DATA n)))
    | (t, _) => t.svcReturn svcNotAllowed

/-- EXIT: the invocation ends, and the firmware goes on with flags, IE and a PC of its own (log 61). -/
def State.svcExit (s : State) : State :=
  let (f, s1) := s.fresh 32
  let (pc, s2) := s1.fresh 32
  { (s2.modCore 3 fun c => { c with psr := f &&& 0x2F#32, pc := pc }) with applet := none }

/-- Table 14.10, by the number in EVAL; a number that it does not list is refused (log 61). -/
def State.service (s : State) (num : Nat) : State :=
  let a := (s.wreg 3 1).toNat
  let b := (s.wreg 3 2).toNat
  match num with
  | 1 => s.svcRead a
  | 2 => s.svcReturn svcOk (some (BitVec.ofNat 32 s.power.ms))
  | 3 => s.svcWrite (decide (a < 4) && decide (b < 8)) (F.PP_Pp_BUD_PRIO a) b
  | 4 => s.svcWrite (decide (a < 4) && decide (b < 1024)) (F.PP_Pp_BUD_FLOOR a) b
  | 5 => s.svcWrite (decide (a < 8) && decide (b < 1024)) (F.PP_RAILk_CAP_MIN a) b
  | 6 => s.svcSend a (s.wreg 3 2)
  | 7 => s.svcTake a
  | _ => s.svcReturn svcBadArg

/-- The applet that C3 runs is one that the policy firmware has invoked (R433). -/
def State.underPolicy (s : State) (k : Core) : Bool := k == 3 && s.inApp 3 && s.applet.isSome

/-- R426, R427, R434: the exception of an SVC, the service, and the return to the applet. -/
def State.served (s : State) (imm : BitVec 16) : State :=
  let s1 := s.exception 3 .svc ((s.core 3).pc + 4) (imm.setWidth 32)
  if imm = 0 then s1.svcExit else (s1.service imm.toNat).modCore 3 CoreState.eret

end Sys2Proof.Machine
end

