-- ==== Sys2Proof/Machine/Isa.lean ====
section
/-!
DEFINITION. The Pletra instructions (R419-R430, Table 14.7): a command is the instruction that core k executes at its PC.
-/

namespace Sys2Proof.Machine

/-! ### Running an instruction -/

/-- What an instruction comes to: an exception with its EVAL, or a state, the next PC and the cycles taken. -/
inductive Ran where
  | trap (e : Exc) (eval : Word) (s : State)
  | go (s : State) (pc : Word) (cycles : Nat)

/-- The address after the instruction. -/
def State.nextPc (s : State) (k : Core) : Word := (s.core k).pc + 4

/-- PC moves and the cycles pass, unless the instruction's own effect has stopped the core. -/
def State.finish (s : State) (k : Core) (r : Ran) : State :=
  match r with
  | .trap e v t => t.exception k e (if e = .svc then s.nextPc k else (s.core k).pc) v
  | .go t pc n => if t.coreSt k == 1 then (t.modCore k fun c => { c with pc := pc }).spend k n else t

/-- Core k, running, fetches and executes. -/
def State.instr (s : State) (k : Core) (f : State → Ran) : Answer :=
  s.onlyIf (s.coreSt k == 1) fun s =>
    match s.fetch k with
    | .stop t => t
    | .ok n t => (t.spend k n).finish k (f (t.spend k n))

/-- An instruction that only computes a register, in one cycle. -/
def State.compute (s : State) (k : Core) (d : Fin 16) (f : State → Word) : Answer :=
  s.instr k fun t => .go (t.setW k d (f t)) (t.nextPc k) 1

/-- Two sources. -/
def State.alu (s : State) (k : Core) (d a b : Fin 16) (f : Word → Word → Word) : Answer :=
  s.compute k d fun t => f (t.wreg k a) (t.wreg k b)

/-- One source. -/
def State.alu1 (s : State) (k : Core) (d a : Fin 16) (f : Word → Word) : Answer := s.compute k d fun t => f (t.wreg k a)

/-! ### Values (R423) -/

/-- A shift amount: rb[4:0]. -/
def shiftOf (w : Word) : Nat := w.toNat % 32

/-- The low n bits. -/
def lowMask (n : Nat) : Word := BitVec.ofNat 32 (2 ^ n - 1)

/-- Leading zeros, 0-32. -/
def leadingZeros (w : Word) : Nat := ((List.range 32).find? fun i => w.getLsbD (31 - i)).getD 32

/-- The number of 1 bits. -/
def popCount (w : Word) : Nat := ((List.range 32).filter fun i => w.getLsbD i).length

/-- BFX: bits beyond 31 read 0. -/
def fieldOf (w : Word) (pos lm1 : Fin 32) : Word := (w >>> pos.val) &&& lowMask (lm1.val + 1)

/-- BFXS: sign-extended from bit len - 1 of the field. -/
def sfieldOf (w : Word) (pos lm1 : Fin 32) : Word :=
  let v := fieldOf w pos lm1
  if v.getLsbD lm1.val then v ||| ~~~(lowMask (lm1.val + 1)) else v

/-- BFI: bits up to 31. -/
def fieldInto (d a : Word) (pos lm1 : Fin 32) : Word :=
  let m := lowMask (lm1.val + 1) <<< pos.val
  (d &&& ~~~m) ||| ((a <<< pos.val) &&& m)

/-- PERM: byte j is the byte that sel[2j + 1 : 2j] names. -/
def permuted (w : Word) (sel : Byte) : Word :=
  let b (j : Nat) : Byte := w.extractLsb' (8 * (sel.toNat / 4 ^ j % 4)) 8
  b 3 ++ b 2 ++ b 1 ++ b 0

/-! ### Flags and conditions (R420, Table 14.6) -/

def withFlags (psr : Word) (z n c v : Bool) : Word :=
  setBitW (setBitW (setBitW (setBitW psr psrZ z) psrN n) psrC c) psrV v

/-- CMP. -/
def cmpFlags (psr a b : Word) : Word :=
  withFlags psr (a - b == 0) (a - b).msb (decide (b.toNat ≤ a.toNat)) (decide ((a - b).toInt ≠ a.toInt - b.toInt))

/-- TST. -/
def tstFlags (psr a b : Word) : Word := withFlags psr (a &&& b == 0) (a &&& b).msb false false

def State.setPsr (s : State) (k : Core) (f : Word → Word) : State := s.modCore k fun c => { c with psr := f c.psr }

/-- Table 14.6. -/
def condHolds (psr : Word) (c : Fin 15) : Bool :=
  let z := psr.getLsbD psrZ
  let n := psr.getLsbD psrN
  let cc := psr.getLsbD psrC
  let v := psr.getLsbD psrV
  match c.val with
  | 0 => true | 1 => z | 2 => !z | 3 => n != v | 4 => n == v | 5 => !cc | 6 => cc | 7 => n | 8 => !n | 9 => v | 10 => !v
  | 11 => !z && n == v | 12 => z || n != v | 13 => cc && !z | _ => !cc || z

/-! ### Arithmetic and logic -/

def doAdd (k : Core) (rd ra rb : Fin 16) (s : State) : Answer := s.alu k rd ra rb fun a b => a + b
def doSub (k : Core) (rd ra rb : Fin 16) (s : State) : Answer := s.alu k rd ra rb fun a b => a - b
def doAnd (k : Core) (rd ra rb : Fin 16) (s : State) : Answer := s.alu k rd ra rb fun a b => a &&& b
def doOr (k : Core) (rd ra rb : Fin 16) (s : State) : Answer := s.alu k rd ra rb fun a b => a ||| b
def doXor (k : Core) (rd ra rb : Fin 16) (s : State) : Answer := s.alu k rd ra rb fun a b => a ^^^ b
def doShl (k : Core) (rd ra rb : Fin 16) (s : State) : Answer := s.alu k rd ra rb fun a b => a <<< shiftOf b
def doShr (k : Core) (rd ra rb : Fin 16) (s : State) : Answer := s.alu k rd ra rb fun a b => a >>> shiftOf b
def doSar (k : Core) (rd ra rb : Fin 16) (s : State) : Answer := s.alu k rd ra rb fun a b => a.sshiftRight (shiftOf b)
def doRor (k : Core) (rd ra rb : Fin 16) (s : State) : Answer := s.alu k rd ra rb fun a b => a.rotateRight (shiftOf b)

def doCmp (k : Core) (ra rb : Fin 16) (s : State) : Answer :=
  s.instr k fun t => .go (t.setPsr k fun p => cmpFlags p (t.wreg k ra) (t.wreg k rb)) (t.nextPc k) 1
def doTst (k : Core) (ra rb : Fin 16) (s : State) : Answer :=
  s.instr k fun t => .go (t.setPsr k fun p => tstFlags p (t.wreg k ra) (t.wreg k rb)) (t.nextPc k) 1
def doCmpi (k : Core) (ra : Fin 16) (imm : BitVec 18) (s : State) : Answer :=
  s.instr k fun t => .go (t.setPsr k fun p => cmpFlags p (t.wreg k ra) (imm.signExtend 32)) (t.nextPc k) 1

def doAddi (k : Core) (rd ra : Fin 16) (imm : BitVec 18) (s : State) : Answer := s.alu1 k rd ra fun a => a + imm.signExtend 32
def doAndi (k : Core) (rd ra : Fin 16) (imm : BitVec 18) (s : State) : Answer := s.alu1 k rd ra fun a => a &&& imm.setWidth 32
def doOri (k : Core) (rd ra : Fin 16) (imm : BitVec 18) (s : State) : Answer := s.alu1 k rd ra fun a => a ||| imm.setWidth 32
def doXori (k : Core) (rd ra : Fin 16) (imm : BitVec 18) (s : State) : Answer := s.alu1 k rd ra fun a => a ^^^ imm.setWidth 32
def doShli (k : Core) (rd ra : Fin 16) (n : Fin 32) (s : State) : Answer := s.alu1 k rd ra fun a => a <<< n.val
def doShri (k : Core) (rd ra : Fin 16) (n : Fin 32) (s : State) : Answer := s.alu1 k rd ra fun a => a >>> n.val
def doSari (k : Core) (rd ra : Fin 16) (n : Fin 32) (s : State) : Answer := s.alu1 k rd ra fun a => a.sshiftRight n.val
def doRori (k : Core) (rd ra : Fin 16) (n : Fin 32) (s : State) : Answer := s.alu1 k rd ra fun a => a.rotateRight n.val
def doLui (k : Core) (rd : Fin 16) (imm : BitVec 22) (s : State) : Answer := s.compute k rd fun _ => imm.setWidth 32 <<< 10
def doClz (k : Core) (rd ra : Fin 16) (s : State) : Answer := s.alu1 k rd ra fun a => BitVec.ofNat 32 (leadingZeros a)
def doPopc (k : Core) (rd ra : Fin 16) (s : State) : Answer := s.alu1 k rd ra fun a => BitVec.ofNat 32 (popCount a)
def doBfx (k : Core) (rd ra : Fin 16) (pos lm1 : Fin 32) (s : State) : Answer := s.alu1 k rd ra fun a => fieldOf a pos lm1
def doBfxs (k : Core) (rd ra : Fin 16) (pos lm1 : Fin 32) (s : State) : Answer := s.alu1 k rd ra fun a => sfieldOf a pos lm1
def doBfi (k : Core) (rd ra : Fin 16) (pos lm1 : Fin 32) (s : State) : Answer :=
  s.alu k rd rd ra fun d a => fieldInto d a pos lm1
def doPerm (k : Core) (rd ra : Fin 16) (sel : Byte) (s : State) : Answer := s.alu1 k rd ra fun a => permuted a sel
def doSel (k : Core) (rd ra rb : Fin 16) (cond : Fin 15) (s : State) : Answer :=
  s.compute k rd fun t => if condHolds (t.core k).psr cond then t.wreg k ra else t.wreg k rb

/-! ### Loads and stores -/

/-- ra + simm18. -/
def State.effAddr (s : State) (k : Core) (ra : Fin 16) (imm : BitVec 18) : Word := s.wreg k ra + imm.signExtend 32

/-- A load of n bytes; `g` extends the value. -/
def State.loadRow (s : State) (k : Core) (rd ra : Fin 16) (imm : BitVec 18) (n : Nat) (glitch : Bool) (g : Word → Word) :
    Answer :=
  s.instr k fun t =>
    let a := t.effAddr k ra imm
    match t.loadAt k a.toNat n glitch with
    | .trap e u => .trap e a u
    | .done v c u => .go (u.setW k rd (g v)) (t.nextPc k) c

/-- A store of n bytes of rd. -/
def State.storeRow (s : State) (k : Core) (rd ra : Fin 16) (imm : BitVec 18) (n : Nat) : Answer :=
  s.instr k fun t =>
    let a := t.effAddr k ra imm
    match t.storeAt k a.toNat n (t.wreg k rd) with
    | .trap e u => .trap e a u
    | .done _ c u => .go u (t.nextPc k) c

def doLdw (k : Core) (rd ra : Fin 16) (imm : BitVec 18) (glitch : Bool) (s : State) : Answer :=
  s.loadRow k rd ra imm 4 glitch id
def doLdh (k : Core) (rd ra : Fin 16) (imm : BitVec 18) (glitch : Bool) (s : State) : Answer :=
  s.loadRow k rd ra imm 2 glitch id
def doLdhs (k : Core) (rd ra : Fin 16) (imm : BitVec 18) (glitch : Bool) (s : State) : Answer :=
  s.loadRow k rd ra imm 2 glitch fun v => (v.setWidth 16).signExtend 32
def doLdb (k : Core) (rd ra : Fin 16) (imm : BitVec 18) (glitch : Bool) (s : State) : Answer :=
  s.loadRow k rd ra imm 1 glitch id
def doLdbs (k : Core) (rd ra : Fin 16) (imm : BitVec 18) (glitch : Bool) (s : State) : Answer :=
  s.loadRow k rd ra imm 1 glitch fun v => (v.setWidth 8).signExtend 32
def doStw (k : Core) (rd ra : Fin 16) (imm : BitVec 18) (s : State) : Answer := s.storeRow k rd ra imm 4
def doSth (k : Core) (rd ra : Fin 16) (imm : BitVec 18) (s : State) : Answer := s.storeRow k rd ra imm 2
def doStb (k : Core) (rd ra : Fin 16) (imm : BitVec 18) (s : State) : Answer := s.storeRow k rd ra imm 1

/-! ### The bit space (R421) -/

/-- Bit n of core k's bit space. -/
def State.spaceBit (s : State) (k : Core) (n : Nat) : Bool := ((s.core k).bits.get bitsDefault (n / 8)).getLsbD (n % 8)

def State.setSpaceBit (s : State) (k : Core) (n : Nat) (b : Bool) : State :=
  s.modCore k fun c =>
    let old := c.bits.get bitsDefault (n / 8)
    let m : Byte := 1 <<< (n % 8)
    { c with bits := c.bits.set bitsDefault (n / 8) (if b then old ||| m else old &&& ~~~m) }

/-- The word of a bit, as EVAL names it. -/
def bitAddr (n : Nat) : Word := BitVec.ofNat 32 (0x10000000 + 4 * (n / 32))

/-- An instruction on a bit; an applet names bits 4 096-8 191 (R432). `num` gives the bit. -/
def State.bitRow (s : State) (k : Core) (num : State → Nat) (f : State → Nat → Ran) : Answer :=
  s.instr k fun t => if t.inApp k && decide (num t < 4096) then .trap .sandbox (bitAddr (num t)) t else f t (num t)

/-- A bit takes a value. -/
def State.bitSet (s : State) (k : Core) (num : State → Nat) (f : Bool → Bool) : Answer :=
  s.bitRow k num fun t n => .go (t.setSpaceBit k n (f (t.spaceBit k n))) (t.nextPc k) 1

/-- BTST: Z is 1 if the bit is 0. -/
def State.bitTest (s : State) (k : Core) (num : State → Nat) : Answer :=
  s.bitRow k num fun t n => .go (t.setPsr k fun p => setBitW p psrZ (!t.spaceBit k n)) (t.nextPc k) 1

/-- A target `off` words from the instruction (R422). -/
def State.target_ (s : State) (k : Core) (off : Int) : Word := (s.core k).pc + BitVec.ofInt 32 (4 * off)

/-- A branch, 2 cycles if taken. -/
def State.branchIf (s : State) (k : Core) (b : Bool) (off : Int) : Ran :=
  if b then .go s (s.target_ k off) 2 else .go s (s.nextPc k) 1

/-- The bit that ra[12:0] names. -/
def State.regBit (s : State) (k : Core) (ra : Fin 16) : Nat := (s.wreg k ra).toNat % 8192

def doBset (k : Core) (bit : BitVec 13) (s : State) : Answer := s.bitSet k (fun _ => bit.toNat) fun _ => true
def doBclr (k : Core) (bit : BitVec 13) (s : State) : Answer := s.bitSet k (fun _ => bit.toNat) fun _ => false
def doBtgl (k : Core) (bit : BitVec 13) (s : State) : Answer := s.bitSet k (fun _ => bit.toNat) fun b => !b
def doBtst (k : Core) (bit : BitVec 13) (s : State) : Answer := s.bitTest k fun _ => bit.toNat
def doBbs (k : Core) (bit off : BitVec 13) (s : State) : Answer :=
  s.bitRow k (fun _ => bit.toNat) fun t n => t.branchIf k (t.spaceBit k n) off.toInt
def doBbc (k : Core) (bit off : BitVec 13) (s : State) : Answer :=
  s.bitRow k (fun _ => bit.toNat) fun t n => t.branchIf k (!t.spaceBit k n) off.toInt
def doBoprSet (k : Core) (ra : Fin 16) (s : State) : Answer := s.bitSet k (fun t => t.regBit k ra) fun _ => true
def doBoprClear (k : Core) (ra : Fin 16) (s : State) : Answer := s.bitSet k (fun t => t.regBit k ra) fun _ => false
def doBoprToggle (k : Core) (ra : Fin 16) (s : State) : Answer := s.bitSet k (fun t => t.regBit k ra) fun b => !b
def doBoprTest (k : Core) (ra : Fin 16) (s : State) : Answer := s.bitTest k fun t => t.regBit k ra
def doBoprRead (k : Core) (rd ra : Fin 16) (s : State) : Answer :=
  s.bitRow k (fun t => t.regBit k ra) fun t n =>
    .go (t.setW k rd (BitVec.ofNat 32 (t.spaceBit k n).toNat)) (t.nextPc k) 1

/-! ### Branches and jumps -/

def doBcond (k : Core) (cond : Fin 15) (off : BitVec 22) (s : State) : Answer :=
  s.instr k fun t => t.branchIf k (condHolds (t.core k).psr cond) off.toInt
def doCall (k : Core) (off : BitVec 26) (s : State) : Answer :=
  s.instr k fun t => .go (t.setW k 15 (t.nextPc k)) (t.target_ k off.toInt) 2
def doJr (k : Core) (ra : Fin 16) (s : State) : Answer := s.instr k fun t => .go t (t.wreg k ra) 2
def doJlr (k : Core) (rd ra : Fin 16) (s : State) : Answer :=
  s.instr k fun t => .go (t.setW k rd (t.nextPc k)) (t.wreg k ra) 2

/-! ### The multiplier (R425) -/

/-- Issued in cycle t, the result lands at the end of cycle t + 3. -/
def State.mulRow (s : State) (k : Core) (kind : MulKind) (ra rb : Fin 16) : Answer :=
  s.instr k fun t =>
    .go (t.modCore k fun c => { c with mul := c.mul ++ [⟨kind, t.wreg k ra, t.wreg k rb, 4⟩] }) (t.nextPc k) 1

def doMulu (k : Core) (ra rb : Fin 16) (s : State) : Answer := s.mulRow k .mulu ra rb
def doMuls (k : Core) (ra rb : Fin 16) (s : State) : Answer := s.mulRow k .muls ra rb
def doMacs (k : Core) (ra rb : Fin 16) (s : State) : Answer := s.mulRow k .macs ra rb
def doMulq (k : Core) (ra rb : Fin 16) (s : State) : Answer := s.mulRow k .mulq ra rb
def doMacq (k : Core) (ra rb : Fin 16) (s : State) : Answer := s.mulRow k .macq ra rb

/-- The cycles pass in which the oldest instruction in flight lands. -/
def doMultiplierResult (k : Core) (s : State) : Answer :=
  s.onlyIf (s.coreSt k == 1) fun s =>
    match (s.core k).mul with
    | m :: _ => s.spend k m.left
    | [] => s

/-! ### Control registers (R419, R432) -/

/-- A control register as MFC reads it. -/
def State.creg (s : State) (k : Core) (n : Nat) : Word :=
  let c := s.core k
  match n with
  | 0 => c.psr | 1 => c.epc | 2 => c.ecause | 3 => c.eval | 4 => c.mlo | 5 => c.mhi | 6 => c.cycle
  | 7 => BitVec.ofNat 32 k.val | 8 => c.vbase | 9 => c.esave | _ => c.spsr

/-- A control register takes a word: PSR keeps EXL and APP, and bits given as 0 stay 0 (Table 14.4). -/
def CoreState.setCreg (c : CoreState) (n : Nat) (w : Word) : CoreState :=
  match n with
  | 0 => { c with psr := (c.psr &&& 0x50#32) ||| (w &&& 0x2F#32) }
  | 1 => { c with epc := w }
  | 2 => { c with ecause := w &&& 0xF#32 }
  | 3 => { c with eval := w }
  | 4 => { c with mlo := w }
  | 5 => { c with mhi := w }
  | 8 => { c with vbase := w &&& 0xFFFFFF00#32 }
  | 9 => { c with esave := w }
  | 10 => { c with spsr := w }
  | _ => c

/-- What an applet may read, and write. -/
def appletReads : List Nat := [0, 4, 5, 6, 7]
def appletWrites : List Nat := [4, 5]

def doMfc (k : Core) (rd : Fin 16) (creg : BitVec 6) (s : State) : Answer :=
  s.instr k fun t =>
    let n := creg.toNat
    if 11 ≤ n then .trap .illegal (Pletra.encode (.mfc rd creg)) t
    else if t.inApp k && !appletReads.contains n then .trap .sandbox (creg.setWidth 32) t
    else .go (t.setW k rd (t.creg k n)) (t.nextPc k) 1

/-- R425: an MTC to MLO or MHI waits until no multiplier instruction is in flight. -/
def State.mulWait (s : State) (k : Core) (n : Nat) : Nat :=
  if n = 4 ∨ n = 5 then ((s.core k).mul.map fun m => m.left).foldl max 0 else 0

def doMtc (k : Core) (ra : Fin 16) (creg : BitVec 6) (s : State) : Answer :=
  s.instr k fun t =>
    let n := creg.toNat
    if 11 ≤ n ∨ n = 6 ∨ n = 7 then .trap .illegal (Pletra.encode (.mtc ra creg)) t
    else if t.inApp k && !appletWrites.contains n then .trap .sandbox (creg.setWidth 32) t
    else
      let u := t.spend k (t.mulWait k n)
      .go (u.modCore k fun c => c.setCreg n (t.wreg k ra)) (t.nextPc k) 1

/-! ### System (R426, R427, R429) -/

/-- R426: the service call exception; the policy firmware's own applet is served within the step (R434, log 61). -/
def doSvc (k : Core) (imm : BitVec 16) (s : State) : Answer :=
  s.instr k fun t =>
    if t.underPolicy k then let u := t.served imm; .go u (u.core k).pc 0 else .trap .svc (imm.setWidth 32) t

/-- An instruction refused to an applet; what EVAL takes is open, as it names neither an address nor a register (log 1). -/
def State.appletRefuses (s : State) : Ran := let (v, t) := s.fresh 32; .trap .sandbox v t

def doEret (k : Core) (s : State) : Answer :=
  s.instr k fun t =>
    if !t.psrBit k psrExl then .trap .illegal (Pletra.encode .eret) t
    else if t.inApp k then t.appletRefuses
    else .go ((t.spend k 2).modCore k CoreState.eret) (t.core k).epc 0

/-- WFE: the core waits unless an enabled event is pending. -/
def doWfe (k : Core) (s : State) : Answer :=
  s.instr k fun t =>
    if t.inApp k then t.appletRefuses
    else
      let u := (t.modCore k fun c => { c with pc := t.nextPc k }).spend k 1
      if u.evtDue k then .go u (t.nextPc k) 0 else .go (u.setFld (F.CORE_Ck_STATUS_STATE k) 2) (t.nextPc k) 0

/-- FENCE: a store completes in its own step, so it never waits (log 48). -/
def doFence (k : Core) (s : State) : Answer := s.instr k fun t => .go t (t.nextPc k) 1

/-- R424: a word that is no instruction. -/
def doIllegalInstruction (k : Core) (w : Word) (s : State) : Answer :=
  if (Pletra.decode w).isSome then .next s else s.instr k fun t => .trap .illegal w t

/-! ### Events, timers and debug (R429, R431, R433, R348) -/

def doEvent (k : Core) (s : State) : Answer := .next ((s.wakeCore k).takeEvent k)
def doBudget (k : Core) (s : State) : Answer := .next (s.takeBudget k)

def doWatchdogExpiry (k : Core) (s : State) : Answer := s.onlyIf (s.coreActs k) fun s => s.coreFault k 2 0

/-- The timer reaches 0: it sets TIMER and stops. -/
def State.timerEnd (s : State) (k : Core) : State :=
  (s.setFld (F.CORE_Ck_TIMER_COUNT k) 0).setFld (F.CORE_Ck_EVT_PEND_TIMER k) 1

def doCoreTimerExpiry (k : Core) (s : State) : Answer :=
  s.onlyIf (s.domOn 2 && s.fld (F.CORE_Ck_TIMER_COUNT k) != 0 && s.coreSt k != 3) fun s => s.timerEnd k

/-- R433: the policy firmware enters applet n by an ERET: LEFT, w1, w2, and the entry in the sandbox. The flags and IE
that it gives the applet are its own (log 1). -/
def State.invoke (s : State) (n : Fin 8) (event : Fin 4) (arg : Word) (entry : BitVec 16) (budget : BitVec 24) : State :=
  let (f, s1) := s.fresh 32
  let psr := (f &&& 0x2F#32) ||| 0x40#32
  let pc := BitVec.ofNat 32 (0x20000000 + s.sbxBase + entry.toNat)
  let s2 := ((s1.setW 3 1 (BitVec.ofNat 32 event.val)).setW 3 2 arg).modCore 3 fun c =>
    { c with spsr := psr, epc := pc, psr := psr, pc := pc }
  let s3 := (s2.setFld F.CORE_SBX_LEFT_LEFT budget.toNat).setFld (F.CORE_Ck_STATUS_STATE 3) 1
  { s3 with applet := some n, appletsDue := s3.appletsDue.filter (· != n) }

/-- One applet runs at a time, in table order, and none from READY until ALIVE of C3's own handover (R443); an event that
cannot be taken now is due once. -/
def State.appletDue (s : State) (n : Fin 8) : State :=
  if s.appletsDue.contains n then s else { s with appletsDue := s.appletsDue ++ [n] }

def doAppletInvocation (n : Fin 8) (event : Fin 4) (arg : Word) (entry : BitVec 16) (budget : BitVec 24) (s : State) :
    Answer :=
  let free := s.coreActs 3 && s.applet.isNone && !s.psrBit 3 psrExl && !(s.appletsDue.any fun m => decide (m < n))
    && s.fld (F.LIVE_HOk_STATE 3) != 3
  .next (if free then s.invoke n event arg entry budget else s.appletDue n)

def doCoreHalt (k : Core) (s : State) : Answer :=
  s.onlyIf (s.debugUnlocked && (s.coreSt k == 1 || s.coreSt k == 2)) fun s =>
    (s.modCore k fun c => { c with halted := s.coreSt k }).setFld (F.CORE_Ck_STATUS_STATE k) 3

def doCoreResume (k : Core) (s : State) : Answer :=
  s.onlyIf (s.coreSt k == 3) fun s => s.setFld (F.CORE_Ck_STATUS_STATE k) (s.core k).halted

def doTestEnChange (high : Bool) (s : State) : Answer := .next (s.modPower fun p => { p with testEn := high })

end Sys2Proof.Machine
end

