-- ==== Sys2Proof/Machine/Watch.lean ====
section
/-!
DEFINITION. What every command ends with: what its change of state brings about at once, by rules that name a condition
and no command of their own.
-/

namespace Sys2Proof.Machine

/-- The start completes (R68), a conversion is selected (R370), a VERIFY is answered (R440), a core's boundary comes
(R426), domains whose conditions have ended turn off (R37), C2 answers what waits (R238) and leaves EPR mode (R224), a
rail loop that has left regulation is outside its window (R277), and notifies and attention pulses fall due (R175, R313). -/
def State.settled (s t : State) : State :=
  s.noteChange (((((((t.settleStart).selectConv).settleVerify).settleCores).settleDomains).settlePorts).settleInside)

/-- A row's answer, with what it brings about. -/
def State.watch (s : State) (a : Answer) : Answer :=
  match a with
  | .next t => .next (s.settled t)
  | .fault f => .fault f
  | .refused r => .refused r

end Sys2Proof.Machine
end

