-- ==== Sys2Proof/Machine/Tick.lean ====
section
/-!
DEFINITION. The idle step: a millisecond passes with no command (log 49). The millisecond and operating-minute counters
count, the cores' timers run down, and their watchdogs run (R397, R403, R431).
-/

namespace Sys2Proof.Machine

/-- The millisecond counter runs while the house input is good; each 60 000th adds an operating minute (R397, R403). -/
def State.tickClock (s : State) : State :=
  if !s.bit F.SUPPLY_STATUS_HOUSE_OK then s
  else
    s.modPower fun p =>
      { p with ms := (p.ms + 1) % 2 ^ 32, opmin := if (p.ms + 1) % 60000 = 0 then (p.opmin + 1) % 2 ^ 32 else p.opmin }

/-- A core's timer after 1 000 us; a halted core's stands still (R431). -/
def State.tickTimer (s : State) (k : Core) : State :=
  let n := s.fld (F.CORE_Ck_TIMER_COUNT k)
  if !s.domOn 2 || n == 0 || s.coreSt k == 3 then s
  else if n ≤ 1000 then s.timerEnd k else s.setFld (F.CORE_Ck_TIMER_COUNT k) (n - 1000)

/-- The watchdog interval; PERIOD 0 acts as 1 (Table 14.11). -/
def State.wdogPeriod (s : State) (k : Core) : Nat := max (s.fld (F.CORE_Ck_WDOG_PERIOD k)) 1

/-- A core's watchdog after 1 ms: it runs from release (R431). -/
def State.tickDog (s : State) (k : Core) : State :=
  if !s.coreActs k then s
  else if s.wdogPeriod k ≤ (s.core k).wdog + 1 then s.coreFault k 2 0
  else s.modCore k fun c => { c with wdog := c.wdog + 1 }

/-- A millisecond. -/
def State.tick (s : State) : State := s.tickClock.forAll fun (k : Core) t => (t.tickTimer k).tickDog k

end Sys2Proof.Machine
end

