-- ==== Sys2Proof/Machine/Rows.lean ====
section
/-!
DEFINITION. The meaning of every command: its row, and what its change brings about (Watch).
-/

namespace Sys2Proof.Machine

/-- HOUSE_INPUT_GOOD (R29). -/
def execHouseInputGood (src : Fin 5) (s : State) : Answer := s.watch (doHouseInputGood src s)
/-- HOUSE_INPUT_FAIL (R31). -/
def execHouseInputFail (fast : Bool) (s : State) : Answer := s.watch (doHouseInputFail fast s)
/-- D0_RESET (R31). -/
def execD0Reset (s : State) : Answer := s.watch (doD0Reset s)
/-- SUPPLY_MONITOR_CHANGE (R29). -/
def execSupplyMonitorChange (m : Monitor) (good hi : Bool) (src : Fin 5) (s : State) : Answer :=
  s.watch (doSupplyMonitorChange m good hi src s)
/-- VDD_CORE_QUALIFIED (R26). -/
def execVddCoreQualified (s : State) : Answer := s.watch (doVddCoreQualified s)
/-- SUPPLY_LOSS (R30). -/
def execSupplyLoss (m : FullSupply) (s : State) : Answer := s.watch (doSupplyLoss m s)
/-- VCONN_IN_BAD (R226). -/
def execVconnInBad (s : State) : Answer := s.watch (doVconnInBad s)
/-- LF_SRC_WRITE (R33). -/
def execLfSrcWrite (who : Writer) (crystal : Bool) (s : State) : Answer := s.watch (doLfSrcWrite who crystal s)
/-- CRYSTAL_QUALIFIED (R33). -/
def execCrystalQualified (s : State) : Answer := s.watch (doCrystalQualified s)
/-- XTAL_FAIL (R33). -/
def execXtalFail (s : State) : Answer := s.watch (doXtalFail s)
/-- SYNC_SEEN_RISE (R34). -/
def execSyncSeenRise (hz : Nat) (s : State) : Answer := s.watch (doSyncSeenRise hz s)
/-- SYNC_LOST (R111). -/
def execSyncLost (s : State) : Answer := s.watch (doSyncLost s)
/-- PLL_LOCK (R35). -/
def execPllLock (s : State) : Answer := s.watch (doPllLock s)
/-- CLOCK_MONITOR_TRIP (R114). -/
def execClockMonitorTrip (s : State) : Answer := s.watch (doClockMonitorTrip s)
/-- PWR_DOM_REQ_WRITE (R37). -/
def execPwrDomReqWrite (who : Writer) (v : BitVec 12) (s : State) : Answer := s.watch (doPwrDomReqWrite who v s)
/-- DOMAIN_POWER_UP (R38). -/
def execDomainPowerUp (d : Dom) (s : State) : Answer := s.watch (doDomainPowerUp d s)
/-- DORMANT_ENTER (R40). -/
def execDormantEnter (who : Writer) (s : State) : Answer := s.watch (doDormantEnter who s)
/-- ATTACH_WATCH_DETECT (R41). -/
def execAttachWatchDetect (p : Port) (s : State) : Answer := s.watch (doAttachWatchDetect p s)
/-- WAKE (R42). -/
def execWake (src : WakeSrc) (s : State) : Answer := s.watch (doWake src s)
/-- WAKE_TIMER (R53). -/
def execWakeTimer (s : State) : Answer := s.watch (doWakeTimer s)
/-- RESETN_LOW (R75). -/
def execResetnLow (s : State) : Answer := s.watch (doResetnLow s)
/-- RESETN_RISE (R75). -/
def execResetnRise (s : State) : Answer := s.watch (doResetnRise s)
/-- KEEPER_READ (R470). -/
def execKeeperRead (s : State) : Answer := s.watch (doKeeperRead s)
/-- START_ATTEMPT_BEGIN (R54). -/
def execStartAttemptBegin (s : State) : Answer := s.watch (doStartAttemptBegin s)
/-- FLASH_PROBE_DONE (R57). -/
def execFlashProbeDone (sfdp : Option Sfdp) (s : State) : Answer := s.watch (doFlashProbeDone sfdp s)
/-- CANDIDATE_READ_DONE (R62). -/
def execCandidateReadDone (slotB : Bool) (img : List Byte) (other : Option Nat) (s : State) : Answer :=
  s.watch (doCandidateReadDone slotB img other s)
/-- START_TIMEOUT (R69). -/
def execStartTimeout (s : State) : Answer := s.watch (doStartTimeout s)
/-- RETRY_DELAY_END (R72). -/
def execRetryDelayEnd (s : State) : Answer := s.watch (doRetryDelayEnd s)
/-- HEALTHY (R80). -/
def execHealthy (k : Core) (s : State) : Answer := s.watch (doHealthy k s)
/-- RESTART_ORDERLY (R76). -/
def execRestartOrderly (who : Writer) (key : Byte) (s : State) : Answer := s.watch (doRestartOrderly who key s)
/-- RESTART_NOW (R76). -/
def execRestartNow (who : Writer) (key : Byte) (s : State) : Answer := s.watch (doRestartNow who key s)
/-- CLEAR_FAILS (R74). -/
def execClearFails (who : Writer) (key : Byte) (s : State) : Answer := s.watch (doClearFails who key s)
/-- FLASH_XFER_GO (R83). -/
def execFlashXferGo (who : Writer) (ctrl : BitVec 22) (s : State) : Answer := s.watch (doFlashXferGo who ctrl s)
/-- FLASH_XFER_DONE (R83). -/
def execFlashXferDone (data : List Byte) (s : State) : Answer := s.watch (doFlashXferDone data s)
/-- LOAD_ALL (R103). -/
def execLoadAll (who : Writer) (s : State) : Answer := s.watch (doLoadAll who s)
/-- MASTER_VALLEY (R106). -/
def execMasterValley (late : Nat) (loadLate faultnHigh : Bool) (s : State) : Answer :=
  s.watch (doMasterValley late loadLate faultnHigh s)
/-- VALLEY (R97). -/
def execValley (n : Chan) (s : State) : Answer := s.watch (doValley n s)
/-- PEAK (R96). -/
def execPeak (n : Chan) (s : State) : Answer := s.watch (doPeak n s)
/-- TRIGGER_FIRE (R101). -/
def execTriggerFire (n : Chan) (k : Fin 4) (x : Int) (s : State) : Answer :=
  s.watch (doTriggerFire n k x s)
/-- CURRENT_CONVERSION_DONE (R102). -/
def execCurrentConversionDone (adc : Fin 4) (s : State) : Answer := s.watch (doCurrentConversionDone adc s)
/-- DELAY_LINE_CAL_DONE (R112). -/
def execDelayLineCalDone (h : Half) (code : BitVec 10) (s : State) : Answer := s.watch (doDelayLineCalDone h code s)
/-- RECALIBRATION (R112). -/
def execRecalibration (who : Option Writer) (h : Half) (code : BitVec 10) (s : State) : Answer :=
  s.watch (doRecalibration who h code s)
/-- ENGINE_EN_CLEAR (R114). -/
def execEngineEnClear (who : Writer) (s : State) : Answer := s.watch (doEngineEnClear who s)
/-- ENGINE_FREEZE (R114). -/
def execEngineFreeze (s : State) : Answer := s.watch (doEngineFreeze s)
/-- FAULTN_LOW (R115). -/
def execFaultnLow (s : State) : Answer := s.watch (doFaultnLow s)
/-- CLR_TRG_DROP (R119). -/
def execClrTrgDrop (who : Writer) (s : State) : Answer := s.watch (doClrTrgDrop who s)
/-- PE_CNT_CLR (R119). -/
def execPeCntClr (who : Writer) (mask : Word) (s : State) : Answer := s.watch (doPeCntClr who mask s)
/-- COMPENSATOR_UPDATE (R130). -/
def execCompensatorUpdate (n : Chan) (vs : Vector Int 8) (shunt : Int) (s : State) : Answer :=
  s.watch (doCompensatorUpdate n vs shunt s)
/-- VREF_WRITE (R125). -/
def execVrefWrite (who : Writer) (l : Fin 8) (code : BitVec 11) (s : State) : Answer :=
  s.watch (doVrefWrite who l code s)
/-- REFERENCE_STEP (R126). -/
def execReferenceStep (l : Loop) (s : State) : Answer := s.watch (doReferenceStep l s)
/-- CARDING_STEP (R134). -/
def execCardingStep (l : Fin 8) (s : State) : Answer := s.watch (doCardingStep l s)
/-- FULLING_END (R136). -/
def execFullingEnd (l : Fin 8) (s : State) : Answer := s.watch (doFullingEnd l s)
/-- NOTICED_INSTANT (R172). -/
def execNoticedInstant (l : Fin 8) (s : State) : Answer := s.watch (doNoticedInstant l s)
/-- PREBIAS_DONE (R138). -/
def execPrebiasDone (l : Loop) (uv : Nat) (selfTest : Bool) (s : State) : Answer :=
  s.watch (doPrebiasDone l uv selfTest s)
/-- RAMP_START (R138). -/
def execRampStart (l : Loop) (s : State) : Answer := s.watch (doRampStart l s)
/-- STOP_LOW_END (R140). -/
def execStopLowEnd (l : Fin 8) (s : State) : Answer := s.watch (doStopLowEnd l s)
/-- STG_EN_FALL (R140). -/
def execStgEnFall (l : Fin 8) (s : State) : Answer := s.watch (doStgEnFall l s)
/-- SETTLED_RISE (R141). -/
def execSettledRise (l : Fin 8) (s : State) : Answer := s.watch (doSettledRise l s)
/-- SWAP (R133). -/
def execSwap (who : Writer) (l : Loop) (s : State) : Answer := s.watch (doSwap who l s)
/-- BLK_GO (R142). -/
def execBlkGo (who : Writer) (l : Fin 8) (s : State) : Answer := s.watch (doBlkGo who l s)
/-- INJECTION_END (R143). -/
def execInjectionEnd (l : Fin 8) (s : State) : Answer := s.watch (doInjectionEnd l s)
/-- VERDICT (R145). -/
def execVerdict (l : Fin 8) (f : Fit) (set : Vector (BitVec 20) 6) (s : State) : Answer :=
  s.watch (doVerdict l f set s)
/-- FB_FORCE (R146). -/
def execFbForce (who : Writer) (l : Loop) (s : State) : Answer := s.watch (doFbForce who l s)
/-- FALLBACK_PULSE_START (R147). -/
def execFallbackPulseStart (l : Loop) (vs : Int) (imon : Int) (s : State) : Answer :=
  s.watch (doFallbackPulseStart l vs imon s)
/-- FALLBACK_PULSE_END (R147). -/
def execFallbackPulseEnd (l : Loop) (s : State) : Answer := s.watch (doFallbackPulseEnd l s)
/-- FOLDING_QUIET (R192). -/
def execFoldingQuiet (l : Loop) (s : State) : Answer := s.watch (doFoldingQuiet l s)
/-- FB_RET (R149). -/
def execFbRet (who : Writer) (l : Loop) (s : State) : Answer := s.watch (doFbRet who l s)
/-- RETIRED_CLEAR (R137). -/
def execRetiredClear (who : Writer) (n : Fin 24) (s : State) : Answer := s.watch (doRetiredClear who n s)
/-- SET_TARGET (R168). -/
def execSetTarget (v : Port) (f : LinkFrame) (s : State) : Answer := s.watch (doSetTarget v f s)
/-- SET_SLEW (R167). -/
def execSetSlew (v : Port) (f : LinkFrame) (s : State) : Answer := s.watch (doSetSlew v f s)
/-- STEP_NOTICE (R172). -/
def execStepNotice (v : Port) (f : LinkFrame) (s : State) : Answer := s.watch (doStepNotice v f s)
/-- SET_STATE (R167). -/
def execSetState (v : Port) (f : LinkFrame) (s : State) : Answer := s.watch (doSetState v f s)
/-- GET_TELEMETRY (R176). -/
def execGetTelemetry (v : Port) (f : LinkFrame) (s : State) : Answer := s.watch (doGetTelemetry v f s)
/-- GET_STATUS (R177). -/
def execGetStatus (v : Port) (f : LinkFrame) (s : State) : Answer := s.watch (doGetStatus v f s)
/-- CLEAR_ALERT (R175). -/
def execClearAlert (v : Port) (f : LinkFrame) (s : State) : Answer := s.watch (doClearAlert v f s)
/-- LINK_FRAME_REFUSED (R162). -/
def execLinkFrameRefused (v : Port) (frame : Word) (waited : Bool) (s : State) : Answer :=
  s.watch (doLinkFrameRefused v frame waited s)
/-- LINK_ABORT (R158). -/
def execLinkAbort (v : Port) (received : Bool) (s : State) : Answer := s.watch (doLinkAbort v received s)
/-- ATTENTION_PULSE (R175). -/
def execAttentionPulse (v : Port) (again : Bool) (s : State) : Answer := s.watch (doAttentionPulse v again s)
/-- ATTENTION_PULSE_END (R175). -/
def execAttentionPulseEnd (v : Port) (s : State) : Answer := s.watch (doAttentionPulseEnd v s)
/-- VLK_MAP_WRITE (R170). -/
def execVlkMapWrite (who : Writer) (v : Port) (w : Word) (s : State) : Answer := s.watch (doVlkMapWrite who v w s)
/-- VLK_CNT_CLR (R178). -/
def execVlkCntClr (who : Writer) (v : Port) (s : State) : Answer := s.watch (doVlkCntClr who v s)
/-- OV_TRIP (R180). -/
def execOvTrip (l : Fin 8) (x : OvCrossing) (s : State) : Answer := s.watch (doOvTrip l x s)
/-- OV_CLR (R181). -/
def execOvClr (who : Writer) (l : Loop) (x : OvSense) (s : State) : Answer := s.watch (doOvClr who l x s)
/-- LOFF_CLR (R191). -/
def execLoffClr (who : Writer) (l : Loop) (s : State) : Answer := s.watch (doLoffClr who l s)
/-- SC_TRIP (R182). -/
def execScTrip (x : ScCrossing) (s : State) : Answer := s.watch (doScTrip x s)
/-- OVERLOAD_BLOCK_END (R185). -/
def execOverloadBlockEnd (l : Fin 8) (s : State) : Answer := s.watch (doOverloadBlockEnd l s)
/-- UV (R186). -/
def execUv (l : Fin 8) (s : State) : Answer := s.watch (doUv l s)
/-- START_SHORT (R187). -/
def execStartShort (l : Fin 8) (s : State) : Answer := s.watch (doStartShort l s)
/-- HICCUP_RESTART (R189). -/
def execHiccupRestart (l : Fin 8) (s : State) : Answer := s.watch (doHiccupRestart l s)
/-- HICCUP_CLEAN (R190). -/
def execHiccupClean (l : Fin 8) (s : State) : Answer := s.watch (doHiccupClean l s)
/-- TC_DEBOUNCE_EXPIRY (R213). -/
def execTcDebounceExpiry (p : Port) (cc1 cc2 : CcTerm) (s : State) : Answer :=
  s.watch (doTcDebounceExpiry p cc1 cc2 s)
/-- DRP_TOGGLE (R213). -/
def execDrpToggle (p : Port) (s : State) : Answer := s.watch (doDrpToggle p s)
/-- ERROR_RECOVERY_END (R213). -/
def execErrorRecoveryEnd (p : Port) (s : State) : Answer := s.watch (doErrorRecoveryEnd p s)
/-- TDRPTRY (R213). -/
def execTdrptry (p : Port) (seen : Bool) (s : State) : Answer := s.watch (doTdrptry p seen s)
/-- DETACH_EXCEPTION_END (R214). -/
def execDetachExceptionEnd (p : Port) (s : State) : Answer := s.watch (doDetachExceptionEnd p s)
/-- APPLY (R208). -/
def execApply (who : Writer) (p : Port) (s : State) : Answer := s.watch (doApply who p s)
/-- PD_MESSAGE_RX (R216). -/
def execPdMessageRx (p : Port) (m : PdMsg) (crcOk : Bool) (s : State) : Answer := s.watch (doPdMessageRx p m crcOk s)
/-- SOURCE_CAPABILITIES (R235). -/
def execSourceCapabilities (p : Port) (s : State) : Answer := s.watch (doSourceCapabilities p s)
/-- REQUEST (R225). -/
def execRequest (p : Port) (s : State) : Answer := s.watch (doRequest p s)
/-- DR_SWAP (R229). -/
def execDrSwap (p : Port) (s : State) : Answer := s.watch (doDrSwap p s)
/-- PR_SWAP (R230). -/
def execPrSwap (p : Port) (s : State) : Answer := s.watch (doPrSwap p s)
/-- VCONN_SWAP (R228). -/
def execVconnSwap (p : Port) (s : State) : Answer := s.watch (doVconnSwap p s)
/-- EPR_MODE (R224). -/
def execEprMode (p : Port) (s : State) : Answer := s.watch (doEprMode p s)
/-- EPR_KEEPALIVE (R221). -/
def execEprKeepalive (p : Port) (s : State) : Answer := s.watch (doEprKeepalive p s)
/-- FR_SWAP (R231). -/
def execFrSwap (p : Port) (s : State) : Answer := s.watch (doFrSwap p s)
/-- PS_RDY (R253). -/
def execPsRdy (p : Port) (s : State) : Answer := s.watch (doPsRdy p s)
/-- TRECEIVE (R216). -/
def execTreceive (p : Port) (s : State) : Answer := s.watch (doTreceive p s)
/-- HARD_RESET_RX (R219). -/
def execHardResetRx (p : Port) (s : State) : Answer := s.watch (doHardResetRx p s)
/-- HARD_RESET_TX (R219). -/
def execHardResetTx (p : Port) (s : State) : Answer := s.watch (doHardResetTx p s)
/-- CABLE_RESET (R219). -/
def execCableReset (p : Port) (s : State) : Answer := s.watch (doCableReset p s)
/-- TSENDERRESPONSE (R220). -/
def execTsenderresponse (p : Port) (s : State) : Answer := s.watch (doTsenderresponse p s)
/-- TTYPECSENDSOURCECAP (R220). -/
def execTtypecsendsourcecap (p : Port) (s : State) : Answer := s.watch (doTtypecsendsourcecap p s)
/-- TSINKWAITCAP (R220). -/
def execTsinkwaitcap (p : Port) (s : State) : Answer := s.watch (doTsinkwaitcap p s)
/-- TPSTRANSITION (R220). -/
def execTpstransition (p : Port) (s : State) : Answer := s.watch (doTpstransition p s)
/-- THARDRESET (R220). -/
def execThardreset (p : Port) (s : State) : Answer := s.watch (doThardreset p s)
/-- TNORESPONSE (R220). -/
def execTnoresponse (p : Port) (s : State) : Answer := s.watch (doTnoresponse p s)
/-- TENTEREPR (R220). -/
def execTenterepr (p : Port) (s : State) : Answer := s.watch (doTenterepr p s)
/-- TSINKEPRKEEPALIVE (R221). -/
def execTsinkeprkeepalive (p : Port) (s : State) : Answer := s.watch (doTsinkeprkeepalive p s)
/-- TSOURCEEPRKEEPALIVE (R220). -/
def execTsourceeprkeepalive (p : Port) (s : State) : Answer := s.watch (doTsourceeprkeepalive p s)
/-- TPPSREQUEST (R221). -/
def execTppsrequest (p : Port) (s : State) : Answer := s.watch (doTppsrequest p s)
/-- TPPSTIMEOUT (R220). -/
def execTppstimeout (p : Port) (s : State) : Answer := s.watch (doTppstimeout p s)
/-- TPSSOURCEON (R230). -/
def execTpssourceon (p : Port) (s : State) : Answer := s.watch (doTpssourceon p s)
/-- VCONN_OC (R226). -/
def execVconnOc (p : Port) (s : State) : Answer := s.watch (doVconnOc p s)
/-- CABLE_DISCOVERY_RETRY (R227). -/
def execCableDiscoveryRetry (p : Port) (s : State) : Answer := s.watch (doCableDiscoveryRetry p s)
/-- FRS_SIGNAL (R231). -/
def execFrsSignal (p : Port) (s : State) : Answer := s.watch (doFrsSignal p s)
/-- FRS_FAIL (R254). -/
def execFrsFail (p : Port) (s : State) : Answer := s.watch (doFrsFail p s)
/-- REQ_DR (R229). -/
def execReqDr (who : Writer) (p : Port) (s : State) : Answer := s.watch (doReqDr who p s)
/-- REQ_PR (R230). -/
def execReqPr (who : Writer) (p : Port) (s : State) : Answer := s.watch (doReqPr who p s)
/-- ENTER (R232). -/
def execEnter (who : Writer) (p : Port) (idx : Fin 16) (s : State) : Answer := s.watch (doEnter who p idx s)
/-- EXIT (R232). -/
def execExit (who : Writer) (p : Port) (idx : Fin 16) (s : State) : Answer := s.watch (doExit who p idx s)
/-- VDM_TX_GO (R233). -/
def execVdmTxGo (who : Writer) (p : Port) (count : Fin 16) (sop : Fin 4) (s : State) : Answer :=
  s.watch (doVdmTxGo who p count sop s)
/-- VDM_RX_RELEASE (R233). -/
def execVdmRxRelease (who : Writer) (p : Port) (s : State) : Answer := s.watch (doVdmRxRelease who p s)
/-- PMEM_WRITE (R237). -/
def execPmemWrite (p : Port) (s : State) : Answer := s.watch (doPmemWrite p s)
/-- PMEM_READ (R241). -/
def execPmemRead (who : Writer) (idx : Fin 1024) (s : State) : Answer := s.watch (doPmemRead who idx s)
/-- PMEM_PIN (R241). -/
def execPmemPin (who : Writer) (idx : Fin 1024) (s : State) : Answer := s.watch (doPmemPin who idx s)
/-- PMEM_UNPIN (R241). -/
def execPmemUnpin (who : Writer) (idx : Fin 1024) (s : State) : Answer := s.watch (doPmemUnpin who idx s)
/-- PMEM_FORGET (R241). -/
def execPmemForget (who : Writer) (idx : Fin 1024) (s : State) : Answer := s.watch (doPmemForget who idx s)
/-- PMEM_FORGET_ALL_UNPINNED (R241). -/
def execPmemForgetAllUnpinned (who : Writer) (s : State) : Answer := s.watch (doPmemForgetAllUnpinned who s)
/-- CONVERTER_NODE_QUALIFIED (R248). -/
def execConverterNodeQualified (x : PortSense) (s : State) : Answer := s.watch (doConverterNodeQualified x s)
/-- VREACHED (R249). -/
def execVreached (x : PortSense) (s : State) : Answer := s.watch (doVreached x s)
/-- GATE_CLOSED (R257). -/
def execGateClosed (p : Port) (s : State) : Answer := s.watch (doGateClosed p s)
/-- GATE_FAIL (R257). -/
def execGateFail (p : Port) (s : State) : Answer := s.watch (doGateFail p s)
/-- DSCHG_DONE (R258). -/
def execDschgDone (p : Port) (s : State) : Answer := s.watch (doDschgDone p s)
/-- DSCHG_TMO (R258). -/
def execDschgTmo (p : Port) (s : State) : Answer := s.watch (doDschgTmo p s)
/-- PORT_OC (R250). -/
def execPortOc (x : PortSense) (s : State) : Answer := s.watch (doPortOc x s)
/-- SINK_UV (R252). -/
def execSinkUv (x : PortSense) (s : State) : Answer := s.watch (doSinkUv x s)
/-- SINK_RESTART (R252). -/
def execSinkRestart (x : PortSense) (s : State) : Answer := s.watch (doSinkRestart x s)
/-- REVERSE_CURRENT_END (R247). -/
def execReverseCurrentEnd (p : Port) (s : State) : Answer := s.watch (doReverseCurrentEnd p s)
/-- VSYS_SHED (R255). -/
def execVsysShed (s : State) : Answer := s.watch (doVsysShed s)
/-- PORT_OV (R261). -/
def execPortOv (x : PortSense) (s : State) : Answer := s.watch (doPortOv x s)
/-- VSYS_OV (R261). -/
def execVsysOv (s : State) : Answer := s.watch (doVsysOv s)
/-- PEAK_TRIP (R261). -/
def execPeakTrip (x : PortSense) (s : State) : Answer := s.watch (doPeakTrip x s)
/-- REV_CUR (R261). -/
def execRevCur (x : PortSense) (s : State) : Answer := s.watch (doRevCur x s)
/-- DB_OC (R259). -/
def execDbOc (x : PortSense) (s : State) : Answer := s.watch (doDbOc x s)
/-- DB_RETRY (R259). -/
def execDbRetry (p : Port) (s : State) : Answer := s.watch (doDbRetry p s)
/-- GRANT_REQUEST (R225). -/
def execGrantRequest (p : Port) (want : Fin 1024) (s : State) : Answer := s.watch (doGrantRequest p want s)
/-- BUDGET_RECOMPUTE (R266). -/
def execBudgetRecompute (s : State) : Answer := s.watch (doBudgetRecompute s)
/-- TARGET_WRITE (R283). -/
def execTargetWrite (who : Writer) (k : BitVec 6) (s : State) : Answer := s.watch (doTargetWrite who k s)
/-- RAIL_ON (R280). -/
def execRailOn (n : Rail) (s : State) : Answer := s.watch (doRailOn n s)
/-- RAIL_OFF (R281). -/
def execRailOff (n : Rail) (s : State) : Answer := s.watch (doRailOff n s)
/-- SEQ_WINDOW_CROSSING (R286). -/
def execSeqWindowCrossing (n : Rail) (uv : Int) (s : State) : Answer := s.watch (doSeqWindowCrossing n uv s)
/-- RAIL_GOOD (R278). -/
def execRailGood (n : Rail) (s : State) : Answer := s.watch (doRailGood n s)
/-- RAIL_BAD (R278). -/
def execRailBad (n : Rail) (s : State) : Answer := s.watch (doRailBad n s)
/-- RAIL_READS_OFF (R282). -/
def execRailReadsOff (x : RailSense) (s : State) : Answer := s.watch (doRailReadsOff x s)
/-- SEQ_POWER_UP_STEP_COMPLETE (R280). -/
def execSeqPowerUpStepComplete (late : Bool) (s : State) : Answer := s.watch (doSeqPowerUpStepComplete late s)
/-- SEQ_POWER_DOWN_STEP_COMPLETE (R281). -/
def execSeqPowerDownStepComplete (s : State) : Answer := s.watch (doSeqPowerDownStepComplete s)
/-- PG_TIMEOUT (R285). -/
def execPgTimeout (s : State) : Answer := s.watch (doPgTimeout s)
/-- DIS_TIMEOUT (R285). -/
def execDisTimeout (s : State) : Answer := s.watch (doDisTimeout s)
/-- SYNC_RELEASE_QUALIFIED (R288). -/
def execSyncReleaseQualified (s : State) : Answer := s.watch (doSyncReleaseQualified s)
/-- SYNC_HOLD_END (R288). -/
def execSyncHoldEnd (s : State) : Answer := s.watch (doSyncHoldEnd s)
/-- SYNC_TIMEOUT (R289). -/
def execSyncTimeout (s : State) : Answer := s.watch (doSyncTimeout s)
/-- RSTOUT_RELEASE (R296). -/
def execRstoutRelease (m : Fin 4) (s : State) : Answer := s.watch (doRstoutRelease m s)
/-- SEQ_STATE_WRITE (R275). -/
def execSeqStateWrite (who : Writer) (n : Rail) (k : BitVec 6) (s : State) : Answer :=
  s.watch (doSeqStateWrite who n k s)
/-- SEQ_FAULT_CLR (R302). -/
def execSeqFaultClr (who : Writer) (s : State) : Answer := s.watch (doSeqFaultClr who s)
/-- PAGE (R315). -/
def execPage (h : HostId) (t : Txn) (s : State) : Answer := s.watch (doPage h t s)
/-- OPERATION (R316). -/
def execOperation (h : HostId) (t : Txn) (s : State) : Answer := s.watch (doOperation h t s)
/-- ON_OFF_CONFIG (R316). -/
def execOnOffConfig (h : HostId) (t : Txn) (s : State) : Answer := s.watch (doOnOffConfig h t s)
/-- CLEAR_FAULTS (R319). -/
def execClearFaults (h : HostId) (t : Txn) (s : State) : Answer := s.watch (doClearFaults h t s)
/-- VOUT_COMMAND (R317). -/
def execVoutCommand (h : HostId) (t : Txn) (s : State) : Answer := s.watch (doVoutCommand h t s)
/-- VOUT_MAX (R316). -/
def execVoutMax (h : HostId) (t : Txn) (s : State) : Answer := s.watch (doVoutMax h t s)
/-- VOUT_TRANSITION_RATE (R316). -/
def execVoutTransitionRate (h : HostId) (t : Txn) (s : State) : Answer := s.watch (doVoutTransitionRate h t s)
/-- IOUT_OC_FAULT_LIMIT (R316). -/
def execIoutOcFaultLimit (h : HostId) (t : Txn) (s : State) : Answer := s.watch (doIoutOcFaultLimit h t s)
/-- STATUS_BYTE (R319). -/
def execStatusByte (h : HostId) (t : Txn) (s : State) : Answer := s.watch (doStatusByte h t s)
/-- STATUS_WORD (R319). -/
def execStatusWord (h : HostId) (t : Txn) (s : State) : Answer := s.watch (doStatusWord h t s)
/-- STATUS_VOUT (R319). -/
def execStatusVout (h : HostId) (t : Txn) (s : State) : Answer := s.watch (doStatusVout h t s)
/-- STATUS_IOUT (R319). -/
def execStatusIout (h : HostId) (t : Txn) (s : State) : Answer := s.watch (doStatusIout h t s)
/-- STATUS_TEMPERATURE (R319). -/
def execStatusTemperature (h : HostId) (t : Txn) (s : State) : Answer := s.watch (doStatusTemperature h t s)
/-- STATUS_CML (R319). -/
def execStatusCml (h : HostId) (t : Txn) (s : State) : Answer := s.watch (doStatusCml h t s)
/-- READ_VIN (R316). -/
def execReadVin (h : HostId) (t : Txn) (mv : Nat) (s : State) : Answer := s.watch (doReadVin h t mv s)
/-- READ_VOUT (R316). -/
def execReadVout (h : HostId) (t : Txn) (uv : Nat) (s : State) : Answer := s.watch (doReadVout h t uv s)
/-- READ_IOUT (R316). -/
def execReadIout (h : HostId) (t : Txn) (s : State) : Answer := s.watch (doReadIout h t s)
/-- READ_TEMPERATURE_1 (R316). -/
def execReadTemperature1 (h : HostId) (t : Txn) (s : State) : Answer := s.watch (doReadTemperature1 h t s)
/-- READ_POUT (R316). -/
def execReadPout (h : HostId) (t : Txn) (uv : Nat) (s : State) : Answer := s.watch (doReadPout h t uv s)
/-- MFR_ID (R316). -/
def execMfrId (h : HostId) (t : Txn) (s : State) : Answer := s.watch (doMfrId h t s)
/-- MFR_MODEL (R316). -/
def execMfrModel (h : HostId) (t : Txn) (s : State) : Answer := s.watch (doMfrModel h t s)
/-- MFR_REVISION (R316). -/
def execMfrRevision (h : HostId) (t : Txn) (s : State) : Answer := s.watch (doMfrRevision h t s)
/-- REG_WRITE (R320). -/
def execRegWrite (h : HostId) (t : Txn) (s : State) : Answer := s.watch (doRegWrite h t s)
/-- REG_PTR (R320). -/
def execRegPtr (h : HostId) (t : Txn) (s : State) : Answer := s.watch (doRegPtr h t s)
/-- REG_READ (R320). -/
def execRegRead (h : HostId) (t : Txn) (s : State) : Answer := s.watch (doRegRead h t s)
/-- REG_MASKWRITE (R320). -/
def execRegMaskwrite (h : HostId) (t : Txn) (s : State) : Answer := s.watch (doRegMaskwrite h t s)
/-- REG_RESULT (R320). -/
def execRegResult (h : HostId) (t : Txn) (s : State) : Answer := s.watch (doRegResult h t s)
/-- UNSUPPORTED_COMMAND (R309). -/
def execUnsupportedCommand (h : HostId) (t : Txn) (code : Byte) (s : State) : Answer :=
  s.watch (doUnsupportedCommand h t code s)
/-- ABANDONED (R306). -/
def execAbandoned (h : HostId) (s : State) : Answer := s.watch (doAbandoned h s)
/-- SCL_LOW_TIMEOUT (R306). -/
def execSclLowTimeout (h : HostId) (s : State) : Answer := s.watch (doSclLowTimeout h s)
/-- STRETCH_TIMEOUT (R307). -/
def execStretchTimeout (h : HostId) (read : Bool) (s : State) : Answer := s.watch (doStretchTimeout h read s)
/-- HOST_NOTIFY (R313). -/
def execHostNotify (h : HostId) (e : NotifyEnd) (s : State) : Answer := s.watch (doHostNotify h e s)
/-- NOTIFY_RETRY (R311). -/
def execNotifyRetry (h : HostId) (e : NotifyEnd) (s : State) : Answer := s.watch (doNotifyRetry h e s)
/-- HP_CNT_CLR (R335). -/
def execHpCntClr (who : Writer) (h : HostId) (s : State) : Answer := s.watch (doHpCntClr who h s)
/-- CLAIM (R324). -/
def execClaim (h : HostId) (secure : Bool) (s : State) : Answer := s.watch (doClaim h secure s)
/-- RELEASE (R324). -/
def execRelease (h : HostId) (secure : Bool) (s : State) : Answer := s.watch (doRelease h secure s)
/-- GIVE (R324). -/
def execGive (h : HostId) (secure : Bool) (s : State) : Answer := s.watch (doGive h secure s)
/-- MBX_DATA_WRITE (R328). -/
def execMbxDataWrite (who : Writer) (n : Fin 256) (w : Word) (s : State) : Answer :=
  s.watch (doMbxDataWrite who n w s)
/-- MBX_ACK_WRITE (R331). -/
def execMbxAckWrite (who : Writer) (n : Fin 256) (code : BitVec 16) (s : State) : Answer :=
  s.watch (doMbxAckWrite who n code s)
/-- IRQ_CAUSE_WRITE (R342). -/
def execIrqCauseWrite (who : Writer) (g : Fin 16) (v : BitVec 16) (s : State) : Answer :=
  s.watch (doIrqCauseWrite who g v s)
/-- IRQ_EN_WRITE (R343). -/
def execIrqEnWrite (who : Writer) (h : HostId) (g : Fin 16) (v : BitVec 16) (s : State) : Answer :=
  s.watch (doIrqEnWrite who h g v s)
/-- CHECK_MISMATCH (R351). -/
def execCheckMismatch (l : Loop) (s : State) : Answer := s.watch (doCheckMismatch l s)
/-- CHECKER_SELF_TEST (R352). -/
def execCheckerSelfTest (pass : Bool) (s : State) : Answer := s.watch (doCheckerSelfTest pass s)
/-- SENSE_XCHECK (R353). -/
def execSenseXcheck (x : CrossSense) (s : State) : Answer := s.watch (doSenseXcheck x s)
/-- CLK_FRC (R355). -/
def execClkFrc (s : State) : Answer := s.watch (doClkFrc s)
/-- CLK_SLOW (R355). -/
def execClkSlow (s : State) : Answer := s.watch (doClkSlow s)
/-- SCRUB_READ (R358). -/
def execScrubRead (word : Fin 0x80000) (s : State) : Answer := s.watch (doScrubRead word s)
/-- REG_PARITY_SWEEP (R359). -/
def execRegParitySweep (s : State) : Answer := s.watch (doRegParitySweep s)
/-- TCV_START (R370). -/
def execTcvStart (who : Writer) (s : State) : Answer := s.watch (doTcvStart who s)
/-- TCV_STOP (R370). -/
def execTcvStop (who : Writer) (s : State) : Answer := s.watch (doTcvStop who s)
/-- CONVERSION_DONE (R362). -/
def execConversionDone (mean : Rat) (wild stopped : Bool) (s : State) : Answer :=
  s.watch (doConversionDone mean wild stopped s)
/-- URGENT (R371). -/
def execUrgent (who : Writer) (n : Fin 32) (s : State) : Answer := s.watch (doUrgent who n s)
/-- REF_SEL_WRITE (R364). -/
def execRefSelWrite (who : Writer) (v : Fin 4) (s : State) : Answer := s.watch (doRefSelWrite who v s)
/-- REF_SETTLED (R364). -/
def execRefSettled (s : State) : Answer := s.watch (doRefSettled s)
/-- AVG_CLR (R372). -/
def execAvgClr (who : Writer) (n : Fin 32) (s : State) : Answer := s.watch (doAvgClr who n s)
/-- SYSCAL_ZERO (R373). -/
def execSyscalZero (who : Writer) (n : Fin 32) (s : State) : Answer := s.watch (doSyscalZero who n s)
/-- SYSCAL_FULL_SCALE (R373). -/
def execSyscalFullScale (who : Writer) (n : Fin 32) (s : State) : Answer := s.watch (doSyscalFullScale who n s)
/-- SYSCAL_COMMIT (R373). -/
def execSyscalCommit (who : Writer) (n : Fin 32) (key : Byte) (s : State) : Answer :=
  s.watch (doSyscalCommit who n key s)
/-- THM_GO (R377). -/
def execThmGo (who : Writer) (s : State) : Answer := s.watch (doThmGo who s)
/-- THM_DEMAND_TIMER (R377). -/
def execThmDemandTimer (s : State) : Answer := s.watch (doThmDemandTimer s)
/-- SHUT_HOLD_MEASURE (R381). -/
def execShutHoldMeasure (s : State) : Answer := s.watch (doShutHoldMeasure s)
/-- TH_DONE (R378). -/
def execThDone (counts : Vector (BitVec 16) 9) (s : State) : Answer := s.watch (doThDone counts s)
/-- WRITE (R391). -/
def execWrite (who : Writer) (key : Byte) (s : State) : Answer := s.watch (doWrite who key s)
/-- START_CLR (R400). -/
def execStartClr (who : Writer) (key : Byte) (s : State) : Answer := s.watch (doStartClr who key s)
/-- KEYSET (R393). -/
def execKeyset (who : Writer) (key : Byte) (s : State) : Answer := s.watch (doKeyset who key s)
/-- KEEPER_GROUP_DONE (R388). -/
def execKeeperGroupDone (same : Bool) (s : State) : Answer := s.watch (doKeeperGroupDone same s)
/-- KEEPER_OPERATION_DONE (R394). -/
def execKeeperOperationDone (s : State) : Answer := s.watch (doKeeperOperationDone s)
/-- OPMIN_PERSIST (R397). -/
def execOpminPersist (s : State) : Answer := s.watch (doOpminPersist s)
/-- KPR_RDATA_READ (R411). -/
def execKprRdataRead (who : Writer) (s : State) : Answer := s.watch (doKprRdataRead who s)
/-- HOLDUP_USED_CLEAR (R395). -/
def execHoldupUsedClear (who : Writer) (s : State) : Answer := s.watch (doHoldupUsedClear who s)
/-- PROT_LOCK (R392). -/
def execProtLock (who : Writer) (s : State) : Answer := s.watch (doProtLock who s)
/-- RECORDER_PERSIST (R405). -/
def execRecorderPersist (s : State) : Answer := s.watch (doRecorderPersist s)
/-- FLUSH (R405). -/
def execFlush (who : Writer) (s : State) : Answer := s.watch (doFlush who s)
/-- SNAP (R410). -/
def execSnap (who : Writer) (s : State) : Answer := s.watch (doSnap who s)
/-- STATISTICS_SAMPLE (R404). -/
def execStatisticsSample (power : Vector Nat 4) (vin vsys : Nat) (s : State) : Answer :=
  s.watch (doStatisticsSample power vin vsys s)
/-- ADD (R423). -/
def execAdd (k : Core) (rd ra rb : Fin 16) (s : State) : Answer := s.watch (doAdd k rd ra rb s)
/-- SUB (R423). -/
def execSub (k : Core) (rd ra rb : Fin 16) (s : State) : Answer := s.watch (doSub k rd ra rb s)
/-- AND (R423). -/
def execAnd (k : Core) (rd ra rb : Fin 16) (s : State) : Answer := s.watch (doAnd k rd ra rb s)
/-- OR (R423). -/
def execOr (k : Core) (rd ra rb : Fin 16) (s : State) : Answer := s.watch (doOr k rd ra rb s)
/-- XOR (R423). -/
def execXor (k : Core) (rd ra rb : Fin 16) (s : State) : Answer := s.watch (doXor k rd ra rb s)
/-- SHL (R423). -/
def execShl (k : Core) (rd ra rb : Fin 16) (s : State) : Answer := s.watch (doShl k rd ra rb s)
/-- SHR (R423). -/
def execShr (k : Core) (rd ra rb : Fin 16) (s : State) : Answer := s.watch (doShr k rd ra rb s)
/-- SAR (R423). -/
def execSar (k : Core) (rd ra rb : Fin 16) (s : State) : Answer := s.watch (doSar k rd ra rb s)
/-- ROR (R423). -/
def execRor (k : Core) (rd ra rb : Fin 16) (s : State) : Answer := s.watch (doRor k rd ra rb s)
/-- CMP (R420). -/
def execCmp (k : Core) (ra rb : Fin 16) (s : State) : Answer := s.watch (doCmp k ra rb s)
/-- TST (R420). -/
def execTst (k : Core) (ra rb : Fin 16) (s : State) : Answer := s.watch (doTst k ra rb s)
/-- ADDI (R423). -/
def execAddi (k : Core) (rd ra : Fin 16) (imm : BitVec 18) (s : State) : Answer := s.watch (doAddi k rd ra imm s)
/-- ANDI (R423). -/
def execAndi (k : Core) (rd ra : Fin 16) (imm : BitVec 18) (s : State) : Answer := s.watch (doAndi k rd ra imm s)
/-- ORI (R423). -/
def execOri (k : Core) (rd ra : Fin 16) (imm : BitVec 18) (s : State) : Answer := s.watch (doOri k rd ra imm s)
/-- XORI (R423). -/
def execXori (k : Core) (rd ra : Fin 16) (imm : BitVec 18) (s : State) : Answer := s.watch (doXori k rd ra imm s)
/-- SHLI (R423). -/
def execShli (k : Core) (rd ra : Fin 16) (n : Fin 32) (s : State) : Answer := s.watch (doShli k rd ra n s)
/-- SHRI (R423). -/
def execShri (k : Core) (rd ra : Fin 16) (n : Fin 32) (s : State) : Answer := s.watch (doShri k rd ra n s)
/-- SARI (R423). -/
def execSari (k : Core) (rd ra : Fin 16) (n : Fin 32) (s : State) : Answer := s.watch (doSari k rd ra n s)
/-- RORI (R423). -/
def execRori (k : Core) (rd ra : Fin 16) (n : Fin 32) (s : State) : Answer := s.watch (doRori k rd ra n s)
/-- CMPI (R420). -/
def execCmpi (k : Core) (ra : Fin 16) (imm : BitVec 18) (s : State) : Answer := s.watch (doCmpi k ra imm s)
/-- LUI (R423). -/
def execLui (k : Core) (rd : Fin 16) (imm : BitVec 22) (s : State) : Answer := s.watch (doLui k rd imm s)
/-- CLZ (R423). -/
def execClz (k : Core) (rd ra : Fin 16) (s : State) : Answer := s.watch (doClz k rd ra s)
/-- POPC (R423). -/
def execPopc (k : Core) (rd ra : Fin 16) (s : State) : Answer := s.watch (doPopc k rd ra s)
/-- BFX (R423). -/
def execBfx (k : Core) (rd ra : Fin 16) (pos lm1 : Fin 32) (s : State) : Answer := s.watch (doBfx k rd ra pos lm1 s)
/-- BFXS (R423). -/
def execBfxs (k : Core) (rd ra : Fin 16) (pos lm1 : Fin 32) (s : State) : Answer := s.watch (doBfxs k rd ra pos lm1 s)
/-- BFI (R423). -/
def execBfi (k : Core) (rd ra : Fin 16) (pos lm1 : Fin 32) (s : State) : Answer := s.watch (doBfi k rd ra pos lm1 s)
/-- PERM (R423). -/
def execPerm (k : Core) (rd ra : Fin 16) (sel : Byte) (s : State) : Answer := s.watch (doPerm k rd ra sel s)
/-- SEL (R423). -/
def execSel (k : Core) (rd ra rb : Fin 16) (cond : Fin 15) (s : State) : Answer := s.watch (doSel k rd ra rb cond s)
/-- MACQ (R425). -/
def execMacq (k : Core) (ra rb : Fin 16) (s : State) : Answer := s.watch (doMacq k ra rb s)
/-- LDW (R423). -/
def execLdw (k : Core) (rd ra : Fin 16) (imm : BitVec 18) (glitch : Bool) (s : State) : Answer :=
  s.watch (doLdw k rd ra imm glitch s)
/-- LDH (R423). -/
def execLdh (k : Core) (rd ra : Fin 16) (imm : BitVec 18) (glitch : Bool) (s : State) : Answer :=
  s.watch (doLdh k rd ra imm glitch s)
/-- LDHS (R423). -/
def execLdhs (k : Core) (rd ra : Fin 16) (imm : BitVec 18) (glitch : Bool) (s : State) : Answer :=
  s.watch (doLdhs k rd ra imm glitch s)
/-- LDB (R423). -/
def execLdb (k : Core) (rd ra : Fin 16) (imm : BitVec 18) (glitch : Bool) (s : State) : Answer :=
  s.watch (doLdb k rd ra imm glitch s)
/-- LDBS (R423). -/
def execLdbs (k : Core) (rd ra : Fin 16) (imm : BitVec 18) (glitch : Bool) (s : State) : Answer :=
  s.watch (doLdbs k rd ra imm glitch s)
/-- STW (R423). -/
def execStw (k : Core) (rd ra : Fin 16) (imm : BitVec 18) (s : State) : Answer := s.watch (doStw k rd ra imm s)
/-- STH (R423). -/
def execSth (k : Core) (rd ra : Fin 16) (imm : BitVec 18) (s : State) : Answer := s.watch (doSth k rd ra imm s)
/-- STB (R423). -/
def execStb (k : Core) (rd ra : Fin 16) (imm : BitVec 18) (s : State) : Answer := s.watch (doStb k rd ra imm s)
/-- BSET (R421). -/
def execBset (k : Core) (bit : BitVec 13) (s : State) : Answer := s.watch (doBset k bit s)
/-- BCLR (R421). -/
def execBclr (k : Core) (bit : BitVec 13) (s : State) : Answer := s.watch (doBclr k bit s)
/-- BTGL (R421). -/
def execBtgl (k : Core) (bit : BitVec 13) (s : State) : Answer := s.watch (doBtgl k bit s)
/-- BTST (R423). -/
def execBtst (k : Core) (bit : BitVec 13) (s : State) : Answer := s.watch (doBtst k bit s)
/-- BBS (R423). -/
def execBbs (k : Core) (bit off : BitVec 13) (s : State) : Answer := s.watch (doBbs k bit off s)
/-- BBC (R423). -/
def execBbc (k : Core) (bit off : BitVec 13) (s : State) : Answer := s.watch (doBbc k bit off s)
/-- BOPR_SET (R423). -/
def execBoprSet (k : Core) (ra : Fin 16) (s : State) : Answer := s.watch (doBoprSet k ra s)
/-- BOPR_CLEAR (R423). -/
def execBoprClear (k : Core) (ra : Fin 16) (s : State) : Answer := s.watch (doBoprClear k ra s)
/-- BOPR_TOGGLE (R423). -/
def execBoprToggle (k : Core) (ra : Fin 16) (s : State) : Answer := s.watch (doBoprToggle k ra s)
/-- BOPR_TEST (R423). -/
def execBoprTest (k : Core) (ra : Fin 16) (s : State) : Answer := s.watch (doBoprTest k ra s)
/-- BOPR_READ (R423). -/
def execBoprRead (k : Core) (rd ra : Fin 16) (s : State) : Answer := s.watch (doBoprRead k rd ra s)
/-- BCOND (R423). -/
def execBcond (k : Core) (cond : Fin 15) (off : BitVec 22) (s : State) : Answer := s.watch (doBcond k cond off s)
/-- CALL (R423). -/
def execCall (k : Core) (off : BitVec 26) (s : State) : Answer := s.watch (doCall k off s)
/-- JR (R423). -/
def execJr (k : Core) (ra : Fin 16) (s : State) : Answer := s.watch (doJr k ra s)
/-- JLR (R423). -/
def execJlr (k : Core) (rd ra : Fin 16) (s : State) : Answer := s.watch (doJlr k rd ra s)
/-- MULU (R425). -/
def execMulu (k : Core) (ra rb : Fin 16) (s : State) : Answer := s.watch (doMulu k ra rb s)
/-- MULS (R425). -/
def execMuls (k : Core) (ra rb : Fin 16) (s : State) : Answer := s.watch (doMuls k ra rb s)
/-- MACS (R425). -/
def execMacs (k : Core) (ra rb : Fin 16) (s : State) : Answer := s.watch (doMacs k ra rb s)
/-- MULQ (R425). -/
def execMulq (k : Core) (ra rb : Fin 16) (s : State) : Answer := s.watch (doMulq k ra rb s)
/-- MULTIPLIER_RESULT (R425). -/
def execMultiplierResult (k : Core) (s : State) : Answer := s.watch (doMultiplierResult k s)
/-- MFC (R419). -/
def execMfc (k : Core) (rd : Fin 16) (creg : BitVec 6) (s : State) : Answer := s.watch (doMfc k rd creg s)
/-- MTC (R419). -/
def execMtc (k : Core) (ra : Fin 16) (creg : BitVec 6) (s : State) : Answer := s.watch (doMtc k ra creg s)
/-- SVC (R426). -/
def execSvc (k : Core) (imm : BitVec 16) (s : State) : Answer := s.watch (doSvc k imm s)
/-- ERET (R427). -/
def execEret (k : Core) (s : State) : Answer := s.watch (doEret k s)
/-- WFE (R429). -/
def execWfe (k : Core) (s : State) : Answer := s.watch (doWfe k s)
/-- FENCE (R418). -/
def execFence (k : Core) (s : State) : Answer := s.watch (doFence k s)
/-- EVENT (R429). -/
def execEvent (k : Core) (s : State) : Answer := s.watch (doEvent k s)
/-- BUDGET (R433). -/
def execBudget (k : Core) (s : State) : Answer := s.watch (doBudget k s)
/-- WATCHDOG_EXPIRY (R431). -/
def execWatchdogExpiry (k : Core) (s : State) : Answer := s.watch (doWatchdogExpiry k s)
/-- KICK (R431). -/
def execKick (who : Writer) (k : Core) (v : Byte) (s : State) : Answer := s.watch (doKick who k v s)
/-- CORE_TIMER_EXPIRY (R431). -/
def execCoreTimerExpiry (k : Core) (s : State) : Answer := s.watch (doCoreTimerExpiry k s)
/-- RING (R429). -/
def execRing (who : Writer) (k : Core) (s : State) : Answer := s.watch (doRing who k s)
/-- APPLET_INVOCATION (R433). -/
def execAppletInvocation (n : Fin 8) (event : Fin 4) (arg : Word) (entry : BitVec 16) (budget : BitVec 24) (s : State) : Answer :=
  s.watch (doAppletInvocation n event arg entry budget s)
/-- LIVE_STAGE_DATA (R439). -/
def execLiveStageData (who : Writer) (w : Word) (s : State) : Answer := s.watch (doLiveStageData who w s)
/-- VERIFY (R440). -/
def execVerify (who : Writer) (s : State) : Answer := s.watch (doVerify who s)
/-- HANDOVER_REQ (R441). -/
def execHandoverReq (who : Writer) (k : Core) (s : State) : Answer := s.watch (doHandoverReq who k s)
/-- READY (R441). -/
def execReady (who : Writer) (k : Core) (s : State) : Answer := s.watch (doReady who k s)
/-- HANDOVER_TIMEOUT (R441). -/
def execHandoverTimeout (k : Core) (s : State) : Answer := s.watch (doHandoverTimeout k s)
/-- HANDOVER_COPY_DONE (R442). -/
def execHandoverCopyDone (k : Core) (s : State) : Answer := s.watch (doHandoverCopyDone k s)
/-- ALIVE (R442). -/
def execAlive (who : Writer) (k : Core) (s : State) : Answer := s.watch (doAlive who k s)
/-- NOT_ALIVE (R442). -/
def execNotAlive (k : Core) (s : State) : Answer := s.watch (doNotAlive k s)
/-- LIVE_RETIRE (R444). -/
def execLiveRetire (who : Writer) (ch : Fin 32) (s : State) : Answer := s.watch (doLiveRetire who ch s)
/-- RETRIM_GO (R446). -/
def execRetrimGo (who : Writer) (l : Fin 16) (s : State) : Answer := s.watch (doRetrimGo who l s)
/-- RETRIM_TWIN_SETTLED (R446). -/
def execRetrimTwinSettled (agree : Bool) (s : State) : Answer := s.watch (doRetrimTwinSettled agree s)
/-- RETRIM_TRIMS_COMPUTED (R446). -/
def execRetrimTrimsComputed (trims : BitVec 24) (agree : Bool) (s : State) : Answer :=
  s.watch (doRetrimTrimsComputed trims agree s)
/-- RETRIM_TIMEOUT (R446). -/
def execRetrimTimeout (s : State) : Answer := s.watch (doRetrimTimeout s)
/-- RETRIM_ABORT (R447). -/
def execRetrimAbort (s : State) : Answer := s.watch (doRetrimAbort s)
/-- COMMIT (R448). -/
def execCommit (who : Writer) (l : Fin 16) (key : Byte) (s : State) : Answer := s.watch (doCommit who l key s)
/-- TST_KEY (R449). -/
def execTstKey (who : Writer) (v : Byte) (s : State) : Answer := s.watch (doTstKey who v s)
/-- TST_KEY_LOCKOUT_END (R449). -/
def execTstKeyLockoutEnd (s : State) : Answer := s.watch (doTstKeyLockoutEnd s)
/-- TST_UNLOCK_TIMEOUT (R449). -/
def execTstUnlockTimeout (s : State) : Answer := s.watch (doTstUnlockTimeout s)
/-- RELOCK (R449). -/
def execRelock (who : Writer) (s : State) : Answer := s.watch (doRelock who s)
/-- LOG_CLR (R449). -/
def execLogClr (who : Writer) (s : State) : Answer := s.watch (doLogClr who s)
/-- PERTURBATION_WRITE (R451). -/
def execPerturbationWrite (who : Writer) (off : BitVec 7) (w : Word) (s : State) : Answer :=
  s.watch (doPerturbationWrite who off w s)
/-- PARITY_INJECTION (R451). -/
def execParityInjection (who : Writer) (addr : BitVec 21) (space : Bool) (s : State) : Answer :=
  s.watch (doParityInjection who addr space s)
/-- REGISTER_WRITE (R13). -/
def execRegisterWrite (who : Writer) (addr : BitVec 20) (w : Word) (s : State) : Answer :=
  s.watch (doRegisterWrite who addr w s)
/-- ILLEGAL_INSTRUCTION (R424). -/
def execIllegalInstruction (k : Core) (w : Word) (s : State) : Answer := s.watch (doIllegalInstruction k w s)
/-- FREEZE_END (R117). -/
def execFreezeEnd (s : State) : Answer := s.watch (doFreezeEnd s)
/-- CORE_HALT (R431). -/
def execCoreHalt (k : Core) (s : State) : Answer := s.watch (doCoreHalt k s)
/-- CORE_RESUME (R431). -/
def execCoreResume (k : Core) (s : State) : Answer := s.watch (doCoreResume k s)
/-- TEST_EN_CHANGE (R348). -/
def execTestEnChange (high : Bool) (s : State) : Answer := s.watch (doTestEnChange high s)
/-- TPSHARDRESET (R256). -/
def execTpshardreset (p : Port) (s : State) : Answer := s.watch (doTpshardreset p s)
/-- TSRCRECOVER (R256). -/
def execTsrcrecover (p : Port) (s : State) : Answer := s.watch (doTsrcrecover p s)
/-- PR_SWAP_SOURCE_OFF (R253). -/
def execPrSwapSourceOff (p : Port) (s : State) : Answer := s.watch (doPrSwapSourceOff p s)
/-- FRS_SIGNAL_END (R231). -/
def execFrsSignalEnd (p : Port) (s : State) : Answer := s.watch (doFrsSignalEnd p s)

end Sys2Proof.Machine
end

