-- ==== Sys2Proof/Machine/Dispatch.lean ====
section
/-!
DEFINITION. One arm for each command.
-/

namespace Sys2Proof.Machine

def exec (i : Instr) (s : State) : Host.Outcome State Fault Refusal :=
  match i with
  | .houseInputGood src => Sys2Proof.Machine.execHouseInputGood src s
  | .houseInputFail fast => Sys2Proof.Machine.execHouseInputFail fast s
  | .d0Reset => Sys2Proof.Machine.execD0Reset s
  | .supplyMonitorChange m good hi src => Sys2Proof.Machine.execSupplyMonitorChange m good hi src s
  | .vddCoreQualified => Sys2Proof.Machine.execVddCoreQualified s
  | .supplyLoss m => Sys2Proof.Machine.execSupplyLoss m s
  | .vconnInBad => Sys2Proof.Machine.execVconnInBad s
  | .lfSrcWrite who crystal => Sys2Proof.Machine.execLfSrcWrite who crystal s
  | .crystalQualified => Sys2Proof.Machine.execCrystalQualified s
  | .xtalFail => Sys2Proof.Machine.execXtalFail s
  | .syncSeenRise hz => Sys2Proof.Machine.execSyncSeenRise hz s
  | .syncLost => Sys2Proof.Machine.execSyncLost s
  | .pllLock => Sys2Proof.Machine.execPllLock s
  | .clockMonitorTrip => Sys2Proof.Machine.execClockMonitorTrip s
  | .pwrDomReqWrite who v => Sys2Proof.Machine.execPwrDomReqWrite who v s
  | .domainPowerUp d => Sys2Proof.Machine.execDomainPowerUp d s
  | .dormantEnter who => Sys2Proof.Machine.execDormantEnter who s
  | .attachWatchDetect p => Sys2Proof.Machine.execAttachWatchDetect p s
  | .wake src => Sys2Proof.Machine.execWake src s
  | .wakeTimer => Sys2Proof.Machine.execWakeTimer s
  | .resetnLow => Sys2Proof.Machine.execResetnLow s
  | .resetnRise => Sys2Proof.Machine.execResetnRise s
  | .keeperRead => Sys2Proof.Machine.execKeeperRead s
  | .startAttemptBegin => Sys2Proof.Machine.execStartAttemptBegin s
  | .flashProbeDone sfdp => Sys2Proof.Machine.execFlashProbeDone sfdp s
  | .candidateReadDone slotB img other => Sys2Proof.Machine.execCandidateReadDone slotB img other s
  | .startTimeout => Sys2Proof.Machine.execStartTimeout s
  | .retryDelayEnd => Sys2Proof.Machine.execRetryDelayEnd s
  | .healthy k => Sys2Proof.Machine.execHealthy k s
  | .restartOrderly who key => Sys2Proof.Machine.execRestartOrderly who key s
  | .restartNow who key => Sys2Proof.Machine.execRestartNow who key s
  | .clearFails who key => Sys2Proof.Machine.execClearFails who key s
  | .flashXferGo who ctrl => Sys2Proof.Machine.execFlashXferGo who ctrl s
  | .flashXferDone data => Sys2Proof.Machine.execFlashXferDone data s
  | .loadAll who => Sys2Proof.Machine.execLoadAll who s
  | .masterValley late loadLate faultnHigh => Sys2Proof.Machine.execMasterValley late loadLate faultnHigh s
  | .valley n => Sys2Proof.Machine.execValley n s
  | .peak n => Sys2Proof.Machine.execPeak n s
  | .triggerFire n k x => Sys2Proof.Machine.execTriggerFire n k x s
  | .currentConversionDone adc => Sys2Proof.Machine.execCurrentConversionDone adc s
  | .delayLineCalDone h code => Sys2Proof.Machine.execDelayLineCalDone h code s
  | .recalibration who h code => Sys2Proof.Machine.execRecalibration who h code s
  | .engineEnClear who => Sys2Proof.Machine.execEngineEnClear who s
  | .engineFreeze => Sys2Proof.Machine.execEngineFreeze s
  | .faultnLow => Sys2Proof.Machine.execFaultnLow s
  | .clrTrgDrop who => Sys2Proof.Machine.execClrTrgDrop who s
  | .peCntClr who mask => Sys2Proof.Machine.execPeCntClr who mask s
  | .compensatorUpdate n vs shunt => Sys2Proof.Machine.execCompensatorUpdate n vs shunt s
  | .vrefWrite who l code => Sys2Proof.Machine.execVrefWrite who l code s
  | .referenceStep l => Sys2Proof.Machine.execReferenceStep l s
  | .cardingStep l => Sys2Proof.Machine.execCardingStep l s
  | .fullingEnd l => Sys2Proof.Machine.execFullingEnd l s
  | .noticedInstant l => Sys2Proof.Machine.execNoticedInstant l s
  | .prebiasDone l uv selfTest => Sys2Proof.Machine.execPrebiasDone l uv selfTest s
  | .rampStart l => Sys2Proof.Machine.execRampStart l s
  | .stopLowEnd l => Sys2Proof.Machine.execStopLowEnd l s
  | .stgEnFall l => Sys2Proof.Machine.execStgEnFall l s
  | .settledRise l => Sys2Proof.Machine.execSettledRise l s
  | .swap who l => Sys2Proof.Machine.execSwap who l s
  | .blkGo who l => Sys2Proof.Machine.execBlkGo who l s
  | .injectionEnd l => Sys2Proof.Machine.execInjectionEnd l s
  | .verdict l fit set => Sys2Proof.Machine.execVerdict l fit set s
  | .fbForce who l => Sys2Proof.Machine.execFbForce who l s
  | .fallbackPulseStart l vs imon => Sys2Proof.Machine.execFallbackPulseStart l vs imon s
  | .fallbackPulseEnd l => Sys2Proof.Machine.execFallbackPulseEnd l s
  | .foldingQuiet l => Sys2Proof.Machine.execFoldingQuiet l s
  | .fbRet who l => Sys2Proof.Machine.execFbRet who l s
  | .retiredClear who n => Sys2Proof.Machine.execRetiredClear who n s
  | .setTarget v f => Sys2Proof.Machine.execSetTarget v f s
  | .setSlew v f => Sys2Proof.Machine.execSetSlew v f s
  | .stepNotice v f => Sys2Proof.Machine.execStepNotice v f s
  | .setState v f => Sys2Proof.Machine.execSetState v f s
  | .getTelemetry v f => Sys2Proof.Machine.execGetTelemetry v f s
  | .getStatus v f => Sys2Proof.Machine.execGetStatus v f s
  | .clearAlert v f => Sys2Proof.Machine.execClearAlert v f s
  | .linkFrameRefused v frame waited => Sys2Proof.Machine.execLinkFrameRefused v frame waited s
  | .linkAbort v received => Sys2Proof.Machine.execLinkAbort v received s
  | .attentionPulse v again => Sys2Proof.Machine.execAttentionPulse v again s
  | .attentionPulseEnd v => Sys2Proof.Machine.execAttentionPulseEnd v s
  | .vlkMapWrite who v w => Sys2Proof.Machine.execVlkMapWrite who v w s
  | .vlkCntClr who v => Sys2Proof.Machine.execVlkCntClr who v s
  | .ovTrip l x => Sys2Proof.Machine.execOvTrip l x s
  | .ovClr who l x => Sys2Proof.Machine.execOvClr who l x s
  | .loffClr who l => Sys2Proof.Machine.execLoffClr who l s
  | .scTrip x => Sys2Proof.Machine.execScTrip x s
  | .overloadBlockEnd l => Sys2Proof.Machine.execOverloadBlockEnd l s
  | .uv l => Sys2Proof.Machine.execUv l s
  | .startShort l => Sys2Proof.Machine.execStartShort l s
  | .hiccupRestart l => Sys2Proof.Machine.execHiccupRestart l s
  | .hiccupClean l => Sys2Proof.Machine.execHiccupClean l s
  | .tcDebounceExpiry p cc1 cc2 => Sys2Proof.Machine.execTcDebounceExpiry p cc1 cc2 s
  | .drpToggle p => Sys2Proof.Machine.execDrpToggle p s
  | .errorRecoveryEnd p => Sys2Proof.Machine.execErrorRecoveryEnd p s
  | .tdrptry p seen => Sys2Proof.Machine.execTdrptry p seen s
  | .detachExceptionEnd p => Sys2Proof.Machine.execDetachExceptionEnd p s
  | .apply who p => Sys2Proof.Machine.execApply who p s
  | .pdMessageRx p m crcOk => Sys2Proof.Machine.execPdMessageRx p m crcOk s
  | .sourceCapabilities p => Sys2Proof.Machine.execSourceCapabilities p s
  | .request p => Sys2Proof.Machine.execRequest p s
  | .drSwap p => Sys2Proof.Machine.execDrSwap p s
  | .prSwap p => Sys2Proof.Machine.execPrSwap p s
  | .vconnSwap p => Sys2Proof.Machine.execVconnSwap p s
  | .eprMode p => Sys2Proof.Machine.execEprMode p s
  | .eprKeepalive p => Sys2Proof.Machine.execEprKeepalive p s
  | .frSwap p => Sys2Proof.Machine.execFrSwap p s
  | .psRdy p => Sys2Proof.Machine.execPsRdy p s
  | .treceive p => Sys2Proof.Machine.execTreceive p s
  | .hardResetRx p => Sys2Proof.Machine.execHardResetRx p s
  | .hardResetTx p => Sys2Proof.Machine.execHardResetTx p s
  | .cableReset p => Sys2Proof.Machine.execCableReset p s
  | .tsenderresponse p => Sys2Proof.Machine.execTsenderresponse p s
  | .ttypecsendsourcecap p => Sys2Proof.Machine.execTtypecsendsourcecap p s
  | .tsinkwaitcap p => Sys2Proof.Machine.execTsinkwaitcap p s
  | .tpstransition p => Sys2Proof.Machine.execTpstransition p s
  | .thardreset p => Sys2Proof.Machine.execThardreset p s
  | .tnoresponse p => Sys2Proof.Machine.execTnoresponse p s
  | .tenterepr p => Sys2Proof.Machine.execTenterepr p s
  | .tsinkeprkeepalive p => Sys2Proof.Machine.execTsinkeprkeepalive p s
  | .tsourceeprkeepalive p => Sys2Proof.Machine.execTsourceeprkeepalive p s
  | .tppsrequest p => Sys2Proof.Machine.execTppsrequest p s
  | .tppstimeout p => Sys2Proof.Machine.execTppstimeout p s
  | .tpssourceon p => Sys2Proof.Machine.execTpssourceon p s
  | .vconnOc p => Sys2Proof.Machine.execVconnOc p s
  | .cableDiscoveryRetry p => Sys2Proof.Machine.execCableDiscoveryRetry p s
  | .frsSignal p => Sys2Proof.Machine.execFrsSignal p s
  | .frsFail p => Sys2Proof.Machine.execFrsFail p s
  | .reqDr who p => Sys2Proof.Machine.execReqDr who p s
  | .reqPr who p => Sys2Proof.Machine.execReqPr who p s
  | .enter who p idx => Sys2Proof.Machine.execEnter who p idx s
  | .exit who p idx => Sys2Proof.Machine.execExit who p idx s
  | .vdmTxGo who p count sop => Sys2Proof.Machine.execVdmTxGo who p count sop s
  | .vdmRxRelease who p => Sys2Proof.Machine.execVdmRxRelease who p s
  | .pmemWrite p => Sys2Proof.Machine.execPmemWrite p s
  | .pmemRead who idx => Sys2Proof.Machine.execPmemRead who idx s
  | .pmemPin who idx => Sys2Proof.Machine.execPmemPin who idx s
  | .pmemUnpin who idx => Sys2Proof.Machine.execPmemUnpin who idx s
  | .pmemForget who idx => Sys2Proof.Machine.execPmemForget who idx s
  | .pmemForgetAllUnpinned who => Sys2Proof.Machine.execPmemForgetAllUnpinned who s
  | .converterNodeQualified x => Sys2Proof.Machine.execConverterNodeQualified x s
  | .vreached x => Sys2Proof.Machine.execVreached x s
  | .gateClosed p => Sys2Proof.Machine.execGateClosed p s
  | .gateFail p => Sys2Proof.Machine.execGateFail p s
  | .dschgDone p => Sys2Proof.Machine.execDschgDone p s
  | .dschgTmo p => Sys2Proof.Machine.execDschgTmo p s
  | .portOc x => Sys2Proof.Machine.execPortOc x s
  | .sinkUv x => Sys2Proof.Machine.execSinkUv x s
  | .sinkRestart x => Sys2Proof.Machine.execSinkRestart x s
  | .reverseCurrentEnd p => Sys2Proof.Machine.execReverseCurrentEnd p s
  | .vsysShed => Sys2Proof.Machine.execVsysShed s
  | .portOv x => Sys2Proof.Machine.execPortOv x s
  | .vsysOv => Sys2Proof.Machine.execVsysOv s
  | .peakTrip x => Sys2Proof.Machine.execPeakTrip x s
  | .revCur x => Sys2Proof.Machine.execRevCur x s
  | .dbOc x => Sys2Proof.Machine.execDbOc x s
  | .dbRetry p => Sys2Proof.Machine.execDbRetry p s
  | .grantRequest p want => Sys2Proof.Machine.execGrantRequest p want s
  | .budgetRecompute => Sys2Proof.Machine.execBudgetRecompute s
  | .targetWrite who k => Sys2Proof.Machine.execTargetWrite who k s
  | .railOn n => Sys2Proof.Machine.execRailOn n s
  | .railOff n => Sys2Proof.Machine.execRailOff n s
  | .seqWindowCrossing n uv => Sys2Proof.Machine.execSeqWindowCrossing n uv s
  | .railGood n => Sys2Proof.Machine.execRailGood n s
  | .railBad n => Sys2Proof.Machine.execRailBad n s
  | .railReadsOff x => Sys2Proof.Machine.execRailReadsOff x s
  | .seqPowerUpStepComplete late => Sys2Proof.Machine.execSeqPowerUpStepComplete late s
  | .seqPowerDownStepComplete => Sys2Proof.Machine.execSeqPowerDownStepComplete s
  | .pgTimeout => Sys2Proof.Machine.execPgTimeout s
  | .disTimeout => Sys2Proof.Machine.execDisTimeout s
  | .syncReleaseQualified => Sys2Proof.Machine.execSyncReleaseQualified s
  | .syncHoldEnd => Sys2Proof.Machine.execSyncHoldEnd s
  | .syncTimeout => Sys2Proof.Machine.execSyncTimeout s
  | .rstoutRelease m => Sys2Proof.Machine.execRstoutRelease m s
  | .seqStateWrite who n k => Sys2Proof.Machine.execSeqStateWrite who n k s
  | .seqFaultClr who => Sys2Proof.Machine.execSeqFaultClr who s
  | .page h t => Sys2Proof.Machine.execPage h t s
  | .operation h t => Sys2Proof.Machine.execOperation h t s
  | .onOffConfig h t => Sys2Proof.Machine.execOnOffConfig h t s
  | .clearFaults h t => Sys2Proof.Machine.execClearFaults h t s
  | .voutCommand h t => Sys2Proof.Machine.execVoutCommand h t s
  | .voutMax h t => Sys2Proof.Machine.execVoutMax h t s
  | .voutTransitionRate h t => Sys2Proof.Machine.execVoutTransitionRate h t s
  | .ioutOcFaultLimit h t => Sys2Proof.Machine.execIoutOcFaultLimit h t s
  | .statusByte h t => Sys2Proof.Machine.execStatusByte h t s
  | .statusWord h t => Sys2Proof.Machine.execStatusWord h t s
  | .statusVout h t => Sys2Proof.Machine.execStatusVout h t s
  | .statusIout h t => Sys2Proof.Machine.execStatusIout h t s
  | .statusTemperature h t => Sys2Proof.Machine.execStatusTemperature h t s
  | .statusCml h t => Sys2Proof.Machine.execStatusCml h t s
  | .readVin h t mv => Sys2Proof.Machine.execReadVin h t mv s
  | .readVout h t uv => Sys2Proof.Machine.execReadVout h t uv s
  | .readIout h t => Sys2Proof.Machine.execReadIout h t s
  | .readTemperature1 h t => Sys2Proof.Machine.execReadTemperature1 h t s
  | .readPout h t uv => Sys2Proof.Machine.execReadPout h t uv s
  | .mfrId h t => Sys2Proof.Machine.execMfrId h t s
  | .mfrModel h t => Sys2Proof.Machine.execMfrModel h t s
  | .mfrRevision h t => Sys2Proof.Machine.execMfrRevision h t s
  | .regWrite h t => Sys2Proof.Machine.execRegWrite h t s
  | .regPtr h t => Sys2Proof.Machine.execRegPtr h t s
  | .regRead h t => Sys2Proof.Machine.execRegRead h t s
  | .regMaskwrite h t => Sys2Proof.Machine.execRegMaskwrite h t s
  | .regResult h t => Sys2Proof.Machine.execRegResult h t s
  | .unsupportedCommand h t code => Sys2Proof.Machine.execUnsupportedCommand h t code s
  | .abandoned h => Sys2Proof.Machine.execAbandoned h s
  | .sclLowTimeout h => Sys2Proof.Machine.execSclLowTimeout h s
  | .stretchTimeout h read => Sys2Proof.Machine.execStretchTimeout h read s
  | .hostNotify h e => Sys2Proof.Machine.execHostNotify h e s
  | .notifyRetry h e => Sys2Proof.Machine.execNotifyRetry h e s
  | .hpCntClr who h => Sys2Proof.Machine.execHpCntClr who h s
  | .claim h secure => Sys2Proof.Machine.execClaim h secure s
  | .release h secure => Sys2Proof.Machine.execRelease h secure s
  | .give h secure => Sys2Proof.Machine.execGive h secure s
  | .mbxDataWrite who n w => Sys2Proof.Machine.execMbxDataWrite who n w s
  | .mbxAckWrite who n code => Sys2Proof.Machine.execMbxAckWrite who n code s
  | .irqCauseWrite who g v => Sys2Proof.Machine.execIrqCauseWrite who g v s
  | .irqEnWrite who h g v => Sys2Proof.Machine.execIrqEnWrite who h g v s
  | .checkMismatch l => Sys2Proof.Machine.execCheckMismatch l s
  | .checkerSelfTest pass => Sys2Proof.Machine.execCheckerSelfTest pass s
  | .senseXcheck x => Sys2Proof.Machine.execSenseXcheck x s
  | .clkFrc => Sys2Proof.Machine.execClkFrc s
  | .clkSlow => Sys2Proof.Machine.execClkSlow s
  | .scrubRead word => Sys2Proof.Machine.execScrubRead word s
  | .regParitySweep => Sys2Proof.Machine.execRegParitySweep s
  | .tcvStart who => Sys2Proof.Machine.execTcvStart who s
  | .tcvStop who => Sys2Proof.Machine.execTcvStop who s
  | .conversionDone mean wild stopped => Sys2Proof.Machine.execConversionDone mean wild stopped s
  | .urgent who n => Sys2Proof.Machine.execUrgent who n s
  | .refSelWrite who v => Sys2Proof.Machine.execRefSelWrite who v s
  | .refSettled => Sys2Proof.Machine.execRefSettled s
  | .avgClr who n => Sys2Proof.Machine.execAvgClr who n s
  | .syscalZero who n => Sys2Proof.Machine.execSyscalZero who n s
  | .syscalFullScale who n => Sys2Proof.Machine.execSyscalFullScale who n s
  | .syscalCommit who n key => Sys2Proof.Machine.execSyscalCommit who n key s
  | .thmGo who => Sys2Proof.Machine.execThmGo who s
  | .thmDemandTimer => Sys2Proof.Machine.execThmDemandTimer s
  | .shutHoldMeasure => Sys2Proof.Machine.execShutHoldMeasure s
  | .thDone counts => Sys2Proof.Machine.execThDone counts s
  | .write who key => Sys2Proof.Machine.execWrite who key s
  | .startClr who key => Sys2Proof.Machine.execStartClr who key s
  | .keyset who key => Sys2Proof.Machine.execKeyset who key s
  | .keeperGroupDone same => Sys2Proof.Machine.execKeeperGroupDone same s
  | .keeperOperationDone => Sys2Proof.Machine.execKeeperOperationDone s
  | .opminPersist => Sys2Proof.Machine.execOpminPersist s
  | .kprRdataRead who => Sys2Proof.Machine.execKprRdataRead who s
  | .holdupUsedClear who => Sys2Proof.Machine.execHoldupUsedClear who s
  | .protLock who => Sys2Proof.Machine.execProtLock who s
  | .recorderPersist => Sys2Proof.Machine.execRecorderPersist s
  | .flush who => Sys2Proof.Machine.execFlush who s
  | .snap who => Sys2Proof.Machine.execSnap who s
  | .statisticsSample power vin vsys => Sys2Proof.Machine.execStatisticsSample power vin vsys s
  | .add k rd ra rb => Sys2Proof.Machine.execAdd k rd ra rb s
  | .sub k rd ra rb => Sys2Proof.Machine.execSub k rd ra rb s
  | .and_ k rd ra rb => Sys2Proof.Machine.execAnd k rd ra rb s
  | .or_ k rd ra rb => Sys2Proof.Machine.execOr k rd ra rb s
  | .xor k rd ra rb => Sys2Proof.Machine.execXor k rd ra rb s
  | .shl k rd ra rb => Sys2Proof.Machine.execShl k rd ra rb s
  | .shr k rd ra rb => Sys2Proof.Machine.execShr k rd ra rb s
  | .sar k rd ra rb => Sys2Proof.Machine.execSar k rd ra rb s
  | .ror k rd ra rb => Sys2Proof.Machine.execRor k rd ra rb s
  | .cmp k ra rb => Sys2Proof.Machine.execCmp k ra rb s
  | .tst k ra rb => Sys2Proof.Machine.execTst k ra rb s
  | .addi k rd ra imm => Sys2Proof.Machine.execAddi k rd ra imm s
  | .andi k rd ra imm => Sys2Proof.Machine.execAndi k rd ra imm s
  | .ori k rd ra imm => Sys2Proof.Machine.execOri k rd ra imm s
  | .xori k rd ra imm => Sys2Proof.Machine.execXori k rd ra imm s
  | .shli k rd ra n => Sys2Proof.Machine.execShli k rd ra n s
  | .shri k rd ra n => Sys2Proof.Machine.execShri k rd ra n s
  | .sari k rd ra n => Sys2Proof.Machine.execSari k rd ra n s
  | .rori k rd ra n => Sys2Proof.Machine.execRori k rd ra n s
  | .cmpi k ra imm => Sys2Proof.Machine.execCmpi k ra imm s
  | .lui k rd imm => Sys2Proof.Machine.execLui k rd imm s
  | .clz k rd ra => Sys2Proof.Machine.execClz k rd ra s
  | .popc k rd ra => Sys2Proof.Machine.execPopc k rd ra s
  | .bfx k rd ra pos lm1 => Sys2Proof.Machine.execBfx k rd ra pos lm1 s
  | .bfxs k rd ra pos lm1 => Sys2Proof.Machine.execBfxs k rd ra pos lm1 s
  | .bfi k rd ra pos lm1 => Sys2Proof.Machine.execBfi k rd ra pos lm1 s
  | .perm k rd ra sel => Sys2Proof.Machine.execPerm k rd ra sel s
  | .sel k rd ra rb cond => Sys2Proof.Machine.execSel k rd ra rb cond s
  | .macq k ra rb => Sys2Proof.Machine.execMacq k ra rb s
  | .ldw k rd ra imm glitch => Sys2Proof.Machine.execLdw k rd ra imm glitch s
  | .ldh k rd ra imm glitch => Sys2Proof.Machine.execLdh k rd ra imm glitch s
  | .ldhs k rd ra imm glitch => Sys2Proof.Machine.execLdhs k rd ra imm glitch s
  | .ldb k rd ra imm glitch => Sys2Proof.Machine.execLdb k rd ra imm glitch s
  | .ldbs k rd ra imm glitch => Sys2Proof.Machine.execLdbs k rd ra imm glitch s
  | .stw k rd ra imm => Sys2Proof.Machine.execStw k rd ra imm s
  | .sth k rd ra imm => Sys2Proof.Machine.execSth k rd ra imm s
  | .stb k rd ra imm => Sys2Proof.Machine.execStb k rd ra imm s
  | .bset k bit => Sys2Proof.Machine.execBset k bit s
  | .bclr k bit => Sys2Proof.Machine.execBclr k bit s
  | .btgl k bit => Sys2Proof.Machine.execBtgl k bit s
  | .btst k bit => Sys2Proof.Machine.execBtst k bit s
  | .bbs k bit off => Sys2Proof.Machine.execBbs k bit off s
  | .bbc k bit off => Sys2Proof.Machine.execBbc k bit off s
  | .boprSet k ra => Sys2Proof.Machine.execBoprSet k ra s
  | .boprClear k ra => Sys2Proof.Machine.execBoprClear k ra s
  | .boprToggle k ra => Sys2Proof.Machine.execBoprToggle k ra s
  | .boprTest k ra => Sys2Proof.Machine.execBoprTest k ra s
  | .boprRead k rd ra => Sys2Proof.Machine.execBoprRead k rd ra s
  | .bcond k cond off => Sys2Proof.Machine.execBcond k cond off s
  | .call k off => Sys2Proof.Machine.execCall k off s
  | .jr k ra => Sys2Proof.Machine.execJr k ra s
  | .jlr k rd ra => Sys2Proof.Machine.execJlr k rd ra s
  | .mulu k ra rb => Sys2Proof.Machine.execMulu k ra rb s
  | .muls k ra rb => Sys2Proof.Machine.execMuls k ra rb s
  | .macs k ra rb => Sys2Proof.Machine.execMacs k ra rb s
  | .mulq k ra rb => Sys2Proof.Machine.execMulq k ra rb s
  | .multiplierResult k => Sys2Proof.Machine.execMultiplierResult k s
  | .mfc k rd creg => Sys2Proof.Machine.execMfc k rd creg s
  | .mtc k ra creg => Sys2Proof.Machine.execMtc k ra creg s
  | .svc k imm => Sys2Proof.Machine.execSvc k imm s
  | .eret k => Sys2Proof.Machine.execEret k s
  | .wfe k => Sys2Proof.Machine.execWfe k s
  | .fence k => Sys2Proof.Machine.execFence k s
  | .event k => Sys2Proof.Machine.execEvent k s
  | .budget k => Sys2Proof.Machine.execBudget k s
  | .watchdogExpiry k => Sys2Proof.Machine.execWatchdogExpiry k s
  | .kick who k v => Sys2Proof.Machine.execKick who k v s
  | .coreTimerExpiry k => Sys2Proof.Machine.execCoreTimerExpiry k s
  | .ring who k => Sys2Proof.Machine.execRing who k s
  | .appletInvocation n event arg entry budget => Sys2Proof.Machine.execAppletInvocation n event arg entry budget s
  | .liveStageData who w => Sys2Proof.Machine.execLiveStageData who w s
  | .verify who => Sys2Proof.Machine.execVerify who s
  | .handoverReq who k => Sys2Proof.Machine.execHandoverReq who k s
  | .ready who k => Sys2Proof.Machine.execReady who k s
  | .handoverTimeout k => Sys2Proof.Machine.execHandoverTimeout k s
  | .handoverCopyDone k => Sys2Proof.Machine.execHandoverCopyDone k s
  | .alive who k => Sys2Proof.Machine.execAlive who k s
  | .notAlive k => Sys2Proof.Machine.execNotAlive k s
  | .liveRetire who ch => Sys2Proof.Machine.execLiveRetire who ch s
  | .retrimGo who l => Sys2Proof.Machine.execRetrimGo who l s
  | .retrimTwinSettled agree => Sys2Proof.Machine.execRetrimTwinSettled agree s
  | .retrimTrimsComputed trims agree => Sys2Proof.Machine.execRetrimTrimsComputed trims agree s
  | .retrimTimeout => Sys2Proof.Machine.execRetrimTimeout s
  | .retrimAbort => Sys2Proof.Machine.execRetrimAbort s
  | .commit who l key => Sys2Proof.Machine.execCommit who l key s
  | .tstKey who v => Sys2Proof.Machine.execTstKey who v s
  | .tstKeyLockoutEnd => Sys2Proof.Machine.execTstKeyLockoutEnd s
  | .tstUnlockTimeout => Sys2Proof.Machine.execTstUnlockTimeout s
  | .relock who => Sys2Proof.Machine.execRelock who s
  | .logClr who => Sys2Proof.Machine.execLogClr who s
  | .perturbationWrite who off w => Sys2Proof.Machine.execPerturbationWrite who off w s
  | .parityInjection who addr space => Sys2Proof.Machine.execParityInjection who addr space s
  | .registerWrite who addr w => Sys2Proof.Machine.execRegisterWrite who addr w s
  | .illegalInstruction k w => Sys2Proof.Machine.execIllegalInstruction k w s
  | .freezeEnd => Sys2Proof.Machine.execFreezeEnd s
  | .coreHalt k => Sys2Proof.Machine.execCoreHalt k s
  | .coreResume k => Sys2Proof.Machine.execCoreResume k s
  | .testEnChange high => Sys2Proof.Machine.execTestEnChange high s
  | .tpshardreset p => Sys2Proof.Machine.execTpshardreset p s
  | .tsrcrecover p => Sys2Proof.Machine.execTsrcrecover p s
  | .prSwapSourceOff p => Sys2Proof.Machine.execPrSwapSourceOff p s
  | .frsSignalEnd p => Sys2Proof.Machine.execFrsSignalEnd p s

end Sys2Proof.Machine
end

