-- ==== Sys2Proof/Machine/Pins.lean ====
section
/-!
DEFINITION. What the signals of Table 1.2 carry: their initial states, the states that isolation holds (R39), the pins of
a bank without supply (R20), the terminations of the ports awake and in dormant (R41, R209-R211), and what the chapters
drive on the others. A command changes the state that these read; nothing here is state of its own.
-/

namespace Sys2Proof.Machine

/-- The signals of Table 1.2, but for the analog inputs, which are inputs always. -/
inductive Signal where
  | pwm (n : Fin 24)
  | legA (n : Fin 8)
  | legB (n : Fin 8)
  | stgEn (k : Fin 8)
  | faultn | syncIn
  | vlkCk (v : Port)
  | vlkD (v : Port)
  | cc (p : Port) (second : Bool)
  | gate (p : Port)
  | dschg (p : Port)
  | seqEn (n : Fin 28)
  | seqSync
  | rstout (m : Fin 4)
  | resetn | testEn
  | scl (h : HostId)
  | sda (h : HostId)
  | intn
  | spiCs | spiCk
  | spiIo (k : Fin 4)
  | dbg
  | crystal
  deriving DecidableEq, Repr

/-- What a signal carries. A pull is up (true) or down. -/
inductive Level where
  | low | high
  /-- The mid-level of a rail pin: high impedance there. -/
  | mid
  /-- An input, and a pin whose bank has no supply; only the pull listed acts. -/
  | input (pull : Option Bool)
  | highZ (pull : Option Bool)
  /-- An open-drain pin that is not driven low. -/
  | released
  /-- A CC pin's termination, or VCONN on it. -/
  | cc (t : CcTerm)
  | vconn
  /-- A gate pulled to its GSRC_Pp, or charged toward 10 V above it (R257). -/
  | atSource | charged
  | oscOff | oscOn
  deriving DecidableEq, Repr

/-- A pin of bank A or B: high impedance but for its pull where the bank's supply is absent, which its monitor tells
(R20, R29). -/
def State.onBankA (s : State) (pull : Option Bool) (l : Level) : Level :=
  if s.bit F.SUPPLY_STATUS_VDDIO_A_OK then l else .highZ pull
def State.onBankB (s : State) (pull : Option Bool) (l : Level) : Level :=
  if s.bit F.SUPPLY_STATUS_VDDIO_B_OK then l else .highZ pull

def levelOf (b : Bool) : Level := if b then .high else .low

/-- R41: the termination of a port's attach watch in dormant: open, Rd, the Rp of RP_SEL, or, alternating, either. Which
of the two a dual-role watch presents at an instant is timing: `source` says it. -/
def State.watchTerm (s : State) (p : Port) (source : Bool) : CcTerm :=
  let rp : CcTerm := .rp (Fin.ofNat 3 (min (s.fld F.DORMANT_CFG_RP_SEL) 2))
  match s.watchOf p with
  | 0 => .vacant | 1 => .rd | 2 => rp | _ => if source then rp else .rd

/-- The part of a dual-role period that a port spends as source, in tenths, awake and in dormant (R41, R51, Table 7.2). -/
def State.drpSource (s : State) : Nat := 3 + min (s.fld F.DORMANT_CFG_DRP_SRC) 4

/-- R209-R211: one CC pin of a port that is awake. An attached port carries its termination on the pin of the
orientation, and VCONN or nothing on the other; the FRS signal holds CC low (R231). -/
def State.ccPin (s : State) (p : Port) (second : Bool) : Level :=
  let own := s.bit (F.PD_Pp_STATUS_ORIENT p) == second
  if (s.isSource p || s.isSink p) && !s.deadBattery then
    if own then if (s.port p).frsDrive then .low else .cc (s.presented p)
    else if s.bit (F.PD_Pp_STATUS_VCONN_SRC p) then .vconn else .cc .vacant
  else .cc (s.presented p)

/-- What a signal carries; `source` is the phase of a dual-role watch. -/
def State.signal (s : State) (source : Bool) : Signal → Level
  | .pwm n => s.onBankA none (match s.pin ⟨n.val, by omega⟩ with | 0 => .low | 1 => .high | _ => .mid)
  | .legA n => s.onBankA (some false) (levelOf (s.pin ⟨24 + n.val, by omega⟩ == 1))
  | .legB n => s.onBankA (some false) (levelOf (s.pin ⟨24 + n.val, by omega⟩ == 2))
  | .stgEn k => s.onBankA (some false) (levelOf (s.domOn 9 && (s.loop (railLoop k)).stgEn))
  | .faultn => .input (some true)
  | .syncIn => .input (some false)
  | .vlkCk _ => .input (some false)
  | .vlkD _ => .input (some true)
  | .cc p second =>
    if !s.power.d0Up then .highZ none
    else if s.power.dormant then .cc (s.watchTerm p source)
    else s.ccPin p second
  | .gate p => if s.domOn 10 && ((s.path p).closing || s.bit (F.PP_Pp_STATUS_FETS p)) then .charged else .atSource
  | .dschg p => if s.domOn 10 && s.bit (F.PP_Pp_STATUS_DSCHG p) then .low else .released
  | .seqEn n => s.onBankB (some false) (levelOf (s.domOn 2 && s.railIsOn ⟨8 + n.val, by omega⟩))
  | .seqSync => if s.bit F.SEQ_STATUS_SYNC_DRIVE then .low else .released
  | .rstout m => s.onBankB (some false) (levelOf (s.domOn 2 && s.bit (F.SEQ_RSTm_LEVEL m)))
  | .resetn => .input (some true)
  | .testEn => .input (some false)
  | .scl _ => .released
  | .sda _ => .released
  | .intn => if s.intLow then .low else .released
  | .spiCs => s.onBankB (some true) .high
  | .spiCk => s.onBankB none .low
  | .spiIo k => if 2 ≤ k.val then .input (some true) else .input none
  | .dbg => .input (some false)
  | .crystal => match s.power.xtal with | .qualifying | .running => .oscOn | _ => .oscOff

end Sys2Proof.Machine
end

