-- ==== Sys2Proof/Safety.lean ====
section
/-!
DEFINITION. The terms in which claims are stated: the commands that are register writes and what they write, the commands
that are host transactions, a write that passes its checks, a core that has fetched, a state in which nothing further
falls due, and the invariant of the state.
-/

namespace Sys2Proof.Machine

/-! ### Register writes -/

/-- A write by `x.who` of the register at `a` passes every check of R9-R15: its writer can write now, and its code is OK. -/
def State.Accepts (s : State) (a : Nat) (x : RegWr) : Prop := s.canWrite x.who = true ∧ (s.regWrite a x).code = 0

/-- What an accepted write leaves: the register and its effect, and, for a host, the return code OK (R321). -/
def State.wrote (s : State) (a : Nat) (x : RegWr) : State := (s.regWrite a x).state.met x.who a 0

/-- From s to t no register changes but those of `as`, and the return code and PMBus status of the host ports (R321). -/
def State.RegsButFor (s t : State) (as : List Nat) : Prop :=
  ∀ b, b ∉ as → (∀ h : HostId, b ≠ A.HP_TWk_STATUS h) → t.reg b = s.reg b

end Sys2Proof.Machine

namespace Sys2Proof

open Sys2Proof.Machine

/-- The commands that are nothing but a write of a register: the address, the fields and the values. -/
def Instr.write? (c : Instr) : Option (Nat × RegWr) :=
  let one (who : Writer) (f : Fld) (v : Nat) : Option (Nat × RegWr) := some (f.addr, RegWr.field who f v)
  match c with
  | .lfSrcWrite who crystal => one who F.CLK_CFG_LF_SRC crystal.toNat
  | .pwrDomReqWrite who v => some (A.PWR_DOM_REQ, ⟨who, 0xFFF, v.setWidth 32⟩)
  | .dormantEnter who => one who F.DORMANT_CFG_ENTER 1
  | .healthy k => one (.core k) (F.START_HEALTH_HEALTHY.at k.val) 1
  | .restartOrderly who key =>
    some (A.START_CTRL, RegWr.fields who [(F.START_CTRL_KEY, key.toNat), (F.START_CTRL_RESTART_ORDERLY, 1)])
  | .restartNow who key =>
    some (A.START_CTRL, RegWr.fields who [(F.START_CTRL_KEY, key.toNat), (F.START_CTRL_RESTART_NOW, 1)])
  | .clearFails who key =>
    some (A.START_CTRL, RegWr.fields who [(F.START_CTRL_KEY, key.toNat), (F.START_CTRL_CLEAR_FAILS, 1)])
  | .flashXferGo who ctrl => some (A.FLASH_XFER_CTRL, ⟨who, 0x7FFFFF, 0x400000 ||| ctrl.setWidth 32⟩)
  | .loadAll who => one who F.PE_CTRL_LOAD_ALL 1
  | .engineEnClear who => one who F.PE_CTRL_ENGINE_EN 0
  | .clrTrgDrop who => one who F.PE_CTRL_CLR_TRG_DROP 1
  | .peCntClr who mask => some (A.PE_CNT_CLR, RegWr.word who mask)
  | .vrefWrite who l code => one who (F.LP_Ln_VREF_VREF l.val) code.toNat
  | .swap who l => one who (F.LP_Ln_CTRL_SWAP l.val) 1
  | .blkGo who l => one who (F.LP_Ln_BLK_CTRL_GO l.val) 1
  | .fbForce who l => one who (F.LP_Ln_CTRL_FB_FORCE l.val) 1
  | .fbRet who l => one who (F.LP_Ln_CTRL_FB_RET l.val) 1
  | .retiredClear who n => one who (F.LP_CHn_CARD_RETIRED n.val) 1
  | .vlkMapWrite who v w => some (A.VLK_n_MAP v.val, RegWr.word who w)
  | .vlkCntClr who v => one who (F.VLK_n_CFG_CNT_CLR v.val) 1
  | .loffClr who l => one who (F.PROT_Ln_CLR_LOFF_CLR l.val) 1
  | .apply who p => one who (F.PD_Pp_CFG_APPLY p.val) 1
  | .reqDr who p => one who (F.PD_Pp_CTRL_REQ_DR p.val) 1
  | .reqPr who p => one who (F.PD_Pp_CTRL_REQ_PR p.val) 1
  | .enter who p idx =>
    some (A.PD_Pp_CTRL p.val, RegWr.fields who [(F.PD_Pp_CTRL_MODE_IDX p.val, idx.val), (F.PD_Pp_CTRL_ENTER p.val, 1)])
  | .exit who p idx =>
    some (A.PD_Pp_CTRL p.val, RegWr.fields who [(F.PD_Pp_CTRL_MODE_IDX p.val, idx.val), (F.PD_Pp_CTRL_EXIT p.val, 1)])
  | .vdmTxGo who p count sop =>
    some (A.PD_Pp_VDM_TXCTL p.val, RegWr.fields who [(F.PD_Pp_VDM_TXCTL_COUNT p.val, count.val),
      (F.PD_Pp_VDM_TXCTL_SOP p.val, sop.val), (F.PD_Pp_VDM_TXCTL_GO p.val, 1)])
  | .vdmRxRelease who p => one who (F.PD_Pp_VDM_RXCTL_VALID p.val) 1
  | .pmemRead who idx =>
    some (A.PD_PMEM_CTRL, RegWr.fields who [(F.PD_PMEM_CTRL_INDEX, idx.val), (F.PD_PMEM_CTRL_OP, 1), (F.PD_PMEM_CTRL_GO, 1)])
  | .pmemPin who idx =>
    some (A.PD_PMEM_CTRL, RegWr.fields who [(F.PD_PMEM_CTRL_INDEX, idx.val), (F.PD_PMEM_CTRL_OP, 2), (F.PD_PMEM_CTRL_GO, 1)])
  | .pmemUnpin who idx =>
    some (A.PD_PMEM_CTRL, RegWr.fields who [(F.PD_PMEM_CTRL_INDEX, idx.val), (F.PD_PMEM_CTRL_OP, 3), (F.PD_PMEM_CTRL_GO, 1)])
  | .pmemForget who idx =>
    some (A.PD_PMEM_CTRL, RegWr.fields who [(F.PD_PMEM_CTRL_INDEX, idx.val), (F.PD_PMEM_CTRL_OP, 4), (F.PD_PMEM_CTRL_GO, 1)])
  | .pmemForgetAllUnpinned who =>
    some (A.PD_PMEM_CTRL, RegWr.fields who [(F.PD_PMEM_CTRL_INDEX, 0), (F.PD_PMEM_CTRL_OP, 5), (F.PD_PMEM_CTRL_GO, 1)])
  | .targetWrite who k => one who F.SEQ_CTRL_TARGET k.toNat
  | .seqStateWrite who n k => one who (F.SEQ_Sn_CFG_STATE n.val) k.toNat
  | .seqFaultClr who => one who F.SEQ_FAULT_CLR 1
  | .hpCntClr who h => one who (F.HP_TWk_CFG_CNT_CLR h.val) 1
  | .mbxAckWrite who n code => some (A.MBX_CHn_ACK n.val, RegWr.word who (code.setWidth 32))
  | .irqCauseWrite who g v => some (A.IRQ_CAUSEg g.val, RegWr.word who (v.setWidth 32))
  | .irqEnWrite who h g v => some (A.IRQ_ENk_g h.val g.val, RegWr.word who (v.setWidth 32))
  | .tcvStart who => one who F.TCV_CTRL_START 1
  | .tcvStop who => one who F.TCV_CTRL_STOP 1
  | .urgent who n => some (A.TCV_URGENT, RegWr.fields who [(F.TCV_URGENT_INPUT, n.val), (F.TCV_URGENT_GO, 1)])
  | .refSelWrite who v => one who F.TCV_CFG_REF_SEL v.val
  | .avgClr who n => one who (F.TCV_INn_AVG_AVG_CLR n.val) 1
  | .syscalZero who n =>
    some (A.TCV_SYSCAL, RegWr.fields who [(F.TCV_SYSCAL_INPUT, n.val), (F.TCV_SYSCAL_STEP, 1), (F.TCV_SYSCAL_GO, 1),
      (F.TCV_SYSCAL_KEY, 0)])
  | .syscalFullScale who n =>
    some (A.TCV_SYSCAL, RegWr.fields who [(F.TCV_SYSCAL_INPUT, n.val), (F.TCV_SYSCAL_STEP, 2), (F.TCV_SYSCAL_GO, 1),
      (F.TCV_SYSCAL_KEY, 0)])
  | .syscalCommit who n key =>
    some (A.TCV_SYSCAL, RegWr.fields who [(F.TCV_SYSCAL_INPUT, n.val), (F.TCV_SYSCAL_STEP, 3), (F.TCV_SYSCAL_GO, 1),
      (F.TCV_SYSCAL_KEY, key.toNat)])
  | .thmGo who => one who F.THM_CTRL_GO 1
  | .write who key =>
    some (A.KPR_CMD, RegWr.fields who [(F.KPR_CMD_OP, 1), (F.KPR_CMD_KEY, key.toNat), (F.KPR_CMD_GO, 1)])
  | .startClr who key =>
    some (A.KPR_CMD, RegWr.fields who [(F.KPR_CMD_OP, 2), (F.KPR_CMD_KEY, key.toNat), (F.KPR_CMD_GO, 1)])
  | .keyset who key =>
    some (A.KPR_CMD, RegWr.fields who [(F.KPR_CMD_OP, 3), (F.KPR_CMD_KEY, key.toNat), (F.KPR_CMD_GO, 1)])
  | .holdupUsedClear who => one who F.KPR_STATUS_HOLDUP_USED 1
  | .protLock who => one who F.KPR_PROT_PROT_LOCK 1
  | .flush who => one who F.REC_CTRL_FLUSH 1
  | .snap who => one who F.REC_CTRL_SNAP 1
  | .kick who k v => one who (F.CORE_Ck_WDOG_KICK k.val) v.toNat
  | .ring who k => one who (F.CORE_Ck_RING_RING k.val) 1
  | .liveStageData who w => some (A.LIVE_STAGE_DATA, RegWr.word who w)
  | .verify who => one who F.LIVE_STAGE_CTRL_VERIFY 1
  | .handoverReq who k => one who (F.LIVE_HOk_REQ k.val) 1
  | .ready who k => one who (F.LIVE_HOk_READY k.val) 1
  | .alive who k => one who (F.LIVE_HOk_ALIVE k.val) 1
  | .liveRetire who ch => some (A.LIVE_RETIRE, RegWr.fields who [(F.LIVE_RETIRE_CH, ch.val), (F.LIVE_RETIRE_GO, 1)])
  | .retrimGo who l => some (A.LIVE_RETRIM, RegWr.fields who [(F.LIVE_RETRIM_LOOP, l.val), (F.LIVE_RETRIM_GO, 1)])
  | .commit who l key =>
    some (A.LIVE_RETRIM, RegWr.fields who [(F.LIVE_RETRIM_LOOP, l.val), (F.LIVE_RETRIM_COMMIT, 1),
      (F.LIVE_RETRIM_KEY, key.toNat)])
  | .tstKey who v => one who F.TST_KEY_KEY v.toNat
  | .relock who => one who F.TST_CTRL_RELOCK 1
  | .logClr who => one who F.TST_CTRL_LOG_CLR 1
  | .parityInjection who addr space =>
    some (A.TST_PAR, RegWr.fields who [(F.TST_PAR_ADDR, addr.toNat), (F.TST_PAR_SPACE, space.toNat), (F.TST_PAR_GO, 1)])
  | .registerWrite who addr w => some (addr.toNat, RegWr.word who w)
  | _ => none

/-! ### Host transactions -/

/-- The commands that carry a PMBus or register-access command to a port: the port, the transaction, the command. -/
def Instr.transaction? (c : Instr) : Option (HostId × Txn × HostCmd) :=
  match c with
  | .page h t => some (h, t, cmdPage h)
  | .operation h t => some (h, t, cmdOperation h)
  | .onOffConfig h t => some (h, t, cmdOnOffConfig h)
  | .clearFaults h t => some (h, t, cmdClearFaults h)
  | .voutCommand h t => some (h, t, cmdVoutCommand h)
  | .voutMax h t => some (h, t, cmdVoutMax h)
  | .voutTransitionRate h t => some (h, t, cmdVoutTransitionRate h)
  | .ioutOcFaultLimit h t => some (h, t, cmdIoutOcFaultLimit h)
  | .statusByte h t => some (h, t, readByte 0x78 fun u => u.statusWord h)
  | .statusWord h t => some (h, t, readWord 0x79 fun u => u.statusWord h)
  | .statusVout h t => some (h, t, readByte 0x7A fun u => u.fld (F.HP_PGn_STATh_VOUT (u.page h) h))
  | .statusIout h t => some (h, t, readByte 0x7B fun u => u.fld (F.HP_PGn_STATh_IOUT (u.page h) h))
  | .statusTemperature h t => some (h, t, readByte 0x7D fun u => u.fld (F.HP_PGn_STATh_TEMP (u.page h) h))
  | .statusCml h t => some (h, t, readByte 0x7E fun u => u.fld (F.HP_TWk_STATUS_CML h))
  | .readVin h t mv => some (h, t, readWord 0x88 fun _ => linear11 ((mv : Rat) / 1000))
  | .readVout h t x => some (h, t, readWord 0x8B fun u => u.readVoutWord h x)
  | .readIout h t => some (h, t, readWord 0x8C fun u => u.readIoutWord h)
  | .readTemperature1 h t => some (h, t, readWord 0x8D fun u => linear11 ((u.sfld F.THM_MAX_MAX : Rat) / 8))
  | .readPout h t x => some (h, t, readWord 0x96 fun u => u.readPoutWord h x)
  | .mfrId h t => some (h, t, readBlock 0x99 (ascii "GWYNPEX"))
  | .mfrModel h t => some (h, t, readBlock 0x9A (ascii "VB2484-FA"))
  | .mfrRevision h t => some (h, t, readBlock 0x9B [Config.identity 2, Config.identity 3])
  | .regWrite h t => some (h, t, cmdRegWrite h)
  | .regPtr h t => some (h, t, cmdRegPtr h)
  | .regRead h t => some (h, t, cmdRegRead h)
  | .regMaskwrite h t => some (h, t, cmdRegMaskwrite h)
  | .regResult h t => some (h, t, cmdRegResult h)
  | _ => none

end Sys2Proof

namespace Sys2Proof.Machine

/-- The port answers the transaction, hears it, and serves its command (R303, R309, R312). -/
def State.Served (s : State) (h : HostId) (t : Txn) (c : HostCmd) : Prop :=
  s.answers h t = true ∧ s.hears h t = true ∧ s.serves c.code = true

/-! ### Cores -/

/-- Core k runs and has fetched the instruction at its PC; it executes in `u`, the fetch's own cycles spent. -/
def State.Fetched (s : State) (k : Core) (u : State) : Prop :=
  s.coreSt k = 1 ∧ ∃ n t, s.fetch k = .ok n t ∧ u = t.spend k n

/-- The instruction's end: its PC, and the cycles it took. -/
def State.retire (s : State) (k : Core) (pc : Word) (n : Nat) : State :=
  (s.modCore k fun c => { c with pc := pc }).spend k n


/-! ### What falls due -/

/-- Nothing falls due in the state: no restart waits, the start is not at an end, no conversion waits to be selected, no
VERIFY waits for C0, no core is to wake or to take BUDGET or EVENT, no applet's invocation is over, every domain that is on
is wanted, C2 has nothing to do at a port, and no rail loop is inside its window that cannot be. -/
structure State.Quiet (s : State) : Prop where
  restart : (s.boot.restart && s.cur == 0 && s.dir == 0 && !s.kprBusy) = false
  attempt : s.phaseNo ≠ 9
  start : s.startDone = false
  conversion : s.domOn 11 = false ∨ (s.tcv.run.any fun r => !s.givesWay r) = true
    ∨ (s.tcv.urgent = none ∧ s.bit F.TCV_CTRL_START = false)
  verify : (s.bit F.LIVE_STAGE_CTRL_VERIFY && s.coreActs 0) = false
  wake : ∀ k : Core, (s.coreSt k == 2 && s.evtDue k) = false
  budget : ∀ k : Core, s.budgetDue k = false
  event : ∀ k : Core, s.eventDue k = false
  applet : (s.applet.isSome && !s.inApp 3 && !s.psrBit 3 psrExl) = false
  domains : ∀ d : Nat, d < 12 → s.domOn d = true → s.domWanted d = true
  epr : ∀ p : Port, s.bit (F.PD_Pp_STATUS_EPR_MODE p) = false ∨ s.eprHolds p = true ∨ s.bit (F.PD_Pp_STATUS_AMS p) = true
    ∨ s.c2Acts = false
  offer : ∀ p : Port, s.c2Acts = false ∨ s.isSource p = false ∨ s.bit (F.PP_Pp_STATUS_FETS p) = false
    ∨ 0 < (s.port p).caps ∨ s.bit (F.PD_Pp_STATUS_CONTRACT p) = true
  messages : ∀ p : Port, (s.port p).rx = [] ∧ (s.port p).rxPrime = []
  inside : ∀ l : Fin 8, s.bit (F.SEQ_Sn_STAT_INSIDE l) = false ∨ s.canBeInside ⟨l.val, by omega⟩ = true

/-! ### The invariant -/

/-- A core's registers are in order: its bit space is in canonical form, w0 holds 0 (R419), and the bits of PSR that
Table 14.4 gives as 0 are 0. -/
structure CoreState.Ok (c : CoreState) : Prop where
  bits : c.bits.wf bitsDefault = true
  w0 : c.w[0] = 0
  psr : c.psr.toNat < 128

/-- The invariant: every memory is in canonical form, so that equal contents are equal data, and every core is in order. -/
structure State.Inv (s : State) : Prop where
  regs : s.regs.wf resetWord = true
  act : s.act.wf resetWord = true
  sram : s.sram.wf sramDefault = true
  pmem : s.pmem.wf pmemDefault = true
  cells : s.kpr.cells.wf kprDefault = true
  stats : s.recorder.stats.wf statsDefault = true
  extremes : s.recorder.extremes.wf extremesDefault = true
  snap : s.recorder.snap.wf statsDefault = true
  cores : ∀ k : Core, (s.cores[k]).Ok

end Sys2Proof.Machine
end

