-- ==== Sys2Proof/WellFormed.lean ====
section
/-!
DEFINITION. Which commands are well formed: what the types of their operands do not say.
-/

namespace Sys2Proof

/-- R59: the bytes of a flash slot. -/
def slotBytes : Nat := 0x180000

/-- R216, R222: at most 7 data objects; an extended message comes in chunks of as many. -/
def PdMsg.wf (m : PdMsg) : Bool :=
  decide (m.objs.length ≤ 7)

/-- A command is well formed. The meanings do not ask for it: they answer on every operand. -/
def Instr.wf : Instr → Bool
  -- R29: only an IO bank has a level.
  | .supplyMonitorChange m _ hi _ => !hi || m == .vddioA || m == .vddioB
  -- R34: a frequency is seen.
  | .syncSeenRise hz => decide (0 < hz)
  -- R59: a slot holds 0x18_0000 bytes; GENERATION is a word (Table 2.2).
  | .candidateReadDone _ img other => decide (img.length ≤ slotBytes) && other.all fun g => decide (g < 2 ^ 32)
  -- R83: the transfer buffer holds 64 bytes.
  | .flashXferDone data => decide (data.length ≤ 64)
  -- R216: a header counts at most 7 data objects.
  | .pdMessageRx _ m _ => m.wf
  -- R363: a mean beyond -10% to +110% comes of an excursion.
  | .conversionDone mean wild _ => wild || (decide (-(1 : Rat) / 10 ≤ mean) && decide (mean ≤ 11 / 10))
  -- R424: the word is no instruction.
  | .illegalInstruction _ w => (Pletra.decode w).isNone
  | .houseInputGood .. | .houseInputFail .. | .d0Reset | .vddCoreQualified | .supplyLoss .. | .vconnInBad
  | .lfSrcWrite .. | .crystalQualified | .xtalFail | .syncLost | .pllLock | .clockMonitorTrip | .pwrDomReqWrite ..
  | .domainPowerUp .. | .dormantEnter .. | .attachWatchDetect .. | .wake .. | .wakeTimer | .resetnLow | .resetnRise
  | .keeperRead | .startAttemptBegin | .flashProbeDone .. | .startTimeout | .retryDelayEnd | .healthy ..
  | .restartOrderly .. | .restartNow .. | .clearFails .. | .flashXferGo .. | .loadAll .. | .masterValley ..
  | .valley .. | .peak .. | .triggerFire .. | .currentConversionDone .. | .delayLineCalDone .. | .recalibration ..
  | .engineEnClear .. | .engineFreeze | .faultnLow | .clrTrgDrop .. | .peCntClr .. | .compensatorUpdate ..
  | .vrefWrite .. | .referenceStep .. | .cardingStep .. | .fullingEnd .. | .noticedInstant .. | .prebiasDone ..
  | .rampStart .. | .stopLowEnd .. | .stgEnFall .. | .settledRise .. | .swap .. | .blkGo .. | .injectionEnd ..
  | .verdict .. | .fbForce .. | .fallbackPulseStart .. | .fallbackPulseEnd .. | .foldingQuiet .. | .fbRet ..
  | .retiredClear .. | .setTarget .. | .setSlew .. | .stepNotice .. | .setState .. | .getTelemetry .. | .getStatus ..
  | .clearAlert .. | .linkFrameRefused .. | .linkAbort .. | .attentionPulse .. | .attentionPulseEnd ..
  | .vlkMapWrite .. | .vlkCntClr .. | .ovTrip .. | .ovClr .. | .loffClr .. | .scTrip .. | .overloadBlockEnd ..
  | .uv .. | .startShort .. | .hiccupRestart .. | .hiccupClean .. | .tcDebounceExpiry .. | .drpToggle ..
  | .errorRecoveryEnd .. | .tdrptry .. | .detachExceptionEnd .. | .apply .. | .sourceCapabilities .. | .request ..
  | .drSwap .. | .prSwap .. | .vconnSwap .. | .eprMode .. | .eprKeepalive .. | .frSwap .. | .psRdy .. | .treceive ..
  | .hardResetRx .. | .hardResetTx .. | .cableReset .. | .tsenderresponse .. | .ttypecsendsourcecap ..
  | .tsinkwaitcap .. | .tpstransition .. | .thardreset .. | .tnoresponse .. | .tenterepr .. | .tsinkeprkeepalive ..
  | .tsourceeprkeepalive .. | .tppsrequest .. | .tppstimeout .. | .tpssourceon .. | .vconnOc ..
  | .cableDiscoveryRetry .. | .frsSignal .. | .frsFail .. | .reqDr .. | .reqPr .. | .enter .. | .exit ..
  | .vdmTxGo .. | .vdmRxRelease .. | .pmemWrite .. | .pmemRead .. | .pmemPin .. | .pmemUnpin .. | .pmemForget ..
  | .pmemForgetAllUnpinned .. | .converterNodeQualified .. | .vreached .. | .gateClosed .. | .gateFail ..
  | .dschgDone .. | .dschgTmo .. | .portOc .. | .sinkUv .. | .sinkRestart .. | .reverseCurrentEnd .. | .vsysShed
  | .portOv .. | .vsysOv | .peakTrip .. | .revCur .. | .dbOc .. | .dbRetry .. | .grantRequest .. | .budgetRecompute
  | .targetWrite .. | .railOn .. | .railOff .. | .seqWindowCrossing .. | .railGood .. | .railBad ..
  | .railReadsOff .. | .seqPowerUpStepComplete .. | .seqPowerDownStepComplete | .pgTimeout | .disTimeout
  | .syncReleaseQualified | .syncHoldEnd | .syncTimeout | .rstoutRelease .. | .seqStateWrite .. | .seqFaultClr ..
  | .page .. | .operation .. | .onOffConfig .. | .clearFaults .. | .voutCommand .. | .voutMax ..
  | .voutTransitionRate .. | .ioutOcFaultLimit .. | .statusByte .. | .statusWord .. | .statusVout .. | .statusIout ..
  | .statusTemperature .. | .statusCml .. | .readVin .. | .readVout .. | .readIout .. | .readTemperature1 ..
  | .readPout .. | .mfrId .. | .mfrModel .. | .mfrRevision .. | .regWrite .. | .regPtr .. | .regRead ..
  | .regMaskwrite .. | .regResult .. | .unsupportedCommand .. | .abandoned .. | .sclLowTimeout ..
  | .stretchTimeout .. | .hostNotify .. | .notifyRetry .. | .hpCntClr .. | .claim .. | .release .. | .give ..
  | .mbxDataWrite .. | .mbxAckWrite .. | .irqCauseWrite .. | .irqEnWrite .. | .checkMismatch .. | .checkerSelfTest ..
  | .senseXcheck .. | .clkFrc | .clkSlow | .scrubRead .. | .regParitySweep | .tcvStart .. | .tcvStop .. | .urgent ..
  | .refSelWrite .. | .refSettled | .avgClr .. | .syscalZero .. | .syscalFullScale .. | .syscalCommit .. | .thmGo ..
  | .thmDemandTimer | .shutHoldMeasure | .thDone .. | .write .. | .startClr .. | .keyset .. | .keeperGroupDone ..
  | .keeperOperationDone | .opminPersist | .kprRdataRead .. | .holdupUsedClear .. | .protLock .. | .recorderPersist
  | .flush .. | .snap .. | .statisticsSample .. | .add .. | .sub .. | .and_ .. | .or_ .. | .xor .. | .shl ..
  | .shr .. | .sar .. | .ror .. | .cmp .. | .tst .. | .addi .. | .andi .. | .ori .. | .xori .. | .shli .. | .shri ..
  | .sari .. | .rori .. | .cmpi .. | .lui .. | .clz .. | .popc .. | .bfx .. | .bfxs .. | .bfi .. | .perm .. | .sel ..
  | .macq .. | .ldw .. | .ldh .. | .ldhs .. | .ldb .. | .ldbs .. | .stw .. | .sth .. | .stb .. | .bset .. | .bclr ..
  | .btgl .. | .btst .. | .bbs .. | .bbc .. | .boprSet .. | .boprClear .. | .boprToggle .. | .boprTest ..
  | .boprRead .. | .bcond .. | .call .. | .jr .. | .jlr .. | .mulu .. | .muls .. | .macs .. | .mulq ..
  | .multiplierResult .. | .mfc .. | .mtc .. | .svc .. | .eret .. | .wfe .. | .fence .. | .event .. | .budget ..
  | .watchdogExpiry .. | .kick .. | .coreTimerExpiry .. | .ring .. | .appletInvocation .. | .liveStageData ..
  | .verify .. | .handoverReq .. | .ready .. | .handoverTimeout .. | .handoverCopyDone .. | .alive .. | .notAlive ..
  | .liveRetire .. | .retrimGo .. | .retrimTwinSettled .. | .retrimTrimsComputed .. | .retrimTimeout | .retrimAbort
  | .commit .. | .tstKey .. | .tstKeyLockoutEnd | .tstUnlockTimeout | .relock .. | .logClr .. | .perturbationWrite ..
  | .parityInjection .. | .registerWrite .. | .freezeEnd | .coreHalt .. | .coreResume .. | .testEnChange ..
  | .tpshardreset .. | .tsrcrecover .. | .prSwapSourceOff .. | .frsSignalEnd .. => true

end Sys2Proof
end

