-- ==== Sys2Proof/Certificates/Slice0/Obligations.lean ====
section
/-!
DEFINITION. The statements for the provers. `exec c s = .next (s.settled t)` says that command `c` completes on `s` and
leaves exactly `t`, with what `t` makes fall due (`State.settled`, stated by itself).
-/

open Sys2Proof Sys2Proof.Machine

/-- A step takes the command at the front of the queue and answers what `exec` answers on it, with the rest of the queue
left waiting. -/
def Obligations.StepRunsTheCommandInFront : Prop :=
  ∀ (s : State) (c : Instr) (cs : List Instr), s.pending = c :: cs → step s = exec c { s with pending := cs }

/-- With no command waiting a millisecond passes (the model's choice, log 49): with the house input good the millisecond
counter counts, and each 60 000th adds an operating minute; without it the clock stands. The timers of running cores
follow (R431). -/
def Obligations.AnEmptyQueueLetsAMillisecondPass : Prop :=
  (∀ s : State, s.pending = [] → step s = .next (s.settled s.tick))
  ∧ (∀ s : State, s.bit F.SUPPLY_STATUS_HOUSE_OK = false → s.tickClock = s)
  ∧ (∀ s : State, s.bit F.SUPPLY_STATUS_HOUSE_OK = true →
      s.tickClock.power.ms = (s.power.ms + 1) % 2 ^ 32
      ∧ s.tickClock.power.opmin =
          (if (s.power.ms + 1) % 60000 = 0 then (s.power.opmin + 1) % 2 ^ 32 else s.power.opmin))
  ∧ (∀ (s : State) (k : Core), s.domOn 2 = true → s.coreSt k ≠ 3 → 1000 < s.fld (F.CORE_Ck_TIMER_COUNT k) →
      s.tickTimer k = s.setFld (F.CORE_Ck_TIMER_COUNT k) (s.fld (F.CORE_Ck_TIMER_COUNT k) - 1000))
  ∧ (∀ (s : State) (k : Core), s.domOn 2 = true → s.coreSt k ≠ 3 → 0 < s.fld (F.CORE_Ck_TIMER_COUNT k) →
      s.fld (F.CORE_Ck_TIMER_COUNT k) ≤ 1000 → s.tickTimer k =
        (s.setFld (F.CORE_Ck_TIMER_COUNT k) 0).setFld (F.CORE_Ck_EVT_PEND_TIMER k) 1)

/-- No command ends in a fault or a refusal, in any state and with any operands. -/
def Obligations.EveryCommandAnswersANextState : Prop :=
  ∀ (c : Instr) (s : State), ∃ t, exec c s = .next t

/-- Every step keeps the invariant: registers, shadow registers in force, SRAM, partner memory, keeper array, statistics,
extremes and snapshot stay in canonical form; in every core w0 holds 0 (R419), the bits of PSR given as 0 stay 0
(Table 14.4), and the bit space stays in canonical form. -/
def Obligations.EveryStepKeepsTheInvariant : Prop :=
  ∀ s t : State, s.Inv → step s = .next t → t.Inv

/-- The state after reset meets the invariant. -/
def Obligations.ResetMeetsTheInvariant : Prop :=
  State.reset.Inv

/-- Right after reset: nothing waits, no domain is on, every register holds the value of its Reset column, no core runs,
every core register is 0 (log 30), no loop or channel has a pulse, and the keeper runs no operation. -/
def Obligations.ResetLeavesNothingPowered : Prop :=
  State.reset.pending = []
  ∧ (∀ a : Nat, State.reset.reg a = resetWord a ∧ State.reset.actReg a = resetWord a)
  ∧ (∀ a : Nat, findReg a = none → State.reset.reg a = 0)
  ∧ (∀ d : Nat, d < 12 → State.reset.domOn d = false)
  ∧ (∀ k : Core, State.reset.coreSt k = 0 ∧ State.reset.core k = CoreState.reset)
  ∧ (∀ h : HostId, State.reset.fld (F.HP_TWk_STATUS_PAGE h) = 0)
  ∧ (∀ l : Loop, State.reset.loopSt l = 0)
  ∧ State.reset.kpr.running = none ∧ State.reset.tcv.run = none ∧ State.reset.sram = [] ∧ State.reset.pmem = []

/-- What a change brings about at once is nothing but the notifies and attention pulses that it makes due, where nothing
else falls due in the state it leaves; and those change only the records of the ports. -/
def Obligations.SettlingWhenNothingIsDue : Prop :=
  (∀ s t : State, t.Quiet → s.settled t = s.noteChange t)
  ∧ (∀ s t : State, ∃ hs ls, s.noteChange t = { t with hosts := hs, links := ls })
  ∧ (∀ t : State, t.noteChange t = t)

/-- R10, for reads and writes by software, by core loads and stores, and by host register commands. -/
def Obligations.UnassignedAddresses : Prop :=
  ∀ a : Nat, a < 0x100000 → findReg a = none →
    (∀ (s : State) (x : RegWr), (s.regWrite a x).code = 1 ∧ (s.regWrite a x).state = s)
    ∧ (∀ (s : State) (who : Writer), (s.readReg who a).word = 0 ∧ (s.readReg who a).code = 1 ∧ (s.readReg who a).state = s)
    ∧ (∀ (s : State) (k : Core) (glitch : Bool), s.inApp k = false → s.loadAt k (0x40000000 + a) 4 glitch = .trap .bus s)
    ∧ (∀ (s : State) (k : Core) (v : Word), s.inApp k = false → s.storeAt k (0x40000000 + a) 4 v = .trap .bus s)
    ∧ (∀ (s : State) (h : HostId) (addr : BitVec 20) (w : Word), addr.toNat = a → s.portOpen h = true →
        exec (.registerWrite (.host h) addr w) s = .next (s.settled (s.hostCode h 1)))

/-- R6: every register lies at a multiple of 4 within the 20-bit space, and a core reaches it by a whole aligned word or
not at all. -/
def Obligations.RegistersAreWholeAlignedWords : Prop :=
  (∀ (a : Nat) (r : RegAt), findReg a = some r → a % 4 = 0 ∧ a < 0x100000)
  ∧ (∀ (s : State) (k : Core) (a n : Nat) (glitch : Bool) (v : Word), s.inApp k = false →
      0x40000000 ≤ a → a < 0x40100000 → n ≠ 4 ∨ a % 4 ≠ 0 →
      s.loadAt k a n glitch = .trap .bus s ∧ s.storeAt k a n v = .trap .bus s)

/-- Every command that is a write of a register (`Instr.write?` gives its address, fields and values) completes when the
write is accepted, with the register, its effect and the return code; so do those that carry what the part measures
or the wire shows then. -/
def Obligations.RegisterCommandsComplete : Prop :=
  (∀ (c : Instr) (a : Nat) (x : RegWr) (s : State), c.write? = some (a, x) → s.Accepts a x →
    exec c s = .next (s.settled (s.wrote a x)))
  ∧ (∀ (w : Writer) (h : Half) (code : BitVec 10) (s : State), s.canWrite w = true → s.fieldCode w (halfGo h) 1 = 0 →
    s.domOn (halfDom h) = true → exec (.recalibration (some w) h code) s = .next (s.settled ((((s.mendReg (halfGo
    h).addr).setBit (halfGo h) true).recalibrate h code).met w (halfGo h).addr 0)))
  ∧ (∀ (h : Half) (code : BitVec 10) (s : State), s.domOn (halfDom h) = true → s.fld F.PE_CAL_CTRL_PERIOD ≠ 0 → exec
    (.recalibration none h code) s = .next (s.settled (s.recalibrate h code)))
  ∧ (∀ (w : Writer) (l : Loop) (x : OvSense) (s : State), s.canWrite w = true → s.fieldCode w (F.PROT_Ln_CLR_OV_CLR
    l.val) 1 = 0 → s.mayOvClr w l = true → exec (.ovClr w l x) s = .next (s.settled (((s.mendReg
    (F.PROT_Ln_CLR_OV_CLR l.val).addr).ovClr l x).met w (F.PROT_Ln_CLR_OV_CLR l.val).addr 0)))
  ∧ (∀ (w : Writer) (n : Fin 256) (v : Word) (s : State), s.Accepts (A.MBX_CHn_DATA n.val) (RegWr.word w v) → exec
    (.mbxDataWrite w n v) s = .next (s.settled (s.wrote (A.MBX_CHn_DATA n.val) (RegWr.word w v))))
  ∧ (∀ (w : Writer) (s : State), s.canWrite w = true → (s.readReg w A.KPR_RDATA).code = 0 → exec (.kprRdataRead w) s
    = .next (s.settled (((s.readReg w A.KPR_RDATA).state.emit (.data w (s.readReg w A.KPR_RDATA).word)).met w
    A.KPR_RDATA 0)))
  ∧ (∀ (w : Writer) (off : BitVec 7) (v : Word) (s : State), perturbations.contains (0xF0000 + off.toNat) = true →
    s.Accepts (0xF0000 + off.toNat) (RegWr.word w v) → exec (.perturbationWrite w off v) s = .next (s.settled
    (s.wrote (0xF0000 + off.toNat) (RegWr.word w v))))

/-- Table 0.6 and the rules of each register: what an accepted write of a command bit leaves, and that it changes no
register but those named. -/
def Obligations.WhatRegisterWritesDo : Prop :=
  (∀ (who : Writer) (s : State), s.Accepts F.PE_CTRL_LOAD_ALL.addr (RegWr.field who F.PE_CTRL_LOAD_ALL 1) → ∃ t :
    State, exec (.loadAll who) s = .next (s.settled t) ∧ t.bit F.PE_CTRL_LOAD_ALL = true ∧ t.cores = s.cores ∧
    s.RegsButFor t [A.PE_CTRL] ∧ t.sram = s.sram ∧ t.kpr = s.kpr)
  ∧ (∀ (who : Writer) (s : State), s.Accepts F.PE_CTRL_CLR_TRG_DROP.addr (RegWr.field who F.PE_CTRL_CLR_TRG_DROP 1)
    → ∃ t : State, exec (.clrTrgDrop who) s = .next (s.settled t) ∧ t.reg A.PE_TRG_DROP = 0 ∧ s.RegsButFor t
    [A.PE_CTRL, A.PE_TRG_DROP] ∧ t.sram = s.sram ∧ t.kpr = s.kpr)
  ∧ (∀ (who : Writer) (l : Loop) (s : State), s.Accepts (F.LP_Ln_CTRL_SWAP l.val).addr (RegWr.field who
    (F.LP_Ln_CTRL_SWAP l.val) 1) → ∃ t : State, exec (.swap who l) s = .next (s.settled t) ∧ t.bit
    (F.LP_Ln_CTRL_SWAP l.val) = true ∧ s.RegsButFor t [A.LP_Ln_CTRL l.val] ∧ t.sram = s.sram ∧ t.kpr = s.kpr)
  ∧ (∀ (who : Writer) (l : Loop) (s : State), s.Accepts (F.LP_Ln_CTRL_FB_RET l.val).addr (RegWr.field who
    (F.LP_Ln_CTRL_FB_RET l.val) 1) → s.loopSt l = 5 → ∃ t : State, exec (.fbRet who l) s = .next (s.settled t) ∧
    t.bit (F.LP_Ln_CTRL_FB_RET l.val) = true ∧ s.RegsButFor t [A.LP_Ln_CTRL l.val] ∧ t.sram = s.sram ∧ t.kpr =
    s.kpr)
  ∧ (∀ (who : Writer) (v : Port) (s : State), s.Accepts (F.VLK_n_CFG_CNT_CLR v.val).addr (RegWr.field who
    (F.VLK_n_CFG_CNT_CLR v.val) 1) → ∃ t : State, exec (.vlkCntClr who v) s = .next (s.settled t) ∧ t.reg
    (A.VLK_n_ERR v.val) = 0 ∧ s.RegsButFor t [A.VLK_n_CFG v.val, A.VLK_n_ERR v.val, A.VLK_n_STATUS v.val] ∧ t.sram =
    s.sram ∧ t.kpr = s.kpr)
  ∧ (∀ (who : Writer) (h : HostId) (s : State), s.Accepts (F.HP_TWk_CFG_CNT_CLR h.val).addr (RegWr.field who
    (F.HP_TWk_CFG_CNT_CLR h.val) 1) → ∃ t : State, exec (.hpCntClr who h) s = .next (s.settled t) ∧ t.reg
    (A.HP_TWk_CNT h.val) = 0 ∧ t.fld (F.HP_TWk_NOTIFY_SENT h.val) = 0 ∧ t.fld (F.HP_TWk_NOTIFY_FAILED h.val) = 0 ∧
    s.RegsButFor t [A.HP_TWk_CFG h.val, A.HP_TWk_CNT h.val, A.HP_TWk_NOTIFY h.val] ∧ t.sram = s.sram ∧ t.kpr =
    s.kpr)
  ∧ (∀ (k : Core) (s : State), s.Accepts (F.START_HEALTH_HEALTHY.at k.val).addr (RegWr.field (.core k)
    (F.START_HEALTH_HEALTHY.at k.val) 1) → ∃ t : State, exec (.healthy k) s = .next (s.settled t) ∧ t.bit
    (F.START_HEALTH_HEALTHY.at k.val) = true ∧ s.RegsButFor t [A.START_HEALTH] ∧ t.sram = s.sram ∧ t.kpr = s.kpr)
  ∧ (∀ (who : Writer) (v : Fin 4) (s : State), s.Accepts F.TCV_CFG_REF_SEL.addr (RegWr.field who F.TCV_CFG_REF_SEL
    v.val) → ∃ t : State, exec (.refSelWrite who v) s = .next (s.settled t) ∧ t.fld F.TCV_CFG_REF_SEL = v.val ∧
    s.RegsButFor t [A.TCV_CFG] ∧ t.sram = s.sram ∧ t.kpr = s.kpr)
  ∧ (∀ (who : Writer) (k : Core) (v : Byte) (s : State), s.Accepts (F.CORE_Ck_WDOG_KICK k.val).addr (RegWr.field who
    (F.CORE_Ck_WDOG_KICK k.val) v.toNat) → ∃ t : State, exec (.kick who k v) s = .next (s.settled t) ∧ (t.core
    k).wdog = (if v = 0xA5 then 0 else (s.core k).wdog) ∧ (t.core k).w = (s.core k).w ∧ s.RegsButFor t
    [A.CORE_Ck_WDOG k.val] ∧ t.sram = s.sram ∧ t.kpr = s.kpr)
  ∧ (∀ (who : Writer) (k : Core) (s : State), s.Accepts (F.CORE_Ck_RING_RING k.val).addr (RegWr.field who
    (F.CORE_Ck_RING_RING k.val) 1) → ∃ t : State, exec (.ring who k) s = .next (s.settled t) ∧ t.fld
    (F.CORE_Ck_EVT_PEND_RING k.val) = 1 ∧ t.cores = s.cores ∧ s.RegsButFor t [A.CORE_Ck_RING k.val,
    A.CORE_Ck_EVT_PEND k.val] ∧ t.sram = s.sram ∧ t.kpr = s.kpr)
  ∧ (∀ (who : Writer) (s : State), s.Accepts F.LIVE_STAGE_CTRL_VERIFY.addr (RegWr.field who F.LIVE_STAGE_CTRL_VERIFY
    1) → ∃ t : State, exec (.verify who) s = .next (s.settled t) ∧ t.bit F.LIVE_STAGE_CTRL_VERIFY = true ∧ t.cores =
    s.cores ∧ s.RegsButFor t [A.LIVE_STAGE_CTRL] ∧ t.sram = s.sram ∧ t.kpr = s.kpr)
  ∧ (∀ (who : Writer) (s : State), s.Accepts F.KPR_PROT_PROT_LOCK.addr (RegWr.field who F.KPR_PROT_PROT_LOCK 1) → ∃
    t : State, exec (.protLock who) s = .next (s.settled t) ∧ t.bit F.KPR_PROT_PROT_LOCK = true ∧ s.RegsButFor t
    [A.KPR_PROT] ∧ t.sram = s.sram ∧ t.kpr = s.kpr)
  ∧ (∀ (who : Writer) (s : State), s.Accepts F.KPR_STATUS_HOLDUP_USED.addr (RegWr.field who F.KPR_STATUS_HOLDUP_USED
    1) → ∃ t : State, exec (.holdupUsedClear who) s = .next (s.settled t) ∧ t.power.holdup = false ∧ s.RegsButFor t
    [A.KPR_STATUS] ∧ t.sram = s.sram ∧ t.kpr = s.kpr)

/-- A write that a check refuses leaves the whole state as it was. A mailbox word for a domain that is down raises its
cause (R332), and a write of VREF = 0 by a host on a sequenced loop is discarded by its own rule (R273): both are
stated apart. -/
def Obligations.ARefusedWriteChangesNothing : Prop :=
  (∀ (s : State) (a : Nat) (x : RegWr), (s.regWrite a x).code ≠ 0 → (s.regWrite a x).code ≠ 0xA →
      (s.regWrite a x).code ≠ 0xF → (s.regWrite a x).state = s)
  ∧ (∀ (s : State) (a : Nat) (x : RegWr), (s.regWrite a x).code = 0xA → (s.regWrite a x).state = s.raise 10 12)
  ∧ (∀ (s : State) (c : Instr) (a : Nat) (x : RegWr) (h : HostId), c.write? = some (a, x) → x.who = .host h →
      s.portOpen h = true → (s.regWrite a x).code ≠ 0 → (s.regWrite a x).code ≠ 0xA → (s.regWrite a x).code ≠ 0xF →
      exec c s = .next (s.settled (s.hostCode h (s.regWrite a x).code)))

/-- Table 0.6 and R320: storing a write changes no bit outside every writable field of the register, no bit outside the
write's mask, and no register but the one written; a register with SH fields takes the word in its shadow only. -/
def Obligations.AWriteReachesOnlyItsWritableBits : Prop :=
  (∀ (s : State) (r : RegAt) (old : Word) (x : RegWr) (i : Nat), i < 32 →
      (∀ f ∈ r.fields, f.acc = .rw ∨ f.acc = .rwsh ∨ f.acc = .w1c → (bitsMask f.lo f.width).getLsbD i = false) →
      (s.wordAfter r old x).getLsbD i = old.getLsbD i)
  ∧ (∀ (s : State) (r : RegAt) (old : Word) (x : RegWr) (i : Nat), x.mask.getLsbD i = false →
      (s.wordAfter r old x).getLsbD i = old.getLsbD i)
  ∧ (∀ (s : State) (r : RegAt) (a b : Nat) (x : RegWr), b ≠ a → (s.storeWord r a x).reg b = s.reg b)
  ∧ (∀ (s : State) (r : RegAt) (a : Nat) (x : RegWr), r.shadowed = false → (s.storeWord r a x).reg a = s.wordAfter r (s.reg a) x)
  ∧ (∀ (s : State) (r : RegAt) (a : Nat) (x : RegWr), (s.storeWord r a x).act = s.act)

/-- The commands of chapter 01: supplies, resets, clocks, domains and dormant mode. -/
def Obligations.SupplyAndClockCommandsComplete : Prop :=
  (∀ (src : Fin 5) (s : State), s.bit F.SUPPLY_STATUS_HOUSE_OK = false → exec (.houseInputGood src) s = .next
    (s.settled ((((((if s.power.d0Up then s else s.modPower fun p =>
    { p with d0Up := true, opmin := s.spreadValue .opmin }).setBit F.SUPPLY_STATUS_HOUSE_OK true).setFld
    F.SUPPLY_STATUS_HOUSE_SRC src.val).modPower fun p => { p with ms := 0 }).setHouseOp.setFld F.PWR_DOM_STATUS_ON 1
    |>.forAll fun (p : Port) t => t.setTc p 2).driveSync true |>.kprSpread .pcyc 1)))
  ∧ (∀ (fast : Bool) (s : State), s.bit F.SUPPLY_STATUS_HOUSE_OK = true → exec (.houseInputFail fast) s = .next
    (s.settled ((((s.kprCut fast).allOff).setBit F.SUPPLY_STATUS_HOUSE_OK false).modPower fun p =>
    { p with dormant := false, timerArmed := false, lossWait := false })))
  ∧ (∀ s : State, s.bit F.SUPPLY_STATUS_HOUSE_OK = false → ∃ t : State, exec .d0Reset s = .next (s.settled t) ∧
    t.regs = [] ∧ t.act = [] ∧ t.sram = [] ∧ t.kpr.cells = s.kpr.cells ∧ t.power.resetnLow = s.power.resetnLow ∧
    t.power.d0Up = State.reset.power.d0Up ∧ t.pending = s.pending)
  ∧ (∀ (p : Port) (good hi : Bool) (src : Fin 5) (s : State), s.bit F.SUPPLY_STATUS_HOUSE_OK = true → s.bit
    (monitorFld (.vbus p)) ≠ good → exec (.supplyMonitorChange (.vbus p) good hi src) s = .next (s.settled (if good
    then (((s.setFld F.SUPPLY_STATUS_HOUSE_SRC src.val).vbusChange p good).wakeBy (4 + p.val)) else (s.setFld
    F.SUPPLY_STATUS_HOUSE_SRC src.val).vbusChange p good)))
  ∧ (∀ (m : Monitor) (hi : Bool) (src : Fin 5) (s : State), m = .vdda ∨ m = .vddCore → s.bit
    F.SUPPLY_STATUS_HOUSE_OK = true → s.bit (monitorFld m) = false → exec (.supplyMonitorChange m true hi src) s =
    .next (s.settled (((s.setFld F.SUPPLY_STATUS_HOUSE_SRC src.val).setBit (monitorFld m) true).enterFull (s.setFld
    F.SUPPLY_STATUS_HOUSE_SRC src.val).fullOp)))
  ∧ (∀ (m : Monitor) (good hi : Bool) (src : Fin 5) (s : State), s.bit (monitorFld m) ≠ good → exec
    (.supplyMonitorChange m good hi src) s = .next (s.settled ((s.noteSrc src.val).monitorChange m good hi)))
  ∧ (∀ (m : Monitor) (good hi : Bool) (src : Fin 5) (s : State), s.bit (monitorFld m) = good → exec
    (.supplyMonitorChange m good hi src) s = .next (s.settled (s.noteSrc src.val)))
  ∧ (∀ (s : State), s.bit F.SUPPLY_STATUS_VDD_CORE_OK = true → exec .vddCoreQualified s = .next (s.settled
    ((s.modPower fun p => { p with coreQual := true }).enterFull s.fullOp)))
  ∧ (∀ (m : FullSupply) (s : State), s.bit F.SUPPLY_STATUS_HOUSE_OK = true → s.fullOp = true → exec (.supplyLoss m)
    s = .next (s.settled (s.supplyLoss m)))
  ∧ (∀ (s : State), s.bit F.SUPPLY_STATUS_VCONN_IN_OK = true → exec .vconnInBad s = .next (s.settled ((if (upto
    4).any fun p => (s.setBit F.SUPPLY_STATUS_VCONN_IN_OK false).bit (F.PD_Pp_STATUS_VCONN_SRC p) then (s.setBit
    F.SUPPLY_STATUS_VCONN_IN_OK false).raise 7 14 else s.setBit F.SUPPLY_STATUS_VCONN_IN_OK false).forAll fun (p :
    Port) t => t.vconnOffNow p)))
  ∧ (∀ (s : State), s.power.d0Up = true → s.power.resetnLow = false → exec .resetnLow s = .next (s.settled
    (((((s.kprCut false).allOff).setBit F.WAKE_CAUSE_RESETN true).setBit F.CLK_STATUS_XTAL_RUN false).modPower fun p
    =>
    { p with resetnLow := true, dormant := false, timerArmed := false, xtal := .off, slow := if p.slow = .fastRc then .fastRc else .rc })))
  ∧ (∀ (s : State), s.power.resetnLow = true → exec .resetnRise s = .next (s.settled ((s.modPower fun p =>
    { p with resetnLow := false }).setHouseOp)))
  ∧ (∀ (high : Bool) (s : State), exec (.testEnChange high) s = .next (s.settled (s.modPower fun p =>
    { p with testEn := high })))
  ∧ (∀ (s : State), s.power.xtal = .qualifying → s.power.slow ≠ .fastRc → exec .crystalQualified s = .next (s.settled
    ((s.setBit F.CLK_STATUS_XTAL_RUN true).modPower fun p => { p with xtal := .running, slow := .crystal })))
  ∧ (∀ (s : State), (s.power.xtal == .qualifying || s.power.xtal == .running) = true → exec .xtalFail s = .next
    (s.settled (((s.setBit F.CLK_STATUS_XTAL_RUN false).setBit F.CLK_STATUS_XTAL_FAIL true).modPower fun p =>
    { p with xtal := .failed, slow := if p.slow = .fastRc then .fastRc else .rc })))
  ∧ (∀ (hz : Nat) (s : State), s.bit F.CLK_STATUS_SYNC_SEEN = false → exec (.syncSeenRise hz) s = .next (s.settled
    (((s.setBit F.CLK_STATUS_SYNC_SEEN true).modPower fun p => { p with syncHz := hz }).chooseRef)))
  ∧ (∀ s : State, s.bit F.CLK_STATUS_SYNC_SEEN = true → exec .syncLost s = .next (s.settled (if s.onSync then
    (s.setBit F.CLK_STATUS_SYNC_SEEN false).setBit F.PE_STATUS_SYNC_LOST true else s.setBit F.CLK_STATUS_SYNC_SEEN
    false).chooseRef))
  ∧ (∀ (s : State), s.pllWanted = true → s.bit F.CLK_STATUS_PLL_LOCK = false → exec .pllLock s = .next (s.settled
    ((((s.setBit F.CLK_STATUS_PLL_LOCK true).setFld F.CLK_STATUS_CORE_CLK 1).chooseRef).startTimebase)))
  ∧ (∀ s : State, s.domOn 9 = true → s.bit F.CLK_STATUS_PLL_LOCK = true → exec .clockMonitorTrip s = .next
    (s.settled ((if s.anyEn fun _ => true then (((s.setBit F.PE_STATUS_SAFE_PLL true).allPllLoad).pllOff).setBit
    F.CLK_STATUS_PLL_LOST true else ((s.setBit F.PE_STATUS_SAFE_PLL true).allPllLoad).pllOff).forAll fun (l : Loop)
    t => t.handover l)))
  ∧ (∀ (d : Dom) (s : State), d.val ≠ 0 → s.domWanted d.val = true → s.domOn d.val = false → (d.val ≤ 2 || s.domOn
    2) = true → exec (.domainPowerUp d) s = .next (s.settled (s.domainUp d.val)))
  ∧ (∀ (p : Port) (s : State), s.power.dormant = true → s.fld ⟨A.DORMANT_CFG, 2 * p.val, 2⟩ ≠ 0 → s.bit
    ⟨A.WAKE_CFG, p.val, 1⟩ = true → exec (.attachWatchDetect p) s = .next (s.settled ((((s.setFld
    ⟨A.WAKE_CAUSE, p.val, 1⟩ 1).modPower fun p => { p with dormant := false }).setHouseOp).driveSync true)))
  ∧ (∀ (src : WakeSrc) (s : State), src ≠ .resetn → src ≠ .timer → s.power.dormant = true → s.canWake src = true →
    s.bit ⟨A.WAKE_CFG, wakeSrcBit src, 1⟩ = true → exec (.wake src) s = .next (s.settled ((((s.setFld
    ⟨A.WAKE_CAUSE, wakeSrcBit src, 1⟩ 1).modPower fun p => { p with dormant := false }).setHouseOp).driveSync
    true)))
  ∧ (∀ s : State, s.power.dormant = true → exec (.wake .resetn) s = .next (s.settled ((((s.setFld
    ⟨A.WAKE_CAUSE, 14, 1⟩ 1).modPower fun p => { p with dormant := false }).setHouseOp).driveSync true)))
  ∧ (∀ s : State, s.power.timerArmed = true → s.power.dormant = true → s.bit ⟨A.WAKE_CFG, 12, 1⟩ = true → exec
    .wakeTimer s = .next (s.settled (((((s.modPower fun p => { p with timerArmed := false }).setFld
    ⟨A.WAKE_CAUSE, 12, 1⟩ 1).modPower fun p => { p with dormant := false }).setHouseOp).driveSync true)) ∧ exec
    (.wake .timer) s = exec .wakeTimer s)
  ∧ (∀ (s : State) (source : Bool), (∀ n : Fin 24, s.domOn (chanDom ⟨n.val, by omega⟩) = false → s.bit
    F.SUPPLY_STATUS_VDDIO_A_OK = true → s.signal source (.pwm n) = .mid) ∧ (∀ k : Fin 8, s.domOn 9 = false → s.bit
    F.SUPPLY_STATUS_VDDIO_A_OK = true → s.signal source (.stgEn k) = .low) ∧ (∀ n : Fin 28, s.domOn 2 = false →
    s.bit F.SUPPLY_STATUS_VDDIO_B_OK = true → s.signal source (.seqEn n) = .low) ∧ (∀ p : Port, s.domOn 10 = false →
    s.signal source (.gate p) = .atSource ∧ s.signal source (.dschg p) = .released))

/-- The commands of the start sequence. -/
def Obligations.StartCommandsComplete : Prop :=
  (∀ s : State, s.domOn 1 = true → s.domOn 2 = true → s.boot.kprRead = false → exec .keeperRead s = .next (s.settled
    s.keeperRead) ∧ s.keeperRead.boot.kprRead = true)
  ∧ (∀ s : State, s.boot.kprRead = true → s.phaseNo ≤ 1 → s.boot.attempt = false → s.seedling = false →
    s.boot.restart = false → s.boot.reread = false → s.limit ≤ s.boot.record.fails → exec .startAttemptBegin s =
    .next (s.settled s.enterSeedling))
  ∧ (∀ s : State, s.boot.kprRead = true → s.phaseNo ≤ 1 → s.boot.attempt = false → s.seedling = false →
    s.boot.restart = false → s.boot.reread = false → s.boot.record.fails < s.limit → s.fullOp = true → s.bit
    F.THM_STATUS_SHUT_HOLD = false → exec .startAttemptBegin s = .next (s.settled s.beginAttempt))
  ∧ (∀ (x : Sfdp) (s : State), s.boot.attempt = true → s.phaseNo = 2 → x.quad = none → exec (.flashProbeDone (some
    x)) s = .next (s.settled (((((s.probeCmds).modBoot fun b => { b with flash := some x }).setPhase 3).readFlash 0
    0x100).readFlash 0x180000 0x100)))
  ∧ (∀ (x : Option Sfdp) (s : State), s.boot.attempt = true → s.phaseNo = 2 → exec (.flashProbeDone x) s = .next
    (s.settled (s.flashProbe x)))
  ∧ (∀ (slotB : Bool) (img : List Byte) (other : Option Nat) (s : State), s.boot.attempt = true → s.phaseNo = 3 →
    s.inOrder slotB img other = true → exec (.candidateReadDone slotB img other) s = .next (s.settled (s.candidate
    slotB img other)))
  ∧ (∀ s : State, s.boot.attempt = true → s.boot.timeout.isSome = true → s.phaseNo = 7 → exec .startTimeout s =
    .next (s.settled ((s.endAttempt (if s.allHealthy then 0x09 else 0x08)).seqPowerDown)))
  ∧ (∀ s : State, s.phaseNo = 10 → s.boot.restart = false → exec .retryDelayEnd s = .next (s.settled (if s.limit ≤
    s.boot.record.fails then s.enterSeedling else ((s.setPhase 0).modBoot fun b =>
    { b with failed := none }).detectFull)))
  ∧ (∀ (data : List Byte) (x : FlashXfer) (s : State), s.boot.xfer = some x → exec (.flashXferDone data) s = .next
    (s.settled (s.xferDone x data)))

/-- The commands of the pulse engine. -/
def Obligations.EngineCommandsComplete : Prop :=
  (∀ (late : Nat) (loadLate faultnHigh : Bool) (s : State), s.engine.timebase = true → exec (.masterValley late
    loadLate faultnHigh) s = .next (s.settled (((s.masterValley late loadLate
    faultnHigh).retireValley).retrimValley)))
  ∧ (∀ (n : Chan) (s : State), s.chanRun n = true → exec (.valley n) s = .next (s.settled (s.valley n)))
  ∧ (∀ (n : Chan) (s : State), s.chanRun n = true → exec (.peak n) s = .next (s.settled (s.peak n)))
  ∧ (∀ (n : Chan) (k : Fin 4) (x : Int) (l : Loop) (s : State), s.chanRun n = true → s.afld (F.PE_CHn_TRGk_DIR n k)
    ≠ 0 → dirMatches (s.afld (F.PE_CHn_TRGk_DIR n k)) (s.bit (F.PE_CHn_POS_DOWN n)) = true → s.afld
    (F.PE_CHn_TRGk_DEST n k) = 1 → s.chanLoop n = some l → (s.loop l).order.contains n = true → exec (.triggerFire n
    k x) s = .next (s.settled ((s.modLoop l fun q =>
    { q with mark := some (BitVec.ofNat 10 (s.windowCode l x)), vs := x }).windowSat l [s.windowCode l x])))
  ∧ (∀ (n : Chan) (k : Fin 4) (x : Int) (s : State), s.chanRun n = true → s.afld (F.PE_CHn_TRGk_DIR n k) ≠ 0 →
    dirMatches (s.afld (F.PE_CHn_TRGk_DIR n k)) (s.bit (F.PE_CHn_POS_DOWN n)) = true → s.afld (F.PE_CHn_TRGk_DEST n
    k) = 0 → exec (.triggerFire n k x) s = .next (s.settled (if (s.chan n).held.isSome then (s.satInc
    ⟨A.PE_TRG_DROP, 8 * (adcOf n).val, 8⟩).raise 0 13 else (s.modChan n fun c =>
    { c with held := some (BitVec.ofNat 12 (clamp x 0 4095).toNat) }).modEngine fun e =>
    { e with adc := e.adc.set (adcOf n).val (e.adc[adcOf n] ++ [n]) (adcOf n).isLt })))
  ∧ (∀ (adc : Fin 4) (s : State), exec (.currentConversionDone adc) s = .next (s.settled (s.convertCurrent adc)))
  ∧ (∀ (h : Half) (code : BitVec 10) (s : State), s.domOn (halfDom h) = true → s.bit (halfOk h) = false → exec
    (.delayLineCalDone h code) s = .next (s.settled ((s.setBit (halfOk h) true).setFld (halfCode h) code.toNat)))
  ∧ (∀ (s : State), s.debugOpen = true → s.domOn 9 = true → exec .engineFreeze s = .next (s.settled ((s.setBit
    F.PE_STATUS_FROZEN true).allNeedLoad)))
  ∧ (∀ s : State, exec .faultnLow s = .next (s.settled ((((upto 32).filter fun n => s.chanEn n && s.bit
    (F.PE_FAULT_MASK_MASK.at n.val)).foldl (fun t n => t.faultHold n) (s.modEngine fun e =>
    { e with faultnLow := true })).faultnLoops ((upto 32).filter fun n => s.chanEn n && s.bit
    (F.PE_FAULT_MASK_MASK.at n.val)))))
  ∧ (∀ (s : State), s.bit F.PE_STATUS_FROZEN = true → exec .freezeEnd s = .next (s.settled ((s.setBit
    F.PE_STATUS_FROZEN false).allNeedLoad)))

/-- The commands of the rail loops that a tick, a comparator or a conversion brings, and the comparators and timers of
rail protection. -/
def Obligations.LoopAndProtectionCommandsComplete : Prop :=
  (∀ (n : Chan) (vs : Vector Int 8) (shunt : Int) (l : Loop) (s : State), s.chanLoop n = some l → s.digital l = true
    → (s.loop l).order.contains n = true → exec (.compensatorUpdate n vs shunt) s = .next (s.settled (s.compUpdate l
    n vs shunt)))
  ∧ (∀ (l : Loop) (s : State), s.loopSt l = 3 → exec (.referenceStep l) s = .next (s.settled (s.setRef l (toward
    (s.refNow l) (s.refTarget l)))))
  ∧ (∀ (l : Loop) (s : State), s.loopSt l = 5 → exec (.referenceStep l) s = .next (s.settled s))
  ∧ (∀ (l : Loop) (s : State), exec (.referenceStep l) s = .next (s.settled (s.refStep l)))
  ∧ (∀ (l : Fin 8) (s : State), s.bit (F.LP_Ln_CTRL_CARD_EN l) = true → s.loopSt (railLoop l) = 3 → (s.loop
    (railLoop l)).cardBroken = false → (s.loop (railLoop l)).inject = none → 2 ≤ (s.loop (railLoop l)).order.length
    → exec (.cardingStep l) s = .next (s.settled (s.cardStep (railLoop l))))
  ∧ (∀ (l : Fin 8) (s : State), s.bit (F.LP_Ln_STATUS_FULLING l) = true → exec (.fullingEnd l) s = .next (s.settled
    ((s.setBit (F.LP_Ln_STATUS_FULLING l) false).modLoop (railLoop l) fun k => { k with ipre := 0 })))
  ∧ (∀ (l : Fin 8) (n : Notice) (s : State), (s.loop (railLoop l)).notice = some n → exec (.noticedInstant l) s =
    .next (s.settled (s.noticed (railLoop l) n)))
  ∧ (∀ (l : Loop) (uv : Nat) (selfTest : Bool) (s : State), (s.loopSt l == 1 || s.loopSt l == 2) = true → s.bit
    (F.PROT_Ln_STATUS_HICCUP l) = false → (s.loop l).measured = false → exec (.prebiasDone l uv selfTest) s = .next
    (s.settled (s.prebiasDone l uv selfTest)))
  ∧ (∀ (l : Loop) (s : State), s.loopSt l = 1 → s.bit (F.PROT_Ln_STATUS_HICCUP l) = false → (s.loop l).cmpFail =
    false → exec (.rampStart l) s = .next (s.settled ((s.setLoopSt l 2).rampAt l)))
  ∧ (∀ (l : Fin 8) (s : State), (s.loop (railLoop l)).stopLow = true → exec (.stopLowEnd l) s = .next (s.settled
    (((s.loopHalf (railLoop l) .mid).modLoop (railLoop l) fun k =>
    { k with stopping := true, stopLow := false, fbHigh := none }).clearSc (railLoop l))))
  ∧ (∀ (l : Fin 8) (s : State), (s.loop (railLoop l)).stopping = true → s.bit (F.PROT_Ln_STATUS_OV_LATCH l) = false
    → exec (.stgEnFall l) s = .next (s.settled (if s.loopSt (railLoop l) = 4 then s.loopOffDone (railLoop l) else
    s.modLoop (railLoop l) fun k => { k with stgEn := false, stopping := false })))
  ∧ (∀ (l : Fin 8) (s : State), s.loopSt (railLoop l) = 3 → s.refNow (railLoop l) = s.refTarget (railLoop l) → s.bit
    (F.LP_Ln_STATUS_SETTLED l) = false → s.inBand (railLoop l) = true → exec (.settledRise l) s = .next (s.settled
    (s.settledRise (railLoop l))))
  ∧ (∀ (l : Fin 8) (i : Inject) (s : State), (s.loop (railLoop l)).inject = some i → i.running = true → (if s.bit
    (F.LP_Ln_BLK_CFG_LEN l) then 1023 else 511) < i.frame → exec (.injectionEnd l) s = .next (s.settled
    ((((s.modLoop (railLoop l) fun k => { k with inject := none, inj := 0, cardBroken := true }).setFld
    (F.LP_Ln_BLK_CTRL_RESULT l) 1).setBit (F.LP_Ln_BLK_CTRL_RUN l) false).raise 3 l.val)))
  ∧ (∀ (l : Fin 8) (f : Fit) (set : Vector (BitVec 20) 6) (s : State), s.fitVerdict (railLoop l) f set ≠ 1 → exec
    (.verdict l f set) s = .next (s.settled ((s.setFld (F.LP_Ln_BLK_CTRL_VERDICT l) (s.fitVerdict (railLoop l) f
    set)).raise 3 l.val)))
  ∧ (∀ (l : Fin 8) (f : Fit) (set : Vector (BitVec 20) 6) (s : State), exec (.verdict l f set) s = .next (s.settled
    (s.verdict (railLoop l) f set)))
  ∧ (∀ (l : Loop) (vs imon : Int) (s : State), s.loopSt l = 5 → (s.loop l).fbHigh.isNone = true → vs < (10 *
    windowStep l * s.fld (F.LP_Ln_FB_FB_DAC l) : Nat) → exec (.fallbackPulseStart l vs imon) s = .next (s.settled
    (s.fbPulse l vs imon)))
  ∧ (∀ (l : Loop) (c : Chan) (s : State), (s.loop l).fbHigh = some c → exec (.fallbackPulseEnd l) s = .next
    (s.settled ((s.modChan c fun k => { k with scRun := 0 }).modLoop l fun k => { k with fbHigh := none })))
  ∧ (∀ (l : Loop) (s : State), exec (.foldingQuiet l) s = .next (s.settled (s.setBit (F.PROT_Ln_STATUS_FOLDING l)
    false)))
  ∧ (∀ (l : Fin 8) (x : OvCrossing) (s : State), s.ovActs (railLoop l) x.tracking = true → s.domOn 9 = true →
    s.ovLimit (railLoop l) x.tracking ≤ x.uv → exec (.ovTrip l x) s = .next (s.settled (s.fault (railLoop l) (if
    x.tracking then 0x05 else 0x04))))
  ∧ (∀ (x : ScCrossing) (l : Loop) (c : Chan) (s : State), c.val = x.chan.val → s.chanLoop c = some l → s.pulsing c
    = true → l.val < 8 → s.fld (F.PROT_Ln_SC_SC_BLANK l) ≤ x.since → s.scLimit l ≤ (x.uv : Rat) → exec (.scTrip x) s
    = .next (s.settled (s.scTrip l c)))
  ∧ (∀ (l : Fin 8) (s : State), (s.loopSt (railLoop l) == 3 || s.loopSt (railLoop l) == 5) = true → s.bit
    F.CLK_STATUS_PLL_LOCK = true → exec (.overloadBlockEnd l) s = .next (s.settled (s.overloadBlock (railLoop l))))
  ∧ (∀ (l : Fin 8) (s : State), s.loopSt (railLoop l) = 3 → s.fld (F.PROT_Ln_UV_UV_OFS l) ≠ 0 → s.belowUv (railLoop
    l) = true → exec (.uv l) s = .next (s.settled (s.fault (railLoop l) 0x06)))
  ∧ (∀ (l : Fin 8) (s : State), s.loopSt (railLoop l) = 2 → (s.loop (railLoop l)).passed = true → s.fld
    (F.PROT_Ln_TRK_TRACK_ERR l) ≠ 0 → s.belowTrack (railLoop l) = true → exec (.startShort l) s = .next (s.settled
    (s.fault (railLoop l) 0x03)))
  ∧ (∀ (l : Fin 8) (s : State), s.bit (F.PROT_Ln_STATUS_HICCUP l) = true → s.bit (F.PROT_Ln_STATUS_OV_LATCH l) =
    false → (s.loop (railLoop l)).fbWait = false ∨ s.returnReady (railLoop l) = true → s.configBad (railLoop l) =
    false → exec (.hiccupRestart l) s = .next (s.settled ((((s.setFld (F.PROT_Ln_STATUS_HIC_CNT l) (min (s.fld
    (F.PROT_Ln_STATUS_HIC_CNT l) + 1) 7)).satInc (F.PROT_Ln_CNT_HIC_TOTAL l)).modLoop (railLoop l) fun k =>
    { k with fbWait := false }).startAt (railLoop l))))
  ∧ (∀ (l : Fin 8) (s : State), s.loopSt (railLoop l) = 3 → exec (.hiccupClean l) s = .next (s.settled (s.setFld
    (F.PROT_Ln_STATUS_HIC_CNT l) 0)))

/-- R163: a duplicate is answered with ACK and counted and is not executed again; GET commands are executed always;
another frame with a good CRC since ends the duplicate; and what an ACK has answered is what a duplicate repeats. -/
def Obligations.LinkDuplicates : Prop :=
  ∀ (s : State) (v : Port) (w : Word) (waited : Bool), frameGood w = true → s.linkBusyFor v w waited = false →
    ((s.link v).acked = some w → frameCmd w ≠ 5 → frameCmd w ≠ 6 → s.linkReceive v w waited =
      ((((s.endPulse v).linkNote v w).satInc (F.VLK_n_ERR_DUP_CNT v)).linkAck v w none))
    ∧ (frameCmd w = 5 ∨ frameCmd w = 6 → s.linkReceive v w waited = ((s.endPulse v).linkNote v w).linkExecute v w)
    ∧ ((s.link v).acked ≠ some w → s.linkReceive v w waited = ((s.endPulse v).linkNote v w).linkExecute v w)
    ∧ (s.linkRefusal v w = 0 → ((s.linkExecute v w).link v).acked = some w)
    ∧ (∀ w2 : Word, w2 ≠ w → ((s.linkNote v w).link v).acked ≠ some w2)

/-- R160: the CRC-8 of the link (and of SMBus PEC): its check value, that a message followed by its CRC leaves 0, and
that each command's frame is built with a good CRC and reads back its own fields. -/
def Obligations.LinkCrc : Prop :=
  crc8 [0x31, 0x32, 0x33, 0x34, 0x35, 0x36, 0x37, 0x38, 0x39] = 0xF4
  ∧ (∀ bs : List Byte, crc8 (bs ++ [crc8 bs]) = 0)
  ∧ (∀ (cmd : Nat) (f : LinkFrame), cmd < 16 → frameGood (frameWord cmd f) = true ∧ frameCmd (frameWord cmd f) = cmd
      ∧ frameSel (frameWord cmd f) = f.sel.toNat ∧ frameTag (frameWord cmd f) = f.tag.toNat
      ∧ framePay (frameWord cmd f) = f.payload.toNat)
  ∧ (∀ (s : State) (v : Port) (w : Word) (waited : Bool), frameGood w = false →
      s.linkReceive v w waited = ((s.endPulse v).satInc (F.VLK_n_ERR_CRC_CNT v)).linkNak v w 1)

/-- R199-R203: the fault that the ladder takes next is one of highest severity and, among equals, the earliest; a cause
that is handled or waits already counts in RECUR and does no more, but that a hiccup fault met again in its own
restart stops the loop again (R188); and with nothing handled, a fault starts its handling with RECUR 0. -/
def Obligations.FaultLadderOrder : Prop :=
  (∀ (q : List QFault) (x : QFault), bestOf q = some x →
      ∃ a b, q = a ++ x :: b ∧ (∀ y ∈ a, y.sev ≤ 3 → y.sev < x.sev) ∧ (∀ y ∈ b, y.sev ≤ 3 → y.sev ≤ x.sev))
  ∧ (∀ q : List QFault, (∀ y ∈ q, y.sev ≤ 3) → bestOf q = none → q = [])
  ∧ (∀ (s : State) (l : Loop) (q h : QFault), (s.loop l).handling = some h →
      h.cause = q.cause → s.ladder l q =
        (if isHiccup q.cause q.sev && isHiccup h.cause h.sev && !s.bit (F.PROT_Ln_STATUS_HICCUP l) then
          (s.satInc (F.PROT_Ln_LADDER_RECUR l)).faultAction l q else s.satInc (F.PROT_Ln_LADDER_RECUR l)))
  ∧ (∀ (s : State) (l : Loop) (q h : QFault), (s.loop l).handling = some h → h.cause ≠ q.cause →
      (∃ x ∈ (s.loop l).queue, x.cause = q.cause) → s.ladder l q = s.satInc (F.PROT_Ln_LADDER_RECUR l))
  ∧ (∀ (s : State) (l : Loop) (q : QFault), (s.loop l).handling = none →
      s.ladder l q = (s.setFld (F.PROT_Ln_LADDER_RECUR l) 0).startHandling l q)
  ∧ (∀ (s : State) (l : Loop) (q h : QFault), (s.loop l).handling = some h → h.cause ≠ q.cause →
      (∀ x ∈ (s.loop l).queue, x.cause ≠ q.cause) → q.sev ≤ h.sev → (s.loop l).queue.length < 2 →
      s.ladder l q = s.setQueue l ((s.loop l).queue ++ [q]))

/-- The commands of the load voltage link: refused frames, aborts and attention; what each accepted command does on a
slot's loop (Table 5.5); and the seven frames, executed or refused as steps 4 to 8 of R162 give. -/
def Obligations.LinkCommandsComplete : Prop :=
  (∀ (v : Port) (w : Word) (waited : Bool) (s : State), s.linkOn v = true → s.frameRefused v w waited = true → exec
    (.linkFrameRefused v w waited) s = .next (s.settled (s.linkReceive v w waited)))
  ∧ (∀ (v : Port) (s : State), s.linkOn v = true → exec (.linkAbort v false) s = .next (s.settled (((((s.setFld
    (F.VLK_n_STATUS_ATTN v) 0).satInc (F.VLK_n_ERR_ABORT_CNT v)).alertSlot v 0 6).alertSlot v 1 6).raise 4 (8 +
    v.val))))
  ∧ (∀ (v : Port) (s : State), s.linkOn v = true → exec (.linkAbort v true) s = .next (s.settled (((((s.satInc
    (F.VLK_n_ERR_ABORT_CNT v)).alertSlot v 0 6).alertSlot v 1 6).raise 4 (8 + v.val)))))
  ∧ (∀ (v : Port) (again : Bool) (s : State), s.linkOn v = true → s.attention v = true → s.bit (F.VLK_n_STATUS_ATTN
    v) = false → (if again then s.fld (F.VLK_n_CFG_ATTN_REP v) ≠ 0 else (s.link v).owed = true) → exec
    (.attentionPulse v again) s = .next (s.settled ((s.setFld (F.VLK_n_STATUS_ATTN v) 1).modLink v fun k =>
    { k with owed := false })))
  ∧ (∀ (v : Port) (s : State), exec (.attentionPulseEnd v) s = .next (s.settled (s.setFld (F.VLK_n_STATUS_ATTN v)
    0)))
  ∧ (∀ (s : State) (v : Port) (k : Fin 2) (l : Loop) (pay : Nat), s.slotLoop v k = some l →
    s.linkApply v 1 pay k = (s.writeVref l pay (some (v, k))).setFld ((F.VLK_n_STATUS_TARGET_OWN v).at k) 1
    ∧ s.linkApply v 2 pay k = (s.setFld (F.LP_Ln_SLEW_SLEW l) pay).stopInject l 4
    ∧ (signed 10 (pay / 64) = 0 → s.linkApply v 3 pay k = (s.stopInject l 5).modLoop l fun q => { q with notice := none })
    ∧ s.linkApply v 4 pay k = s.setFld (F.LP_Ln_PHCFG_PH_FLOOR l) pay
    ∧ s.linkApply v 5 pay k = s ∧ s.linkApply v 6 pay k = s
    ∧ s.linkApply v 7 pay k = s.setFld (F.VLK_n_ALERTs_CAUSE v k) (s.fld (F.VLK_n_ALERTs_CAUSE v k) &&& (127 - pay)))
  ∧ (∀ (v : Port) (f : LinkFrame) (s : State),
    (s.linkOn v = true → s.linkBusyFor v (frameWord 1 f) f.waited = false → s.linkDuplicate v (frameWord 1 f) =
      false → exec (.setTarget v f) s = .next (s.settled (((s.endPulse v).linkNote v (frameWord 1 f)).linkExecute
      v (frameWord 1 f))))
    ∧ (s.linkOn v = true → s.linkBusyFor v (frameWord 2 f) f.waited = false → s.linkDuplicate v (frameWord 2 f) =
      false → exec (.setSlew v f) s = .next (s.settled (((s.endPulse v).linkNote v (frameWord 2 f)).linkExecute v
      (frameWord 2 f))))
    ∧ (s.linkOn v = true → s.linkBusyFor v (frameWord 3 f) f.waited = false → s.linkDuplicate v (frameWord 3 f) =
      false → exec (.stepNotice v f) s = .next (s.settled (((s.endPulse v).linkNote v (frameWord 3 f)).linkExecute
      v (frameWord 3 f))))
    ∧ (s.linkOn v = true → s.linkBusyFor v (frameWord 4 f) f.waited = false → s.linkDuplicate v (frameWord 4 f) =
      false → exec (.setState v f) s = .next (s.settled (((s.endPulse v).linkNote v (frameWord 4 f)).linkExecute v
      (frameWord 4 f))))
    ∧ (s.linkOn v = true → s.linkBusyFor v (frameWord 5 f) f.waited = false → s.linkDuplicate v (frameWord 5 f) =
      false → exec (.getTelemetry v f) s = .next (s.settled (((s.endPulse v).linkNote v (frameWord 5
      f)).linkExecute v (frameWord 5 f))))
    ∧ (s.linkOn v = true → s.linkBusyFor v (frameWord 6 f) f.waited = false → s.linkDuplicate v (frameWord 6 f) =
      false → exec (.getStatus v f) s = .next (s.settled (((s.endPulse v).linkNote v (frameWord 6 f)).linkExecute
      v (frameWord 6 f))))
    ∧ (s.linkOn v = true → s.linkBusyFor v (frameWord 7 f) f.waited = false → s.linkDuplicate v (frameWord 7 f) =
      false → exec (.clearAlert v f) s = .next (s.settled (((s.endPulse v).linkNote v (frameWord 7 f)).linkExecute
      v (frameWord 7 f)))))

/-- The timers of the Type-C state machines, of the PD protocol and of fast role swap. -/
def Obligations.PortTimersComplete : Prop :=
  (∀ (p : Port) (cc1 cc2 : CcTerm) (s : State), s.domOn 2 = true → exec (.tcDebounceExpiry p cc1 cc2) s = .next
    (s.settled (s.tcDebounce p cc1 cc2)))
  ∧ (∀ (p : Port) (s : State), s.domOn 2 = true → (s.port p).role = 2 → s.deadBattery = false → (s.tc p == 2 || s.tc
    p == 5) = true → exec (.drpToggle p) s = .next (s.settled (s.drpToggle p)))
  ∧ (∀ (p : Port) (s : State), s.tc p = 1 → exec (.errorRecoveryEnd p) s = .next (s.settled (s.unattached p)))
  ∧ (∀ (p : Port) (s : State), s.tc p = 8 → exec (.tdrptry p false) s = .next (s.settled (s.setTc p 9)))
  ∧ (∀ (p : Port) (s : State), s.tc p = 10 → exec (.tdrptry p false) s = .next (s.settled (s.setTc p 11)))
  ∧ (∀ (p : Port) (s : State), s.tc p = 11 → exec (.tdrptry p false) s = .next (s.settled (s.unattached p)))
  ∧ (∀ (p : Port) (s : State), (s.port p).span ≠ .none → s.attached p = true → exec (.detachExceptionEnd p) s =
    .next (s.settled (s.endSpan p)))
  ∧ (∀ (p : Port) (s : State), s.armed p .receive = true → exec (.treceive p) s = .next (s.settled (s.tReceive p)))
  ∧ (∀ (p : Port) (s : State), s.armed p .senderResponse = true → exec (.tsenderresponse p) s = .next (s.settled
    (s.sendSoftReset p)))
  ∧ (∀ (p : Port) (s : State), s.armed p .typeCSendSourceCap = true → s.isSource p = true → (s.port p).caps < 50 →
    s.bit (F.PD_Pp_STATUS_CONTRACT p) = false → exec (.ttypecsendsourcecap p) s = .next (s.settled (((s.modPort p
    fun k => { k with caps := k.caps + 1 }).sendSourceCaps p true).arm p .typeCSendSourceCap)))
  ∧ (∀ (p : Port) (s : State), s.armed p .sinkWaitCap = true → exec (.tsinkwaitcap p) s = .next (s.settled
    (s.timerReset p)))
  ∧ (∀ (p : Port) (s : State), s.armed p .psTransition = true → exec (.tpstransition p) s = .next (s.settled
    (s.timerReset p)))
  ∧ (∀ (p : Port) (s : State), s.armed p .hardReset = true → exec (.thardreset p) s = .next (s.settled ((s.disarm p
    .hardReset).endIf (portLoop p) fun q => isPortStop q.cause || q.cause == 0x1B || q.cause == 0x0E)))
  ∧ (∀ (p : Port) (s : State), s.armed p .noResponse = true → exec (.tnoresponse p) s = .next (s.settled
    (s.timerReset p)))
  ∧ (∀ (p : Port) (s : State), s.armed p .enterEpr = true → exec (.tenterepr p) s = .next (s.settled
    (s.sendSoftReset p)))
  ∧ (∀ (p : Port) (s : State), s.armed p .sinkEprKeepAlive = true → s.isSink p = true → exec (.tsinkeprkeepalive p)
    s = .next (s.settled ((s.sendCtl p .eprKeepAlive).arm p .sinkEprKeepAlive)))
  ∧ (∀ (p : Port) (s : State), s.armed p .sourceEprKeepAlive = true → exec (.tsourceeprkeepalive p) s = .next
    (s.settled (s.timerReset p)))
  ∧ (∀ (p : Port) (s : State), s.armed p .ppsRequest = true → s.isSink p = true → exec (.tppsrequest p) s = .next
    (s.settled (((s.modPort p fun k => { k with refreshDue := true }).arm p .ppsRequest).startPending p)))
  ∧ (∀ (p : Port) (s : State), s.armed p .ppsTimeout = true → exec (.tppstimeout p) s = .next (s.settled
    (s.timerReset p)))
  ∧ (∀ (p : Port) (s : State), s.armed p .psSourceOn = true → exec (.tpssourceon p) s = .next (s.settled
    (s.errorRecovery p)))
  ∧ (∀ (p : Port) (s : State), s.bit (F.PD_Pp_STATUS_VCONN_SRC p) = true → exec (.vconnOc p) s = .next (s.settled
    (s.vconnOverload p)))
  ∧ (∀ (p : Port) (s : State), exec (.cableDiscoveryRetry p) s = .next (s.settled (s.discoverCable p)))
  ∧ (∀ (p : Port) (s : State), s.bit (F.PD_Pp_STATUS_FRS_ARMED p) = true → exec (.frsSignal p) s = .next (s.settled
    (s.frsSignal p)))
  ∧ (∀ (p : Port) (s : State), (s.port p).span = .frs → (s.path p).frsHold = true → exec (.frsFail p) s = .next
    (s.settled (s.fault (portLoop p) 0x1C)))
  ∧ (∀ (p : Port) (s : State), s.isSource p = true → (s.port p).ams = .prSwap → (s.port p).step = 2 → exec
    (.prSwapSourceOff p) s = .next (s.settled ((((s.pathOff p).openFets p).discharge p))))
  ∧ (∀ (p : Port) (s : State), exec (.frsSignalEnd p) s = .next (s.settled (s.modPort p fun k =>
    { k with frsDrive := false })))

/-- Messages of the PD protocol: their receipt, and what C2 makes of each. -/
def Obligations.PdMessageCommandsComplete : Prop :=
  (∀ (p : Port) (m : PdMsg) (s : State), s.domOn 10 = true → (s.isSource p || s.isSink p) = true → (s.port p).pdEn =
    true → s.deadBattery = false → exec (.pdMessageRx p m false) s = .next (s.settled (s.satInc (F.PD_Pp_CNT_CRC_ERR
    p))))
  ∧ (∀ (p : Port) (m : PdMsg) (crcOk : Bool) (s : State), s.domOn 10 = true → (s.isSource p || s.isSink p) = true →
    (s.port p).pdEn = true → s.deadBattery = false → exec (.pdMessageRx p m crcOk) s = .next (s.settled (s.pdRx p m
    crcOk)))
  ∧ (∀ (p : Port) (m : PdMsg) (s t : State), s.isSink p = true → s.coreActs 0 = true → s.c2Acts = true → s.takeMsg p
    (fun t => t == .sourceCapabilities || t == .eprSourceCapabilities) = some (m, t) → exec (.sourceCapabilities p)
    s = .next (s.settled (t.sourceCaps p m)))
  ∧ (∀ (p : Port) (m : PdMsg) (s t : State), s.isSource p = true → s.coreActs 0 = true → s.c2Acts = true → s.takeMsg
    p (fun t => t == .request || t == .eprRequest) = some (m, t) → exec (.request p) s = .next (s.settled (t.request
    p m)))
  ∧ (∀ (p : Port) (m : PdMsg) (s t : State), s.c2Acts = true → s.takeMsg p (fun t => t == .drSwap) = some (m, t) →
    exec (.drSwap p) s = .next (s.settled (if t.bit (F.PD_Pp_CFG_ACC_DR p) && t.fld (F.PD_Pp_MODES_ENTERED p) == 0
    then (t.sendCtl p .accept).toggleData p else t.sendCtl p .reject)))
  ∧ (∀ (p : Port) (m : PdMsg) (s t : State), s.isSink p = false ∨ s.bit (F.PD_Pp_CFG_ACC_PR p) = false ∨ s.coreActs
    0 = true → s.c2Acts = true → s.takeMsg p (fun t => t == .prSwap) = some (m, t) → exec (.prSwap p) s = .next
    (s.settled (t.rxPrSwap p)))
  ∧ (∀ (p : Port) (m : PdMsg) (s t : State), s.c2Acts = true → s.takeMsg p (fun t => t == .vconnSwap) = some (m, t)
    → exec (.vconnSwap p) s = .next (s.settled (t.rxVconnSwap p)))
  ∧ (∀ (p : Port) (s : State), s.c2Acts = true → (s.isSink p || s.isSource p) = true → exec (.eprMode p) s = .next
    (s.settled (s.eprMode p)))
  ∧ (∀ (p : Port) (m : PdMsg) (s t : State), s.takeMsg p (fun t => t == .eprKeepAlive) = some (m, t) → t.isSource p
    = true → t.bit (F.PD_Pp_STATUS_EPR_MODE p) = true → exec (.eprKeepalive p) s = .next (s.settled ((t.sendCtl p
    .eprKeepAliveAck).arm p .sourceEprKeepAlive)))
  ∧ (∀ (p : Port) (s : State), s.c2Acts = true → exec (.frSwap p) s = .next (s.settled (s.frSwap p)))
  ∧ (∀ (p : Port) (m : PdMsg) (s t : State), s.c2Acts = true → s.takeMsg p (fun t => t == .psRdy) = some (m, t) →
    exec (.psRdy p) s = .next (s.settled (t.partnerReady p)))
  ∧ (∀ (p : Port) (s : State), (s.isSink p || s.isSource p) = true → (s.port p).pdEn = true → exec (.hardResetRx p)
    s = .next (s.settled (s.hardReset p false)))
  ∧ (∀ (p : Port) (s : State), (s.isSink p || s.isSource p) = true → (s.port p).pdEn = true → s.deadBattery = false
    → exec (.hardResetTx p) s = .next (s.settled (s.hardReset p true)))
  ∧ (∀ (p : Port) (s : State), s.bit (F.PD_Pp_STATUS_VCONN_SRC p) = true → s.c2Acts = true → exec (.cableReset p) s
    = .next (s.settled ((s.emit (.cableReset p)).modPort p fun k =>
    { k with txId := #v[k.txId[0], 0, 0], rxId := #v[k.rxId[0], none, none], rxPrime := [] })))

/-- Partner memory, grants and the budget; and the comparators, gates, discharges and trips of the port power path. -/
def Obligations.PortPathAndBudgetCommandsComplete : Prop :=
  (∀ (p : Port) (i : Nat) (s : State), (s.port p).pmemDue = true → (s.port p).pmemKept = [] → s.bit
    (F.PD_Pp_CFG_PMEM_EN p) = true → s.coreActs 2 = true → s.findFacts (s.facts p).quick (s.facts p).id = none →
    s.freePlace = some i → (s.facts p).cableId = [] → exec (.pmemWrite p) s = .next (s.settled ((s.modPort p fun k
    => { k with pmemDue := false }).putEntry i (partnerEntry (s.facts p) (s.fld F.PD_PMEM_STAMP_STAMP) none))))
  ∧ (∀ (p : Port) (s : State), ((s.port p).pmemDue || !(s.port p).pmemKept.isEmpty) = true → s.bit
    (F.PD_Pp_CFG_PMEM_EN p) = true → s.coreActs 2 = true → exec (.pmemWrite p) s = .next (s.settled (s.pmemWrite
    p)))
  ∧ (∀ (p : Port) (want : Fin 1024) (s : State), s.coreActs 0 = true → s.coreActs 2 = true → s.attached p = true →
    s.isSource p = false → want.val ≤ s.fld (F.PP_Pp_BUD_SNK_PMAX p) → exec (.grantRequest p want) s = .next
    (s.settled (s.modPath p fun k => { k with intake := want.val })))
  ∧ (∀ (p : Port) (want : Fin 1024) (s : State), s.coreActs 0 = true → s.coreActs 2 = true → s.isSource p = true →
    exec (.grantRequest p want) s = .next (s.settled (s.askSource p want.val).2))
  ∧ (∀ (s : State), s.coreActs 0 = true → exec .budgetRecompute s = .next (s.settled (s.recompute.forAll fun (p :
    Port) t => t.readvertise p (s.fld (F.PP_Pp_MEAS_ALLOT p)))))
  ∧ (∀ (x : PortSense) (s : State), s.mode x.port = 1 → s.portRuns x.port = true → s.bit (F.PP_Pp_STATUS_FETS x.port)
    = false → (s.path x.port).safe0V = true → within x.val 5000000 5 = true → exec (.converterNodeQualified x) s =
    .next (s.settled ((s.modPath x.port fun k => { k with closing := true }).setBit (F.PP_Pp_STATUS_DSCHG x.port)
    false)))
  ∧ (∀ (x : PortSense) (s : State), s.mode x.port = 1 → s.loopSt (portLoop x.port) = 3 → s.refNow (portLoop x.port)
    = s.refTarget (portLoop x.port) → within x.val (s.sourceTarget x.port) 3 = true → exec (.vreached x) s = .next
    (s.settled (s.vreached x.port)))
  ∧ (∀ (p : Port) (s : State), (s.path p).closing = true → exec (.gateClosed p) s = .next (s.settled (s.gateClosed
    p)))
  ∧ (∀ (p : Port) (s : State), (s.path p).closing = true → exec (.gateFail p) s = .next (s.settled ((s.modPath p fun
    k => { k with closing := false }).fault (portLoop p) 0x18)))
  ∧ (∀ (p : Port) (s : State), exec (.dschgDone p) s = .next (s.settled (s.dschgDone p)))
  ∧ (∀ (p : Port) (s : State), s.bit (F.PP_Pp_STATUS_DSCHG p) = true → exec (.dschgTmo p) s = .next (s.settled
    ((s.setBit (F.PP_Pp_STATUS_DSCHG p) false).fault (portLoop p) 0x19)))
  ∧ (∀ (x : PortSense) (s : State), s.mode x.port = 1 → s.portRuns x.port = true → s.bit (F.PP_Pp_STATUS_CL x.port)
    = true → x.val < s.portOcLimit x.port → exec (.portOc x) s = .next (s.settled (s.fault (portLoop x.port) 0x15)))
  ∧ (∀ (x : PortSense) (s : State), s.sinks x.port = true → s.portRuns x.port = true → 8 * x.val < 7 * 20000 *
    (s.contractVolt x.port : Nat) → exec (.sinkUv x) s = .next (s.settled (s.fault (portLoop x.port) 0x16)))
  ∧ (∀ (x : PortSense) (s : State), (s.path x.port).uvWait = true → within x.val (20000 * (s.contractVolt x.port :
    Nat)) 5 = true → exec (.sinkRestart x) s = .next (s.settled (((s.modPath x.port fun k =>
    { k with uvWait := false }).sinkStart x.port).endIf (portLoop x.port) fun q => q.cause == 0x16)))
  ∧ (∀ (p : Port) (s : State), s.portRuns p = true → exec (.reverseCurrentEnd p) s = .next (s.settled (s.modChan
    (s.outputLeg p) fun c => { c with scHold := true })))
  ∧ (∀ (p : Port) (s : State), (s.path p).hr = .sourceWait → exec (.tpshardreset p) s = .next (s.settled
    ((((s.pathOff p).openFets p).discharge p).modPath p fun k =>
    { k with hr := if k.safe0V then .recover else .falling })))
  ∧ (∀ (p : Port) (s : State), (s.path p).hr = .recover → s.isSource p = true → exec (.tsrcrecover p) s = .next
    (s.settled ((s.sourceStart p).modPath p fun k => { k with hr := .sourceOn })))
  ∧ (∀ s : State, exec .vsysShed s = .next (s.settled ((s.raise 7 1).forAll fun (p : Port) t => t.shedPort p)))
  ∧ (∀ s : State, exec .vsysOv s = .next (s.settled ((s.raise 7 2).forAll fun (p : Port) t => if t.isSink p then
    t.fault (portLoop p) 0x12 else t)))
  ∧ (∀ (x : PortSense) (s : State), (s.portRuns x.port || s.attached x.port) = true → s.portOvLimit x.port ≤ x.val →
    exec (.portOv x) s = .next (s.settled (s.fault (portLoop x.port) 0x11)))
  ∧ (∀ (x : PortSense) (s : State), s.portRuns x.port = true → s.pulsing (s.inputLeg x.port) = true → s.peakLimitUv
    x.port ≤ x.val → exec (.peakTrip x) s = .next (s.settled (s.peakTrip x.port)))
  ∧ (∀ (x : PortSense) (s : State), s.portRuns x.port = true → (s.fld (F.PP_Pp_PROT_REV_LIM x.port) : Int) < (if
    s.sinks x.port then s.busCurrent x.port x.val else -s.busCurrent x.port x.val) → exec (.revCur x) s = .next
    (s.settled (s.fault (portLoop x.port) 0x17)))
  ∧ (∀ (x : PortSense) (s : State), s.fld F.PP_DB_DB_ACTIVE = x.port.val → 60 < -s.busCurrent x.port x.val → exec
    (.dbOc x) s = .next (s.settled (s.dbOc x.port)))
  ∧ (∀ (p : Port) (s : State), (s.path p).dbRetry = true → exec (.dbRetry p) s = .next (s.settled (((s.modPath p fun
    k => { k with dbRetry := false }).tryPass p).endIf (portLoop p) fun q => q.cause == 0x1A)))

/-- R266: the allotment: each counted consumer has between its floor and its want; and unless the floors alone exceed
what there is, all that is given, with the reserve and the standing budgets of R254 (where the model holds them back:
log 21), costs no more than the supply. -/
def Obligations.TheBudgetIsNotOverspent : Prop :=
  (∀ (s : State) (g : Consumer × Nat), g ∈ s.allot.given →
      s.counted g.1 = true ∧ s.floorOf g.1 ≤ g.2 ∧ g.2 ≤ s.wantOf g.1)
  ∧ (∀ s : State, s.budgetShort = false →
      (s.allot.given.map fun g => s.costOf g.1 g.2).sum + s.heldBack ≤ s.supply)
  ∧ (∀ s : State, s.budgetShort = true ↔ s.supply <
      (((consumers.filter s.counted).map fun c => s.costOf c (s.floorOf c)).sum + s.heldBack))
  ∧ (∀ s : State, (∀ p : Port, s.bit (F.PD_Pp_STATUS_FRS_ARMED p) = false) → s.heldBack = (s.fld F.PP_BUDGET_RESERVE : Rat))

/-- The rails, steps, deadlines, group and reset outputs of the sequencer. -/
def Obligations.SequencerCommandsComplete : Prop :=
  (∀ (n : Rail) (s : State), s.inUpStep n = true → s.seq.rails[n].onDone = false → exec (.railOn n) s = .next
    (s.settled (s.turnOn n)))
  ∧ (∀ (n : Rail) (s : State), s.dir = 2 → s.railState n = s.cur → s.seq.rails[n].offDone = false → exec (.railOff
    n) s = .next (s.settled ((s.modRail n fun r => { r with offDone := true }).turnOff n)))
  ∧ (∀ (n : Rail) (uv : Int) (s : State), s.inUpStep n = false → exec (.seqWindowCrossing n uv) s = .next (s.settled
    (s.setBit (F.SEQ_Sn_STAT_INSIDE n) (s.windowInside n uv && s.canBeInside n))))
  ∧ (∀ (n : Rail) (s : State), s.railIsOn n = true → s.bit (F.SEQ_Sn_STAT_INSIDE n) = true → s.bit
    (F.SEQ_Sn_CFG_PG_REQ n) = true → exec (.railGood n) s = .next (s.settled (s.setBit (F.SEQ_Sn_STAT_GOOD n)
    true)))
  ∧ (∀ (n : Rail) (s : State), s.railIsGood n = true → s.bit (F.SEQ_Sn_CFG_PG_REQ n) = true → s.bit
    (F.SEQ_Sn_STAT_INSIDE n) = false → exec (.railBad n) s = .next (s.settled (s.railBad n)))
  ∧ (∀ (x : RailSense) (s : State), s.dir = 2 → s.railState x.rail = s.cur → s.seq.rails[x.rail].offDone = true →
    s.senseOff x = true → exec (.railReadsOff x) s = .next (s.settled (s.modRail x.rail fun r =>
    { r with readsOff := true })))
  ∧ (∀ (late : Bool) (s : State), s.upDone = true → exec (.seqPowerUpStepComplete late) s = .next (s.settled
    (s.upComplete late)))
  ∧ (∀ (s : State), s.downDone = true → exec .seqPowerDownStepComplete s = .next (s.settled (s.downComplete)))
  ∧ (∀ (n : Rail) (s : State), s.dir = 1 → s.seq.complete = false → s.fld (F.SEQ_STk_UP_TMO s.cur) ≠ 0 → ((s.railsOf
    s.cur).find? fun n => !(s.seq.rails[n].onDone && s.railIsGood n)) = some n → exec .pgTimeout s = .next
    (s.settled ((s.seqFault 1 3 (some n)).abort)))
  ∧ (∀ s : State, s.dir = 2 → s.fld (F.SEQ_STk_DN_TMO s.cur) ≠ 0 → exec .disTimeout s = .next (s.settled
    (((s.railsOf s.cur).filter fun n => !s.railReads n).foldl (fun t (n : Rail) => ((t.seqFault 6 2 (some
    n)).forceOff n).modRail n fun r => { r with readsOff := true }) s)))
  ∧ (∀ (s : State), s.seq.ready = true → s.seq.holdOff = false → s.cur ≠ s.target → exec .syncReleaseQualified s =
    .next (s.settled (s.syncStep)))
  ∧ (∀ s : State, s.seq.holdOff = true → s.seq.ready = false → exec .syncHoldEnd s = .next (s.settled ((s.modSeq fun
    q => { q with holdOff := false }).driveSync s.syncEn)))
  ∧ (∀ (s : State), s.seq.ready = true → s.seq.holdOff = false → s.fld F.SEQ_CFG_SYNC_TMO ≠ 0 → exec .syncTimeout s
    = .next (s.settled ((s.seqFault 3 3 none).abort)))
  ∧ (∀ (m : Fin 4) (s : State), (s.seq.rst[m].stretch || (s.seq.rst[m].lossHeld && s.rstGood m)) = true → exec
    (.rstoutRelease m) s = .next (s.settled ((s.driveRst m true).modRst m fun _ =>
    { stretch := false, lossHeld := false })))

/-- R280-R282: a power-up step is done only with every rail of the state on and good; a power-down step only with every
rail past its off instant and reading off; and a rail reads off as R282 gives: by its threshold, by its wait, or, a
rail loop, by STATE 0 or 6. -/
def Obligations.ASequencerStepCompletesInOrder : Prop :=
  (∀ (s : State) (n : Rail), s.upDone = true → s.railState n = s.cur → s.cur ≠ 0 →
      s.seq.rails[n].onDone = true ∧ s.railIsGood n = true)
  ∧ (∀ (s : State) (n : Rail), s.downDone = true → s.railState n = s.cur → s.cur ≠ 0 →
      s.seq.rails[n].offDone = true ∧ s.railReads n = true)
  ∧ (∀ (s : State) (n : Rail), 8 ≤ n.val → s.railReads n = true →
      s.seq.rails[n].readsOff = true ∨ (s.bit (F.SEQ_Sn_CFG_DIS_WAIT n) = false ∧ s.seq.rails[n].offDone = true))
  ∧ (∀ (s : State) (n : Rail) (h : n.val < 8), s.seq.rails[n].readsOff = false →
      (s.railReads n = true ↔ s.loopSt ⟨n.val, by omega⟩ = 0 ∨ s.loopSt ⟨n.val, by omega⟩ = 6))
  ∧ (∀ s : State, s.cur < 64 → (s.enterUp (s.cur + 1)).dir = 1 ∧ s.enterDown.dir = 2 ∧ s.enterDown.cur = s.cur)

/-- The 27 commands that carry a host transaction: a write that passes its checks does what its command does; a read
answers its bytes with PEC; each records its return code. -/
def Obligations.HostTransactionsComplete : Prop :=
  (∀ (c : Instr) (h : HostId) (t : Txn) (cmd : HostCmd) (bs : List Byte) (s : State),
      c.transaction? = some (h, t, cmd) → s.Served h t cmd → t.write = some bs → s.pecFails h t = false →
      cmd.count = some bs.length → s.mbxDownAt h bs = false →
      exec c s = .next (s.settled ((cmd.write s bs).1.hostCode h (cmd.write s bs).2)))
  ∧ (∀ (c : Instr) (h : HostId) (t : Txn) (cmd : HostCmd) (bs : List Byte) (s : State),
      c.transaction? = some (h, t, cmd) → s.Served h t cmd → t.write = some bs → s.pecFails h t = false →
      cmd.count ≠ some bs.length → s.mbxDownAt h bs = false → exec c s = .next (s.settled (s.hostCode h 0xB)))
  ∧ (∀ (c : Instr) (h : HostId) (t : Txn) (cmd : HostCmd) (f : State → HostRead) (s : State),
      c.transaction? = some (h, t, cmd) → s.Served h t cmd → t.write = none → s.overStretched h = false →
      cmd.read = some f → exec c s = .next (s.settled (((f s).state.emit
        (.reply h (f s).data (readPec t.addr cmd.code (f s).data))).hostCode h (f s).code)))
  ∧ (∀ (c : Instr) (h : HostId) (t : Txn) (cmd : HostCmd) (s : State),
      c.transaction? = some (h, t, cmd) → s.Served h t cmd → t.write = none → s.overStretched h = false →
      cmd.read = none → exec c s = .next (s.settled (s.hostCode h 0xB)))
  ∧ (∀ (c : Instr) (h : HostId) (t : Txn) (cmd : HostCmd) (s : State),
      c.transaction? = some (h, t, cmd) → s.Served h t cmd → t.write = none → s.overStretched h = true →
      exec c s = .next (s.settled (s.stretchOut h true)))

/-- R308: PEC of host transactions. -/
def Obligations.PacketErrorChecking : Prop :=
  ∀ (c : Instr) (h : HostId) (t : Txn) (cmd : HostCmd) (s : State), c.transaction? = some (h, t, cmd) → s.Served h t cmd →
    (∀ bs : List Byte, t.write = some bs → s.mbxDownAt h bs = false →
      t.pec = .bad ∨ (t.pec = .absent ∧ s.bit (F.HP_TWk_CFG_PEC_REQ h) = true) →
      exec c s = .next (s.settled (((s.satInc (F.HP_TWk_CNT_PEC_ERR h)).setFld ((F.HP_TWk_STATUS_CML h).at 5) 1).setFld
        (F.HP_TWk_STATUS_LAST_CODE h) 0xC)))
    ∧ (∀ bs : List Byte, t.write = some bs →
      t.pec = .good ∨ (t.pec = .absent ∧ s.bit (F.HP_TWk_CFG_PEC_REQ h) = false) → s.pecFails h t = false)
    ∧ (∀ f : State → HostRead, t.write = none → s.overStretched h = false → cmd.read = some f → ∃ u : State,
      exec c s = .next (s.settled u) ∧ u.out.head? = some (.reply h (f s).data (readPec t.addr cmd.code (f s).data)))

/-- R315: PAGE: a value of 0-11 is taken by the port that writes it and by no other; 12-255 is refused with BAD_DATA; a
page command for a loop that another host owns is refused with NOT_OWNER. -/
def Obligations.PagesAreEachPortsOwn : Prop :=
  (∀ (h : HostId) (t : Txn) (b : Byte) (s : State), s.Served h t (cmdPage h) → t.write = some [b] → s.pecFails h t = false →
      b.toNat < 12 → ∃ u : State, exec (.page h t) s = .next (s.settled u)
        ∧ (u.page h).val = b.toNat ∧ u.fld (F.HP_TWk_STATUS_LAST_CODE h) = 0 ∧ ∀ g : HostId, g ≠ h → u.page g = s.page g)
  ∧ (∀ (h : HostId) (t : Txn) (b : Byte) (s : State), s.Served h t (cmdPage h) → t.write = some [b] → s.pecFails h t = false →
      12 ≤ b.toNat → exec (.page h t) s = .next (s.settled (s.hostCode h 0xF)))
  ∧ (∀ (h : HostId) (rails : Bool) (f : Loop → State × Nat) (s : State), (s.page h).val < 8 →
      s.owner (s.page h).val ≠ h.val → s.pageWrite h rails f = (s, 3))
  ∧ (∀ (h : HostId) (rails : Bool) (f : Loop → State × Nat) (s : State), (s.page h).val < 8 →
      s.owner (s.page h).val = h.val → s.pageWrite h rails f = f (s.page h))

/-- R318: a LINEAR11 word, where some exponent holds the value, is within half a step of it; and every whole number up to
1023 in size is carried exactly. -/
def Obligations.Linear11IsNearest : Prop :=
  (∀ (x : Rat) (i : Nat),
      ((List.range 16).find? fun i => decide (-1024 ≤ mantissa x i) && decide (mantissa x i ≤ 1023)) = some i →
      ofLinear11 (linear11 x) - x ≤ (2 : Rat) ^ i / 512 ∧ x - ofLinear11 (linear11 x) ≤ (2 : Rat) ^ i / 512)
  ∧ (∀ (x : Rat) (i : Nat), i < 16 → -1024 ≤ mantissa x i → mantissa x i ≤ 1023 → linear11 x < 65536)
  ∧ (∀ n : Nat, n ≤ 1023 → ofLinear11 (linear11 (n : Rat)) = (n : Rat))

/-- What a port does beside its commands (an unsupported code, an abandoned transaction, the time-outs, Host Notify), and
C0's answers to the tenancy channels. -/
def Obligations.HostEventsAndTenancyComplete : Prop :=
  (∀ (h : HostId) (t : Txn) (code : Byte) (s : State), s.answers h t = true → s.hears h t = true → s.serves
    code.toNat = false → exec (.unsupportedCommand h t code) s = .next (s.settled ((s.setFld ((F.HP_TWk_STATUS_CML
    h).at 7) 1).emit (.nack h))))
  ∧ (∀ (h : HostId) (t : Txn) (code : Byte) (s : State), s.answers h t = true → s.hears h t = false → exec
    (.unsupportedCommand h t code) s = .next (s.settled (s.emit (.nack h))))
  ∧ (∀ (h : HostId) (s : State), s.portOpen h = true → exec (.abandoned h) s = .next (s.settled (((s.satInc
    (F.HP_TWk_CNT_ABANDONED h)).raise 10 15).setFld (F.HP_TWk_STATUS_LAST_CODE h) 0xD)))
  ∧ (∀ (h : HostId) (s : State), s.portOpen h = true → exec (.sclLowTimeout h) s = .next (s.settled ((((s.satInc
    (F.HP_TWk_CNT_ABANDONED h)).raise 10 15).setFld (F.HP_TWk_STATUS_LAST_CODE h) 0xD).setFld ((F.HP_TWk_STATUS_CML
    h).at 1) 1)))
  ∧ (∀ (h : HostId) (read : Bool) (s : State), s.portOpen h = true → exec (.stretchTimeout h read) s = .next
    (s.settled ((if read then ((s.satInc (F.HP_TWk_CNT_STRETCH_TMO h)).raise 10 14).setFld ((F.HP_TWk_STATUS_CML
    h).at 1) 1 else (((s.satInc (F.HP_TWk_CNT_STRETCH_TMO h)).raise 10 14).setFld ((F.HP_TWk_STATUS_CML h).at 1)
    1).emit (.nack h)).setFld (F.HP_TWk_STATUS_LAST_CODE h) 0xE)))
  ∧ (∀ (h : HostId) (view : BitVec 16) (s : State), s.hosts[h].notify = some view → s.domOn 2 = true →
    s.hosts[h].losses = 0 → exec (.hostNotify h .sent) s = .next (s.settled (((s.emit (.notify h (BitVec.ofNat 8 (2
    * s.fld (F.HP_TWk_ADDR_ADDR0 h))) view)).satInc (F.HP_TWk_NOTIFY_SENT h)).endNotify h)))
  ∧ (∀ (h : HostId) (view : BitVec 16) (s : State), s.hosts[h].notify = some view → s.domOn 2 = true →
    s.hosts[h].losses = 0 → exec (.hostNotify h .nacked) s = .next (s.settled (((s.satInc (F.HP_TWk_NOTIFY_FAILED
    h)).raise 10 (3 + h.val)).endNotify h)))
  ∧ (∀ (h : HostId) (view : BitVec 16) (e : NotifyEnd) (s : State), s.hosts[h].notify = some view → s.domOn 2 = true
    → 0 < s.hosts[h].losses → exec (.notifyRetry h e) s = .next (s.settled (s.notifyTry h view e)))
  ∧ (∀ (h : HostId) (view : BitVec 16) (s : State), s.hosts[h].notify = some view → s.domOn 2 = true →
    s.hosts[h].losses = 3 → exec (.notifyRetry h .lost) s = .next (s.settled (((((s.satInc (F.HP_TWk_CNT_CONTENTION
    h)).raise 10 (9 + h.val)).setFld ((F.HP_TWk_STATUS_CML h).at 1) 1).notifyFails h))))
  ∧ (∀ (h : HostId) (secure : Bool) (i : Fin 6) (s : State), i.val = (if secure then h.val else h.val + 3) →
    s.coreActs 0 = true → s.seedling = false → s.houseOp = false → s.tenancy.head? = some i → tenancyOp (s.reg
    (A.MBX_CHn_DATA (tenancyChan i))) = 1 → exec (.claim h secure) s = .next (s.settled (s.tenancy_ i)))
  ∧ (∀ (h : HostId) (secure : Bool) (i : Fin 6) (s : State), i.val = (if secure then h.val else h.val + 3) →
    s.coreActs 0 = true → s.seedling = false → s.houseOp = false → s.tenancy.head? = some i → tenancyOp (s.reg
    (A.MBX_CHn_DATA (tenancyChan i))) = 2 → exec (.release h secure) s = .next (s.settled (s.tenancy_ i)))
  ∧ (∀ (h : HostId) (secure : Bool) (i : Fin 6) (s : State), i.val = (if secure then h.val else h.val + 3) →
    s.coreActs 0 = true → s.seedling = false → s.houseOp = false → s.tenancy.head? = some i → tenancyOp (s.reg
    (A.MBX_CHn_DATA (tenancyChan i))) = 3 → exec (.give h secure) s = .next (s.settled (s.tenancy_ i)))

/-- Table 10.8: what C0 answers to a request, and whose the resource is then; the answer frees the channel; no other
resource changes its owner. -/
def Obligations.TenancyAnswers : Prop :=
  ∀ (s : State) (i : Fin 6) (r : Nat), r < 15 →
    (∀ w : Word, s.reg (A.MBX_CHn_DATA (tenancyChan i)) = w → getBits w 0 4 = r → getBits w 6 22 = 0 → getBits w 4 2 ≠ 3 →
      (getBits w 28 4 = 1 → s.owner r = 3 → s.bit (F.HP_OWNERr_CLAIM_EN r) = true →
        (s.tenancy_ i).owner r = i.val % 3 ∧ (s.tenancy_ i).fld (F.MBX_CHn_ACK_CODE (tenancyChan i)) = 0)
      ∧ (getBits w 28 4 = 1 → s.owner r = 3 → s.bit (F.HP_OWNERr_CLAIM_EN r) = false →
        (s.tenancy_ i).owner r = 3 ∧ (s.tenancy_ i).fld (F.MBX_CHn_ACK_CODE (tenancyChan i)) = 0x12)
      ∧ (getBits w 28 4 = 1 → s.owner r ≠ 3 → s.owner r ≠ i.val % 3 →
        (s.tenancy_ i).owner r = s.owner r ∧ (s.tenancy_ i).fld (F.MBX_CHn_ACK_CODE (tenancyChan i)) = 0x10)
      ∧ (getBits w 28 4 = 2 → s.owner r = i.val % 3 →
        (s.tenancy_ i).owner r = 3 ∧ (s.tenancy_ i).fld (F.MBX_CHn_ACK_CODE (tenancyChan i)) = 0)
      ∧ (getBits w 28 4 = 3 → s.owner r = i.val % 3 →
        (s.tenancy_ i).owner r = getBits w 4 2 ∧ (s.tenancy_ i).fld (F.MBX_CHn_ACK_CODE (tenancyChan i)) = 0)
      ∧ (getBits w 28 4 = 2 ∨ getBits w 28 4 = 3 → s.owner r ≠ i.val % 3 →
        (s.tenancy_ i).owner r = s.owner r ∧ (s.tenancy_ i).fld (F.MBX_CHn_ACK_CODE (tenancyChan i)) = 0x11)
      ∧ (∀ q : Nat, q < 15 → q ≠ r → (s.tenancy_ i).owner q = s.owner q))
    ∧ (s.tenancy_ i).fld (F.MBX_CHn_ACK_FULL (tenancyChan i)) = 0
    ∧ (s.tenancy_ i).fld (F.MBX_CHn_ACK_VALID (tenancyChan i)) = 1
    ∧ i ∉ (s.tenancy_ i).tenancy

/-- R330: a host whose port is not secure cannot write a secure channel: its configuration, its word or its answer;
nothing changes. A secure port and a core are not barred. -/
def Obligations.SecureChannels : Prop :=
  (∀ (s : State) (h : HostId) (n : Fin 64) (m v : Word), s.bit (F.HP_TWk_CFG_SECURE h) = false → s.domOn 2 = true →
      s.limited = false →
      (s.regWrite (A.MBX_CHn_CFG n.val) ⟨.host h, m, v⟩).code = 7 ∧ (s.regWrite (A.MBX_CHn_CFG n.val) ⟨.host h, m, v⟩).state = s
      ∧ (s.regWrite (A.MBX_CHn_ACK n.val) ⟨.host h, m, v⟩).code = 7 ∧ (s.regWrite (A.MBX_CHn_ACK n.val) ⟨.host h, m, v⟩).state = s
      ∧ (s.regWrite (A.MBX_CHn_DATA n.val) ⟨.host h, m, v⟩).state = s
      ∧ (s.regWrite (A.MBX_CHn_DATA n.val) ⟨.host h, m, v⟩).code = (if s.mbxSender (.host h) n.val then 7 else 8))
  ∧ (∀ (s : State) (who : Writer) (n : Nat), (∃ k, who = .core k) ∨ (∃ h, who = .host h ∧ s.bit (F.HP_TWk_CFG_SECURE h) = true) →
      s.notSecure who = false ∧ s.mbxCheck who n ≠ 7)

/-- R328, R329, R331: an accepted word is in DATA with FULL 1 and VALID 0; while FULL reads 1 another word is refused
with BOX_FULL and nothing changes; the receiver's answer puts CODE, sets VALID and clears FULL. -/
def Obligations.AMailboxWordIsHeldUntilAnswered : Prop :=
  (∀ (s : State) (who : Writer) (n : Fin 256) (w : Word), s.mbxCheck who n.val = 0 →
      (s.mbxSend who n.val w).2 = 0 ∧ (s.mbxSend who n.val w).1.reg (A.MBX_CHn_DATA n.val) = w
      ∧ (s.mbxSend who n.val w).1.fld (F.MBX_CHn_ACK_FULL n.val) = 1
      ∧ (s.mbxSend who n.val w).1.fld (F.MBX_CHn_ACK_VALID n.val) = 0)
  ∧ (∀ (s : State) (who : Writer) (n : Nat) (w : Word), s.mbxCheck who n = 9 → s.mbxSend who n w = (s, 9))
  ∧ (∀ (s : State) (who : Writer) (n : Fin 256) (code : Nat), s.mbxReceiver n.val = some who → s.notSecure who = false →
      s.mbxFull n.val = true → code < 65536 →
      (s.mbxAck who n.val code).2 = 0 ∧ (s.mbxAck who n.val code).1.fld (F.MBX_CHn_ACK_CODE n.val) = code
      ∧ (s.mbxAck who n.val code).1.fld (F.MBX_CHn_ACK_VALID n.val) = 1
      ∧ (s.mbxAck who n.val code).1.fld (F.MBX_CHn_ACK_FULL n.val) = 0
      ∧ (s.mbxAck who n.val code).1.reg (A.MBX_CHn_DATA n.val) = s.reg (A.MBX_CHn_DATA n.val))
  ∧ (∀ (s : State) (who : Writer) (n code : Nat), s.mbxReceiver n ≠ some who → (s.mbxAck who n code).1 = s)

/-- R340: the crown, the views of the hosts, what a read of them returns, and the view that a Host Notify carries. -/
def Obligations.CrownAndViews : Prop :=
  ∀ s : State,
    (∀ g : Nat, g < 16 → (s.crown.testBit g = true ↔ s.causeWord g ≠ 0))
    ∧ (∀ g k : Nat, g < 16 → ((s.view k).testBit g = true ↔ s.causeWord g &&& s.fld (F.IRQ_ENk_g_EN k g) ≠ 0))
    ∧ s.crown < 65536 ∧ (∀ k : Nat, s.view k < 65536)
    ∧ (∀ who : Writer, s.domOn 2 = true → ((s.readReg who A.IRQ_CROWN).word).toNat = s.crown)
    ∧ (∀ (who : Writer) (k : Fin 3), s.domOn 2 = true → ((s.readReg who (A.IRQ_VIEWk k.val)).word).toNat = s.view k.val)
    ∧ (∀ (t : State) (k : HostId), t.view k &&& (65535 - s.view k) ≠ 0 → t.bit (F.HP_TWk_CFG_NOTIFY_EN k) = true →
        t.domOn 2 = true → (s.noteView t k).hosts[k].notify = some (BitVec.ofNat 16 (t.view k)))

/-- R343: who writes an enable register, and that an enable changes no cause. -/
def Obligations.InterruptEnables : Prop :=
  ∀ (s : State) (k : HostId) (g : Fin 16) (v : Word), s.domOn 2 = true → s.limited = false →
    (∀ who : Writer, who = .host k ∨ (∃ c : Core, who = .core c) →
      (s.regWrite (A.IRQ_ENk_g k.val g.val) (RegWr.word who v)).code = 0
      ∧ (s.regWrite (A.IRQ_ENk_g k.val g.val) (RegWr.word who v)).state.fld (F.IRQ_ENk_g_EN k.val g.val) = v.toNat % 65536
      ∧ (∀ a : Nat, a ≠ A.IRQ_ENk_g k.val g.val →
          (s.regWrite (A.IRQ_ENk_g k.val g.val) (RegWr.word who v)).state.reg a = s.reg a)
      ∧ (∀ b : Nat, b < 16 → b ≠ 15 ∨ s.regBad.contains (A.IRQ_ENk_g k.val g.val) = false →
          (s.regWrite (A.IRQ_ENk_g k.val g.val) (RegWr.word who v)).state.causeWord b = s.causeWord b))
    ∧ (∀ h : HostId, h ≠ k → (s.regWrite (A.IRQ_ENk_g k.val g.val) (RegWr.word (.host h) v)).code = 3
      ∧ (s.regWrite (A.IRQ_ENk_g k.val g.val) (RegWr.word (.host h) v)).state = s)

/-- R342: a write of a cause register clears the edge causes written as 1: for a host, only those that its own enables
show; nothing else changes. -/
def Obligations.ClearingCauses : Prop :=
  ∀ (s : State) (g : Fin 16) (v : Word), s.domOn 2 = true → s.limited = false →
    (∀ k : Core, (s.regWrite (A.IRQ_CAUSEg g.val) (RegWr.word (.core k) v)).code = 0
      ∧ (s.regWrite (A.IRQ_CAUSEg g.val) (RegWr.word (.core k) v)).state.reg (A.IRQ_CAUSEg g.val)
          = s.reg (A.IRQ_CAUSEg g.val) &&& ~~~v)
    ∧ (∀ h : HostId, (s.regWrite (A.IRQ_CAUSEg g.val) (RegWr.word (.host h) v)).code = 0
      ∧ (s.regWrite (A.IRQ_CAUSEg g.val) (RegWr.word (.host h) v)).state.reg (A.IRQ_CAUSEg g.val)
          = s.reg (A.IRQ_CAUSEg g.val) &&& ~~~(v &&& s.reg (A.IRQ_ENk_g h.val g.val)))
    ∧ (∀ (who : Writer) (a : Nat), a ≠ A.IRQ_CAUSEg g.val →
        (s.regWrite (A.IRQ_CAUSEg g.val) (RegWr.word who v)).state.reg a = s.reg a)

/-- The checker, the clock monitors, the scrubber and the parity sweep; handovers, re-trims and the unlocking of the test
block as they run. -/
def Obligations.ContainmentAndLiveServiceCommandsComplete : Prop :=
  (∀ (l : Loop) (s : State), s.domOn 9 = true → s.digital l = true → s.bit F.IRQ_CONT_STATUS_CHECKER_OK = true →
    exec (.checkMismatch l) s = .next (s.settled (((s.raise 13 6).satInc F.IRQ_CONT_CNT_MISMATCHES).handover l)))
  ∧ (∀ (pass : Bool) (s : State), s.domOn 9 = true → exec (.checkerSelfTest pass) s = .next (s.settled (s.setBit
    F.IRQ_CONT_STATUS_CHECKER_OK pass)))
  ∧ (∀ (x : CrossSense) (s : State), s.loopSt x.loop = 3 → s.bit (F.LP_Ln_FB_FB_TRACK x.loop) = true →
    s.sensesDiffer x = true → exec (.senseXcheck x) s = .next (s.settled (((s.raise 13 8).satInc
    F.IRQ_CONT_CNT_MISMATCHES).fault x.loop 0x0E)))
  ∧ (∀ (s : State), s.power.d0Up = true → s.bit F.CLK_STATUS_FRC_RUN = true → exec .clkFrc s = .next (s.settled
    ((s.raise 13 9).forAll fun (l : Loop) t => t.loopSafe l)))
  ∧ (∀ (s : State), s.power.d0Up = true → s.power.slow ≠ .fastRc → exec .clkSlow s = .next (s.settled (((s.raise 13
    10).setBit F.CLK_STATUS_XTAL_RUN false).modPower fun p => { p with slow := .fastRc })))
  ∧ (∀ (word : Fin 0x80000) (s : State), s.bankOn (4 * word.val) = true → 4 * word.val ≤ s.scrubEnd → exec
    (.scrubRead word) s = .next (s.settled (s.scrub (4 * word.val))))
  ∧ (∀ (s : State), s.domOn 2 = true → exec .regParitySweep s = .next (s.settled ((s.regBad.filter s.sweeps).foldl
    (fun t a => t.parityFails a) s)))
  ∧ (∀ (k : Core) (s : State), s.live.handover = some k → s.hoState k = 1 → exec (.handoverTimeout k) s = .next
    (s.settled ((((s.setFld (F.LIVE_HOk_STATE k.val) 5).setFld (F.LIVE_HOk_RESULT k.val) 5).modLive fun v =>
    { v with handover := none }).raise 14 (8 + k.val))))
  ∧ (∀ (k : Core) (s : State), s.live.handover = some k → s.hoState k = 2 → exec (.handoverCopyDone k) s = .next
    (s.settled (s.copyDone k)))
  ∧ (∀ (k : Core) (s : State), s.live.handover = some k → s.hoState k = 3 → exec (.notAlive k) s = .next (s.settled
    (((s.handoverFails k 6).releaseCore k).satInc (F.CORE_Ck_STATUS_RESTARTS k.val))))
  ∧ (∀ (r : Retrim) (s : State), s.live.retrim = some r → r.step = .settling → s.retrimLost r = false → exec
    (.retrimTwinSettled true) s = .next (s.settled (s.setRetrim (some { r with step := .ready }))))
  ∧ (∀ (r : Retrim) (s : State), s.live.retrim = some r → r.step = .settling → s.retrimLost r = false → exec
    (.retrimTwinSettled false) s = .next (s.settled ((s.setFld F.LIVE_RETRIM_RESULT 2).setRetrim none)))
  ∧ (∀ (trims : BitVec 24) (r : Retrim) (s : State), s.live.retrim = some r → r.step = .twin → s.retrimLost r =
    false → exec (.retrimTrimsComputed trims true) s = .next (s.settled ((s.setReg (A.LIVE_WTRIMn r.loop.val)
    (trims.setWidth 32)).setRetrim (some { r with step := .done }))))
  ∧ (∀ (r : Retrim) (s : State), s.live.retrim = some r → r.step = .twin ∨ r.step = .done → s.retrimLost r = false →
    exec .retrimTimeout s = .next (s.settled (((s.setFld F.LIVE_RETRIM_RESULT 3).setReg (A.LIVE_WTRIMn r.loop.val)
    r.before).setRetrim (some { r with step := .old }))))
  ∧ (∀ (r : Retrim) (s : State), s.live.retrim = some r → r.step ≠ .old → s.retrimLost r = true → exec .retrimAbort
    s = .next (s.settled (s.retrimBack r 5)))
  ∧ (∀ s : State, s.tst.lockout = true → exec .tstKeyLockoutEnd s = .next (s.settled (s.modTst fun t =>
    { t with lockout := false })))
  ∧ (∀ s : State, s.tst.half = true → exec .tstUnlockTimeout s = .next (s.settled ((s.modTst fun _ =>
    { half := false, lockout := true }).raise 15 14)))

/-- R356, R357: a read of SRAM that meets bad parity: with a good mirror it returns and restores the mirror's word; with
no mirror, or both bad, it returns nothing; a word with good parity is returned with nothing changed. -/
def Obligations.SramMirrors : Prop :=
  (∀ (s : State) (a : Nat), s.sramBad.contains a = false → s.sramRead a false = ⟨true, 0, s⟩)
  ∧ (∀ (s : State) (a m : Nat) (glitch : Bool), s.sramBad.contains a = true ∨ glitch = true → s.mirrorOf a = some m →
      s.sramBad.contains m = false → a % 4 = 0 →
      (s.sramRead a glitch).ok = true ∧ (s.sramRead a glitch).state.sramWord a = s.sramWord m
      ∧ (s.sramRead a glitch).state.sramBad.contains a = false ∧ (s.sramRead a glitch).state.fld (causeFld 13 0) = 1
      ∧ (∀ b : Nat, b < a ∨ a + 4 ≤ b → (s.sramRead a glitch).state.sram.get sramDefault b = s.sram.get sramDefault b))
  ∧ (∀ (s : State) (a m : Nat), s.sramBad.contains a = true → s.mirrorOf a = some m → s.sramBad.contains m = true →
      (s.sramRead a false).ok = false ∧ (s.sramRead a false).state.fld (causeFld 13 2) = 1
      ∧ (s.sramRead a false).state.sram = s.sram)
  ∧ (∀ (s : State) (a : Nat), s.sramBad.contains a = true → s.mirrorOf a = none →
      (s.sramRead a false).ok = false ∧ (s.sramRead a false).state.fld (causeFld 13 1) = 1
      ∧ (s.sramRead a false).state.sram = s.sram)

/-- Conversions, the reference and thermal demands; the keeper's operations as they run, and the recorder's periodic
work. -/
def Obligations.TelemetryAndKeeperCommandsComplete : Prop :=
  (∀ (mean : Rat) (wild stopped : Bool) (r : TcvRun) (s : State), s.tcv.run = some r → r.begun = true → s.domOn 11 =
    true → exec (.conversionDone mean wild stopped) s = .next (s.settled (s.conversion r mean wild stopped)))
  ∧ (∀ (s : State), s.domOn 11 = true → s.bit F.TCV_STATUS_REF_OK = false → exec .refSettled s = .next (s.settled
    (s.settleRef)))
  ∧ (∀ s : State, s.domOn 2 = true → s.fld F.THM_CTRL_PERIOD ≠ 0 → s.bit F.THM_STATUS_SHUT_HOLD = false → s.seedling
    = false → s.bit F.THM_STATUS_BUSY = false → s.fullOp = true → exec .thmDemandTimer s = .next (s.settled
    (s.setBit F.THM_STATUS_BUSY true)))
  ∧ (∀ s : State, s.bit F.THM_STATUS_SHUT_HOLD = true → s.bit F.THM_STATUS_BUSY = false → s.fullOp = true → exec
    .shutHoldMeasure s = .next (s.settled (s.setBit F.THM_STATUS_BUSY true)))
  ∧ (∀ (counts : Vector (BitVec 16) 9) (s : State), s.bit F.THM_STATUS_BUSY = true → s.domOn 11 = true → exec
    (.thDone counts) s = .next (s.settled (s.thermal counts)))
  ∧ (∀ (same : Bool) (op : KprOp) (a : Nat) (w : Word) (rest : List (Nat × Word)) (s : State), s.kpr.running = some
    ⟨op, (a, w) :: rest⟩ → s.domOn 1 = true → exec (.keeperGroupDone same) s = .next (s.settled (s.groupDone op a w
    rest same)))
  ∧ (∀ (op : KprOp) (s : State), s.kpr.running = some ⟨op, []⟩ → s.domOn 1 = true → exec .keeperOperationDone s =
    .next (s.settled (s.operationDone op)))
  ∧ (∀ (s : State), s.kprPowered = true → s.power.dormant = false → exec .opminPersist s = .next (s.settled
    (s.kprSpread .opmin (s.power.opmin - s.spreadValue .opmin))))
  ∧ (∀ (s : State), s.domOn 2 = true → s.boot.kprRead = true → exec .recorderPersist s = .next (s.settled
    (s.persist)))
  ∧ (∀ (power : Vector Nat 4) (vin vsys : Nat) (s : State), s.domOn 2 = true → s.boot.kprRead = true → exec
    (.statisticsSample power vin vsys) s = .next (s.settled (s.sample power vin vsys)))

/-- R362: the raw code of a conversion is its mean in 2^24 steps, rounded and held within 24 bits: never outside them,
exact on each code, and rising with the mean. -/
def Obligations.AConversionsCode : Prop :=
  (∀ mean : Rat, rawCode mean ≤ 0xFFFFFF)
  ∧ (∀ n : Nat, n ≤ 0xFFFFFF → rawCode ((n : Rat) / 2 ^ 24) = n)
  ∧ (∀ a b : Rat, a ≤ b → rawCode a ≤ rawCode b)
  ∧ (∀ mean : Rat, mean ≤ 0 → rawCode mean = 0) ∧ (∀ mean : Rat, 1 ≤ mean → rawCode mean = 0xFFFFFF)

/-- R399 with Table 13.6a: which copy of a record is used, which is written next and with which SEQ, and what "newer"
means. -/
def Obligations.RecordCopies : Prop :=
  (∀ x y : Nat, x < 2 ^ 32 → y < 2 ^ 32 →
      (newer x y = true ↔ ∃ d : Nat, 1 ≤ d ∧ d ≤ 2 ^ 31 - 1 ∧ (y + d) % 2 ^ 32 = x))
  ∧ (∀ (s : State) (k : RecordKind) (x y : Nat), x = (s.kprWord (k.base + 4)).toNat → y = (s.kprWord (k.copyB + 4)).toNat →
      (s.copyValid k k.base = true → s.copyValid k k.copyB = true → x = y →
        s.chooseCopy k = ⟨some k.base, k.copyB, (x + 1) % 2 ^ 32, s.kprWords k.base k.len != s.kprWords k.copyB k.len⟩)
      ∧ (s.copyValid k k.base = true → s.copyValid k k.copyB = true → newer x y = true →
        s.chooseCopy k = ⟨some k.base, k.copyB, (x + 1) % 2 ^ 32, false⟩)
      ∧ (s.copyValid k k.base = true → s.copyValid k k.copyB = true → newer y x = true →
        s.chooseCopy k = ⟨some k.copyB, k.base, (y + 1) % 2 ^ 32, false⟩)
      ∧ (s.copyValid k k.base = true → s.copyValid k k.copyB = true → (x + 2 ^ 31) % 2 ^ 32 = y →
        s.chooseCopy k = ⟨some k.base, k.copyB, (x + 1) % 2 ^ 32, false⟩)
      ∧ (s.copyValid k k.base = true → s.copyValid k k.copyB = false →
        s.chooseCopy k = ⟨some k.base, k.copyB, (x + 1) % 2 ^ 32, false⟩)
      ∧ (s.copyValid k k.base = false → s.copyValid k k.copyB = true →
        s.chooseCopy k = ⟨some k.copyB, k.base, (y + 1) % 2 ^ 32, false⟩)
      ∧ (s.copyValid k k.base = false → s.copyValid k k.copyB = false → s.chooseCopy k = ⟨none, k.base, 1, false⟩))
  ∧ (∀ (s : State) (k : RecordKind), (s.chooseCopy k).tie = true → (s.readRecord k).fld (causeFld 12 2) = 1)

/-- R400: a record write covers the whole of one copy, in ascending order with the CRC last, and never a group of the
copy in use. -/
def Obligations.ARecordWriteSparesTheCopyInUse : Prop :=
  ∀ (s : State) (k : RecordKind) (payload : List Word), payload.length + 3 = k.len →
    ((s.recordGroups k payload).map Prod.fst = (List.range k.len).map fun j => (s.chooseCopy k).next + 4 * j)
    ∧ (s.recordGroups k payload).getLast?.map Prod.snd
        = some (wordsCrc (((s.recordGroups k payload).map Prod.snd).take (k.len - 1)))
    ∧ ((s.chooseCopy k).next = k.base ∨ (s.chooseCopy k).next = k.copyB)
    ∧ (∀ u : Nat, (s.chooseCopy k).used = some u → ∀ g ∈ s.recordGroups k payload, g.1 < u ∨ u + 4 * k.len ≤ g.1)
    ∧ (∀ u : Nat, (s.chooseCopy k).used = some u → ∀ (n b : Nat), u ≤ b → b < u + 4 * k.len →
        (writeGroups s.kpr.cells ((s.recordGroups k payload).take n)).get kprDefault b = s.kpr.cells.get kprDefault b)

/-- R387: every offset lies in exactly one partition, and a WRITE that crosses a boundary or reaches beyond the array is
refused with RANGE. -/
def Obligations.KeeperPartitions : Prop :=
  (∀ a : Nat, a < 0x40000 → partition a < 5 ∧ ∀ q : Nat, q < 5 → (partBase q ≤ a ∧ a < partEnd q ↔ q = partition a))
  ∧ (∀ (s : State) (who : Writer) (key : Nat), s.cmdPend = false → partition s.writeAddr ≠ 1 ∨ key = 0xC5 →
      0x3FFFF < s.writeAddr + 4 * s.writeLen - 1 ∨ partition (s.writeAddr + 4 * s.writeLen - 1) ≠ partition s.writeAddr →
      s.kprCheck who 1 key = 4 ∧ s.kprGo who 1 key = (s.setFld F.KPR_CMD_RESULT 4).raise 12 14)
  ∧ (∀ (s : State) (who : Writer) (key : Nat), s.kprCheck who 1 key = 0 →
      ∀ b : Nat, s.writeAddr ≤ b → b < s.writeAddr + 4 * s.writeLen → partition b = partition s.writeAddr ∧ b < 0x40000)

/-- R422-R424: every Pletra instruction, with every operand at every value its word admits, is decoded from its own word. -/
def Obligations.PletraDecodesWhatItEncodes : Prop :=
  ∀ i : Pletra.Ins, Pletra.decode (Pletra.encode i) = some i

/-- R422, R424: a word that decodes is exactly the word of its instruction: a word with anything in a field that the
instruction does not use is no instruction, and raises ILLEGAL. -/
def Obligations.PletraWordsHaveOneMeaning : Prop :=
  (∀ (w : Word) (i : Pletra.Ins), Pletra.decode w = some i → Pletra.encode i = w)
  ∧ (∀ (k : Core) (w : Word) (s u : State), Pletra.decode w = none → s.Fetched k u → u.psrBit k psrExl = false →
      exec (.illegalInstruction k w) s = .next (s.settled
        (((u.appletFault k .illegal).modCore k fun c => c.enter .illegal (u.core k).pc w).spend k 3)))

/-- R419, R420, Table 14.7: the instructions that compute a register: the result is in rd (in nothing, where rd is w0),
PC is at the next word, one cycle has passed, and no other register, flag or memory changes. -/
def Obligations.ArithmeticAndLogicExecute : Prop :=
  (∀ (k : Core) (rd ra rb : Fin 16) (s u : State), s.Fetched k u → exec (.add k rd ra rb) s = .next (s.settled
    ((u.setW k rd (u.wreg k ra + u.wreg k rb)).retire k (u.nextPc k) 1)))
  ∧ (∀ (k : Core) (rd ra rb : Fin 16) (s u : State), s.Fetched k u → exec (.sub k rd ra rb) s = .next (s.settled
    ((u.setW k rd (u.wreg k ra - u.wreg k rb)).retire k (u.nextPc k) 1)))
  ∧ (∀ (k : Core) (rd ra rb : Fin 16) (s u : State), s.Fetched k u → exec (.and_ k rd ra rb) s = .next (s.settled
    ((u.setW k rd (u.wreg k ra &&& u.wreg k rb)).retire k (u.nextPc k) 1)))
  ∧ (∀ (k : Core) (rd ra rb : Fin 16) (s u : State), s.Fetched k u → exec (.or_ k rd ra rb) s = .next (s.settled
    ((u.setW k rd (u.wreg k ra ||| u.wreg k rb)).retire k (u.nextPc k) 1)))
  ∧ (∀ (k : Core) (rd ra rb : Fin 16) (s u : State), s.Fetched k u → exec (.xor k rd ra rb) s = .next (s.settled
    ((u.setW k rd (u.wreg k ra ^^^ u.wreg k rb)).retire k (u.nextPc k) 1)))
  ∧ (∀ (k : Core) (rd ra rb : Fin 16) (s u : State), s.Fetched k u → exec (.shl k rd ra rb) s = .next (s.settled
    ((u.setW k rd (u.wreg k ra <<< ((u.wreg k rb).toNat % 32))).retire k (u.nextPc k) 1)))
  ∧ (∀ (k : Core) (rd ra rb : Fin 16) (s u : State), s.Fetched k u → exec (.shr k rd ra rb) s = .next (s.settled
    ((u.setW k rd (u.wreg k ra >>> ((u.wreg k rb).toNat % 32))).retire k (u.nextPc k) 1)))
  ∧ (∀ (k : Core) (rd ra rb : Fin 16) (s u : State), s.Fetched k u → exec (.sar k rd ra rb) s = .next (s.settled
    ((u.setW k rd ((u.wreg k ra).sshiftRight ((u.wreg k rb).toNat % 32))).retire k (u.nextPc k) 1)))
  ∧ (∀ (k : Core) (rd ra rb : Fin 16) (s u : State), s.Fetched k u → exec (.ror k rd ra rb) s = .next (s.settled
    ((u.setW k rd ((u.wreg k ra).rotateRight ((u.wreg k rb).toNat % 32))).retire k (u.nextPc k) 1)))
  ∧ (∀ (k : Core) (rd ra : Fin 16) (imm : BitVec 18) (s u : State), s.Fetched k u → exec (.addi k rd ra imm) s =
    .next (s.settled ((u.setW k rd (u.wreg k ra + imm.signExtend 32)).retire k (u.nextPc k) 1)))
  ∧ (∀ (k : Core) (rd ra : Fin 16) (imm : BitVec 18) (s u : State), s.Fetched k u → exec (.andi k rd ra imm) s =
    .next (s.settled ((u.setW k rd (u.wreg k ra &&& imm.setWidth 32)).retire k (u.nextPc k) 1)))
  ∧ (∀ (k : Core) (rd ra : Fin 16) (imm : BitVec 18) (s u : State), s.Fetched k u → exec (.ori k rd ra imm) s =
    .next (s.settled ((u.setW k rd (u.wreg k ra ||| imm.setWidth 32)).retire k (u.nextPc k) 1)))
  ∧ (∀ (k : Core) (rd ra : Fin 16) (imm : BitVec 18) (s u : State), s.Fetched k u → exec (.xori k rd ra imm) s =
    .next (s.settled ((u.setW k rd (u.wreg k ra ^^^ imm.setWidth 32)).retire k (u.nextPc k) 1)))
  ∧ (∀ (k : Core) (rd ra : Fin 16) (n : Fin 32) (s u : State), s.Fetched k u → exec (.shli k rd ra n) s = .next
    (s.settled ((u.setW k rd (u.wreg k ra <<< n.val)).retire k (u.nextPc k) 1)))
  ∧ (∀ (k : Core) (rd ra : Fin 16) (n : Fin 32) (s u : State), s.Fetched k u → exec (.shri k rd ra n) s = .next
    (s.settled ((u.setW k rd (u.wreg k ra >>> n.val)).retire k (u.nextPc k) 1)))
  ∧ (∀ (k : Core) (rd ra : Fin 16) (n : Fin 32) (s u : State), s.Fetched k u → exec (.sari k rd ra n) s = .next
    (s.settled ((u.setW k rd ((u.wreg k ra).sshiftRight n.val)).retire k (u.nextPc k) 1)))
  ∧ (∀ (k : Core) (rd ra : Fin 16) (n : Fin 32) (s u : State), s.Fetched k u → exec (.rori k rd ra n) s = .next
    (s.settled ((u.setW k rd ((u.wreg k ra).rotateRight n.val)).retire k (u.nextPc k) 1)))
  ∧ (∀ (k : Core) (rd : Fin 16) (imm : BitVec 22) (s u : State), s.Fetched k u → exec (.lui k rd imm) s = .next
    (s.settled ((u.setW k rd (imm.setWidth 32 <<< 10)).retire k (u.nextPc k) 1)))
  ∧ (∀ (k : Core) (rd ra : Fin 16) (s u : State), s.Fetched k u → exec (.clz k rd ra) s = .next (s.settled ((u.setW
    k rd (BitVec.ofNat 32 (leadingZeros (u.wreg k ra)))).retire k (u.nextPc k) 1)))
  ∧ (∀ (k : Core) (rd ra : Fin 16) (s u : State), s.Fetched k u → exec (.popc k rd ra) s = .next (s.settled ((u.setW
    k rd (BitVec.ofNat 32 (popCount (u.wreg k ra)))).retire k (u.nextPc k) 1)))
  ∧ (∀ (k : Core) (rd ra : Fin 16) (pos lm1 : Fin 32) (s u : State), s.Fetched k u → exec (.bfx k rd ra pos lm1) s =
    .next (s.settled ((u.setW k rd (fieldOf (u.wreg k ra) pos lm1)).retire k (u.nextPc k) 1)))
  ∧ (∀ (k : Core) (rd ra : Fin 16) (pos lm1 : Fin 32) (s u : State), s.Fetched k u → exec (.bfxs k rd ra pos lm1) s
    = .next (s.settled ((u.setW k rd (sfieldOf (u.wreg k ra) pos lm1)).retire k (u.nextPc k) 1)))
  ∧ (∀ (k : Core) (rd ra : Fin 16) (pos lm1 : Fin 32) (s u : State), s.Fetched k u → exec (.bfi k rd ra pos lm1) s =
    .next (s.settled ((u.setW k rd (fieldInto (u.wreg k rd) (u.wreg k ra) pos lm1)).retire k (u.nextPc k) 1)))
  ∧ (∀ (k : Core) (rd ra : Fin 16) (sel : Byte) (s u : State), s.Fetched k u → exec (.perm k rd ra sel) s = .next
    (s.settled ((u.setW k rd (permuted (u.wreg k ra) sel)).retire k (u.nextPc k) 1)))
  ∧ (∀ (k : Core) (rd ra rb : Fin 16) (cond : Fin 15) (s u : State), s.Fetched k u → exec (.sel k rd ra rb cond) s =
    .next (s.settled ((u.setW k rd (if condHolds (u.core k).psr cond then u.wreg k ra else u.wreg k rb)).retire k
    (u.nextPc k) 1)))
  ∧ (∀ (k : Core) (ra rb : Fin 16) (s u : State), s.Fetched k u → exec (.cmp k ra rb) s = .next (s.settled
    ((u.setPsr k fun p => cmpFlags p (u.wreg k ra) (u.wreg k rb)).retire k (u.nextPc k) 1)))
  ∧ (∀ (k : Core) (ra rb : Fin 16) (s u : State), s.Fetched k u → exec (.tst k ra rb) s = .next (s.settled
    ((u.setPsr k fun p => tstFlags p (u.wreg k ra) (u.wreg k rb)).retire k (u.nextPc k) 1)))
  ∧ (∀ (k : Core) (ra : Fin 16) (imm : BitVec 18) (s u : State), s.Fetched k u → exec (.cmpi k ra imm) s = .next
    (s.settled ((u.setPsr k fun p => cmpFlags p (u.wreg k ra) (imm.signExtend 32)).retire k (u.nextPc k) 1)))

/-- R419: w0 reads 0 and discards what is written to it; any other register reads what was written last, and the rest of
the registers, of the cores and of the state stay. -/
def Obligations.ZeroRegisterAndRegisterFile : Prop :=
  ∀ (s : State) (k : Core) (x : Word),
    s.wreg k 0 = 0 ∧ s.setW k 0 x = s
    ∧ (∀ r : Fin 16, r ≠ 0 → (s.setW k r x).wreg k r = x)
    ∧ (∀ r q : Fin 16, q ≠ r → (s.setW k r x).wreg k q = s.wreg k q)
    ∧ (∀ (r q : Fin 16) (j : Core), j ≠ k → (s.setW k r x).core j = s.core j)
    ∧ (∀ r : Fin 16, (s.setW k r x).regs = s.regs ∧ (s.setW k r x).sram = s.sram
        ∧ ((s.setW k r x).core k).psr = (s.core k).psr ∧ ((s.setW k r x).core k).bits = (s.core k).bits)
    ∧ (∀ (j : Core) (pc : Word) (n : Nat), j ≠ k → (s.retire k pc n).core j = s.core j)
    ∧ (∀ (pc : Word) (n : Nat), ((s.retire k pc n).core k).pc = pc ∧ ((s.retire k pc n).core k).w = (s.core k).w
        ∧ ((s.retire k pc n).core k).cycle = (s.core k).cycle + BitVec.ofNat 32 n
        ∧ ((s.retire k pc n).core k).psr = (s.core k).psr ∧ (s.retire k pc n).sram = s.sram)

/-- Table 14.7: BFX, BFXS, BFI, PERM, CLZ and POPC, bit by bit. -/
def Obligations.BitFieldInstructionsByBits : Prop :=
  (∀ (w : Word) (pos lm1 : Fin 32) (i : Nat), i < 32 →
      (fieldOf w pos lm1).getLsbD i = (decide (i ≤ lm1.val) && w.getLsbD (pos.val + i)))
  ∧ (∀ (w : Word) (pos lm1 : Fin 32) (i : Nat), i < 32 →
      (sfieldOf w pos lm1).getLsbD i = if i ≤ lm1.val then w.getLsbD (pos.val + i) else w.getLsbD (pos.val + lm1.val))
  ∧ (∀ (d a : Word) (pos lm1 : Fin 32) (i : Nat), i < 32 →
      (fieldInto d a pos lm1).getLsbD i =
        if pos.val ≤ i ∧ i ≤ pos.val + lm1.val then a.getLsbD (i - pos.val) else d.getLsbD i)
  ∧ (∀ (w : Word) (sel : Byte) (j : Nat), j < 4 →
      (permuted w sel).extractLsb' (8 * j) 8 = w.extractLsb' (8 * (sel.toNat / 4 ^ j % 4)) 8)
  ∧ (∀ w : Word, w ≠ 0 → leadingZeros w < 32 ∧ w.getLsbD (31 - leadingZeros w) = true
      ∧ ∀ j : Nat, j < leadingZeros w → w.getLsbD (31 - j) = false)
  ∧ leadingZeros 0 = 32
  ∧ popCount 0 = 0 ∧ (∀ (w : Word) (i : Nat), i < 32 → w.getLsbD i = false → popCount (w ||| 1#32 <<< i) = popCount w + 1)

/-- Table 14.6 with R420: after CMP of a and b each condition holds exactly where its comparison does, and CMP and TST
keep the rest of PSR. -/
def Obligations.ConditionsAfterACompare : Prop :=
  ∀ (p a b : Word),
    (condHolds (cmpFlags p a b) 1 = true ↔ a = b) ∧ (condHolds (cmpFlags p a b) 2 = true ↔ a ≠ b)
    ∧ (condHolds (cmpFlags p a b) 3 = true ↔ a.toInt < b.toInt) ∧ (condHolds (cmpFlags p a b) 4 = true ↔ b.toInt ≤ a.toInt)
    ∧ (condHolds (cmpFlags p a b) 5 = true ↔ a.toNat < b.toNat) ∧ (condHolds (cmpFlags p a b) 6 = true ↔ b.toNat ≤ a.toNat)
    ∧ (condHolds (cmpFlags p a b) 11 = true ↔ b.toInt < a.toInt) ∧ (condHolds (cmpFlags p a b) 12 = true ↔ a.toInt ≤ b.toInt)
    ∧ (condHolds (cmpFlags p a b) 13 = true ↔ b.toNat < a.toNat) ∧ (condHolds (cmpFlags p a b) 14 = true ↔ a.toNat ≤ b.toNat)
    ∧ (condHolds (cmpFlags p a b) 9 = true ↔ (a - b).toInt ≠ a.toInt - b.toInt)
    ∧ (condHolds (tstFlags p a b) 1 = true ↔ a &&& b = 0) ∧ condHolds p 0 = true
    ∧ (∀ i : Nat, 4 ≤ i → (cmpFlags p a b).getLsbD i = p.getLsbD i ∧ (tstFlags p a b).getLsbD i = p.getLsbD i)

/-- R415-R417: loads and stores at ra + simm18: an access that is done gives its word, extended as the instruction says,
and its cycles; one that is trapped takes the exception with the address in EVAL; a misaligned one in SRAM takes
MISALIGN. -/
def Obligations.LoadsAndStoresExecute : Prop :=
  (∀ (k : Core) (rd ra : Fin 16) (imm : BitVec 18) (glitch : Bool) (v : Word) (n : Nat) (s u t : State), s.Fetched k
    u → u.loadAt k (u.effAddr k ra imm).toNat 4 glitch = .done v n t → t.coreSt k = 1 → exec (.ldw k rd ra imm
    glitch) s = .next (s.settled ((t.setW k rd (v)).retire k (u.nextPc k) n)))
  ∧ (∀ (k : Core) (rd ra : Fin 16) (imm : BitVec 18) (glitch : Bool) (v : Word) (n : Nat) (s u t : State), s.Fetched
    k u → u.loadAt k (u.effAddr k ra imm).toNat 2 glitch = .done v n t → t.coreSt k = 1 → exec (.ldh k rd ra imm
    glitch) s = .next (s.settled ((t.setW k rd (v)).retire k (u.nextPc k) n)))
  ∧ (∀ (k : Core) (rd ra : Fin 16) (imm : BitVec 18) (glitch : Bool) (v : Word) (n : Nat) (s u t : State), s.Fetched
    k u → u.loadAt k (u.effAddr k ra imm).toNat 2 glitch = .done v n t → t.coreSt k = 1 → exec (.ldhs k rd ra imm
    glitch) s = .next (s.settled ((t.setW k rd ((v.setWidth 16).signExtend 32)).retire k (u.nextPc k) n)))
  ∧ (∀ (k : Core) (rd ra : Fin 16) (imm : BitVec 18) (glitch : Bool) (v : Word) (n : Nat) (s u t : State), s.Fetched
    k u → u.loadAt k (u.effAddr k ra imm).toNat 1 glitch = .done v n t → t.coreSt k = 1 → exec (.ldb k rd ra imm
    glitch) s = .next (s.settled ((t.setW k rd (v)).retire k (u.nextPc k) n)))
  ∧ (∀ (k : Core) (rd ra : Fin 16) (imm : BitVec 18) (glitch : Bool) (v : Word) (n : Nat) (s u t : State), s.Fetched
    k u → u.loadAt k (u.effAddr k ra imm).toNat 1 glitch = .done v n t → t.coreSt k = 1 → exec (.ldbs k rd ra imm
    glitch) s = .next (s.settled ((t.setW k rd ((v.setWidth 8).signExtend 32)).retire k (u.nextPc k) n)))
  ∧ (∀ (k : Core) (rd ra : Fin 16) (imm : BitVec 18) (v : Word) (n : Nat) (s u t : State), s.Fetched k u → u.storeAt
    k (u.effAddr k ra imm).toNat 4 (u.wreg k rd) = .done v n t → t.coreSt k = 1 → exec (.stw k rd ra imm) s = .next
    (s.settled (t.retire k (u.nextPc k) n)))
  ∧ (∀ (k : Core) (rd ra : Fin 16) (imm : BitVec 18) (v : Word) (n : Nat) (s u t : State), s.Fetched k u → u.storeAt
    k (u.effAddr k ra imm).toNat 2 (u.wreg k rd) = .done v n t → t.coreSt k = 1 → exec (.sth k rd ra imm) s = .next
    (s.settled (t.retire k (u.nextPc k) n)))
  ∧ (∀ (k : Core) (rd ra : Fin 16) (imm : BitVec 18) (v : Word) (n : Nat) (s u t : State), s.Fetched k u → u.storeAt
    k (u.effAddr k ra imm).toNat 1 (u.wreg k rd) = .done v n t → t.coreSt k = 1 → exec (.stb k rd ra imm) s = .next
    (s.settled (t.retire k (u.nextPc k) n)))
  ∧ (∀ (k : Core) (rd ra : Fin 16) (imm : BitVec 18) (glitch : Bool) (e : Exc) (s u t : State), s.Fetched k u →
    u.loadAt k (u.effAddr k ra imm).toNat 4 glitch = .trap e t → exec (.ldw k rd ra imm glitch) s = .next (s.settled
    (t.exception k e (u.core k).pc (u.effAddr k ra imm))))
  ∧ (∀ (s : State) (k : Core) (off n : Nat) (glitch : Bool) (v : Word), s.inApp k = false → off < 0x200000 → n = 2 ∨
    n = 4 → off % n ≠ 0 → s.loadAt k (0x20000000 + off) n glitch = .trap .misalign s ∧ s.storeAt k (0x20000000 +
    off) n v = .trap .misalign s)

/-- R61, R415: a word stored in SRAM is what any core loads there next, its parity good; no other byte of SRAM changes,
outside the mirror of an image-backed word. -/
def Obligations.SramReadsWhatWasStored : Prop :=
  ∀ (s : State) (k j : Core) (off : Nat) (v : Word), s.sram.wf sramDefault = true → off < 0x200000 → off % 4 = 0 →
    s.sramOn off = true → s.inApp k = false → s.inApp j = false → s.mirrorOf off = none →
    ∃ t : State, s.storeAt k (0x20000000 + off) 4 v = .done 0 1 t ∧ t.loadAt j (0x20000000 + off) 4 false = .done v 2 t
      ∧ t.sramBad.contains off = false ∧ t.sram.wf sramDefault = true
      ∧ (∀ b : Nat, b < off ∨ off + 4 ≤ b → t.sram.get sramDefault b = s.sram.get sramDefault b)
      ∧ t.regs = s.regs ∧ t.cores = s.cores

/-- R421, Table 14.7: the instructions on a bit of the core's own bit space, outside applet mode. -/
def Obligations.BitInstructionsExecute : Prop :=
  (∀ (k : Core) (bit : BitVec 13) (s u : State), s.Fetched k u → u.inApp k = false → exec (.bset k bit) s = .next
    (s.settled ((u.setSpaceBit k bit.toNat true).retire k (u.nextPc k) 1)))
  ∧ (∀ (k : Core) (bit : BitVec 13) (s u : State), s.Fetched k u → u.inApp k = false → exec (.bclr k bit) s = .next
    (s.settled ((u.setSpaceBit k bit.toNat false).retire k (u.nextPc k) 1)))
  ∧ (∀ (k : Core) (bit : BitVec 13) (s u : State), s.Fetched k u → u.inApp k = false → exec (.btgl k bit) s = .next
    (s.settled ((u.setSpaceBit k bit.toNat (!u.spaceBit k bit.toNat)).retire k (u.nextPc k) 1)))
  ∧ (∀ (k : Core) (bit : BitVec 13) (s u : State), s.Fetched k u → u.inApp k = false → exec (.btst k bit) s = .next
    (s.settled ((u.setPsr k fun p => setBitW p psrZ (!u.spaceBit k bit.toNat)).retire k (u.nextPc k) 1)))
  ∧ (∀ (k : Core) (bit off : BitVec 13) (s u : State), s.Fetched k u → u.inApp k = false → exec (.bbs k bit off) s =
    .next (s.settled (if u.spaceBit k bit.toNat then u.retire k ((u.core k).pc + BitVec.ofInt 32 (4 * off.toInt)) 2
    else u.retire k (u.nextPc k) 1)))
  ∧ (∀ (k : Core) (bit off : BitVec 13) (s u : State), s.Fetched k u → u.inApp k = false → exec (.bbc k bit off) s =
    .next (s.settled (if u.spaceBit k bit.toNat then u.retire k (u.nextPc k) 1 else u.retire k ((u.core k).pc +
    BitVec.ofInt 32 (4 * off.toInt)) 2)))
  ∧ (∀ (k : Core) (ra : Fin 16) (s u : State), s.Fetched k u → u.inApp k = false → exec (.boprSet k ra) s = .next
    (s.settled ((u.setSpaceBit k ((u.wreg k ra).toNat % 8192) true).retire k (u.nextPc k) 1)))
  ∧ (∀ (k : Core) (ra : Fin 16) (s u : State), s.Fetched k u → u.inApp k = false → exec (.boprClear k ra) s = .next
    (s.settled ((u.setSpaceBit k ((u.wreg k ra).toNat % 8192) false).retire k (u.nextPc k) 1)))
  ∧ (∀ (k : Core) (ra : Fin 16) (s u : State), s.Fetched k u → u.inApp k = false → exec (.boprToggle k ra) s = .next
    (s.settled ((u.setSpaceBit k ((u.wreg k ra).toNat % 8192) (!u.spaceBit k ((u.wreg k ra).toNat % 8192))).retire k
    (u.nextPc k) 1)))
  ∧ (∀ (k : Core) (ra : Fin 16) (s u : State), s.Fetched k u → u.inApp k = false → exec (.boprTest k ra) s = .next
    (s.settled ((u.setPsr k fun p => setBitW p psrZ (!u.spaceBit k ((u.wreg k ra).toNat % 8192))).retire k (u.nextPc
    k) 1)))
  ∧ (∀ (k : Core) (rd ra : Fin 16) (s u : State), s.Fetched k u → u.inApp k = false → exec (.boprRead k rd ra) s =
    .next (s.settled ((u.setW k rd (BitVec.ofNat 32 (u.spaceBit k ((u.wreg k ra).toNat % 8192)).toNat)).retire k
    (u.nextPc k) 1)))

/-- R421: each core's bit space: bit n is bit n mod 32 of the word at 0x1000_0000 + 4 x floor(n / 32); a bit that is set
reads so, every other bit and every other core's space stays. -/
def Obligations.BitSpaceAndItsWords : Prop :=
  (∀ (s : State) (k : Core) (n : Nat), n < 8192 → s.inApp k = false → ∃ v : Word,
      s.loadAt k (0x10000000 + 4 * (n / 32)) 4 false = .done v 1 s ∧ v.getLsbD (n % 32) = s.spaceBit k n)
  ∧ (∀ (s : State) (k : Core) (n m : Nat) (b : Bool), (s.core k).bits.wf bitsDefault = true →
      (s.setSpaceBit k n b).spaceBit k m = if m = n then b else s.spaceBit k m)
  ∧ (∀ (s : State) (k j : Core) (n m : Nat) (b : Bool), j ≠ k → (s.setSpaceBit k n b).spaceBit j m = s.spaceBit j m)

/-- R422, R423, R425: branches, calls and jumps; the multiplier instructions as they issue, and the cycles in which the
oldest result lands. -/
def Obligations.BranchesAndMultipliesExecute : Prop :=
  (∀ (k : Core) (cond : Fin 15) (off : BitVec 22) (s u : State), s.Fetched k u → exec (.bcond k cond off) s = .next
    (s.settled (if condHolds (u.core k).psr cond then u.retire k ((u.core k).pc + BitVec.ofInt 32 (4 * off.toInt)) 2
    else u.retire k (u.nextPc k) 1)))
  ∧ (∀ (k : Core) (off : BitVec 26) (s u : State), s.Fetched k u → exec (.call k off) s = .next (s.settled ((u.setW
    k 15 (u.nextPc k)).retire k ((u.core k).pc + BitVec.ofInt 32 (4 * off.toInt)) 2)))
  ∧ (∀ (k : Core) (ra : Fin 16) (s u : State), s.Fetched k u → exec (.jr k ra) s = .next (s.settled (u.retire k
    (u.wreg k ra) 2)))
  ∧ (∀ (k : Core) (rd ra : Fin 16) (s u : State), s.Fetched k u → exec (.jlr k rd ra) s = .next (s.settled ((u.setW
    k rd (u.nextPc k)).retire k (u.wreg k ra) 2)))
  ∧ (∀ (k : Core) (ra rb : Fin 16) (s u : State), s.Fetched k u → exec (.mulu k ra rb) s = .next (s.settled
    ((u.modCore k fun c => { c with mul := c.mul ++ [⟨.mulu, u.wreg k ra, u.wreg k rb, 4⟩] }).retire k (u.nextPc k)
    1)))
  ∧ (∀ (k : Core) (ra rb : Fin 16) (s u : State), s.Fetched k u → exec (.muls k ra rb) s = .next (s.settled
    ((u.modCore k fun c => { c with mul := c.mul ++ [⟨.muls, u.wreg k ra, u.wreg k rb, 4⟩] }).retire k (u.nextPc k)
    1)))
  ∧ (∀ (k : Core) (ra rb : Fin 16) (s u : State), s.Fetched k u → exec (.macs k ra rb) s = .next (s.settled
    ((u.modCore k fun c => { c with mul := c.mul ++ [⟨.macs, u.wreg k ra, u.wreg k rb, 4⟩] }).retire k (u.nextPc k)
    1)))
  ∧ (∀ (k : Core) (ra rb : Fin 16) (s u : State), s.Fetched k u → exec (.mulq k ra rb) s = .next (s.settled
    ((u.modCore k fun c => { c with mul := c.mul ++ [⟨.mulq, u.wreg k ra, u.wreg k rb, 4⟩] }).retire k (u.nextPc k)
    1)))
  ∧ (∀ (k : Core) (ra rb : Fin 16) (s u : State), s.Fetched k u → exec (.macq k ra rb) s = .next (s.settled
    ((u.modCore k fun c => { c with mul := c.mul ++ [⟨.macq, u.wreg k ra, u.wreg k rb, 4⟩] }).retire k (u.nextPc k)
    1)))
  ∧ (∀ (k : Core) (m : MulOp) (rest : List MulOp) (s : State), s.coreSt k = 1 → (s.core k).mul = m :: rest → exec
    (.multiplierResult k) s = .next (s.settled (s.spend k m.left)))

/-- R425: a multiply that is issued alone lands at the end of the fourth cycle and no earlier: the exact product, or the
sum with MHI:MLO before, or the product divided by 2^18 and rounded. -/
def Obligations.MultiplierResultsLandAfterFourCycles : Prop :=
  ∀ (c : CoreState) (kind : MulKind) (a b : Word), c.mul = [] →
    (∀ n : Nat, n < 4 →
      (({ c with mul := [⟨kind, a, b, 4⟩] } : CoreState).pass n).mhi = c.mhi
      ∧ (({ c with mul := [⟨kind, a, b, 4⟩] } : CoreState).pass n).mlo = c.mlo
      ∧ (({ c with mul := [⟨kind, a, b, 4⟩] } : CoreState).pass n).mul = [⟨kind, a, b, 4 - n⟩])
    ∧ (({ c with mul := [⟨kind, a, b, 4⟩] } : CoreState).pass 4).mul = []
    ∧ (∀ h l : Word, h = (({ c with mul := [⟨kind, a, b, 4⟩] } : CoreState).pass 4).mhi →
        l = (({ c with mul := [⟨kind, a, b, 4⟩] } : CoreState).pass 4).mlo →
        (kind = .mulu → (h ++ l).toNat = a.toNat * b.toNat)
        ∧ (kind = .muls → (h ++ l).toInt = a.toInt * b.toInt)
        ∧ (kind = .macs → h ++ l = (c.mhi ++ c.mlo) + BitVec.ofInt 64 (a.toInt * b.toInt))
        ∧ (kind = .mulq → (h ++ l).toInt = roundDiv (a.toInt * b.toInt) (2 ^ 18))
        ∧ (kind = .macq → h ++ l = (c.mhi ++ c.mlo) + BitVec.ofInt 64 (roundDiv (a.toInt * b.toInt) (2 ^ 18))))

/-- R419, R425-R427, R429, R432: MFC, MTC, SVC, ERET, WFE and FENCE, outside applet mode. -/
def Obligations.ControlAndSystemInstructionsExecute : Prop :=
  (∀ (k : Core) (rd : Fin 16) (creg : BitVec 6) (s u : State), s.Fetched k u → creg.toNat < 11 → u.inApp k = false →
    exec (.mfc k rd creg) s = .next (s.settled ((u.setW k rd (u.creg k creg.toNat)).retire k (u.nextPc k) 1)))
  ∧ (∀ (k : Core) (ra : Fin 16) (creg : BitVec 6) (s u : State), s.Fetched k u → creg.toNat < 11 → creg.toNat ≠ 6 →
    creg.toNat ≠ 7 → u.inApp k = false → exec (.mtc k ra creg) s = .next (s.settled (((u.spend k (u.mulWait k
    creg.toNat)).modCore k fun c => c.setCreg creg.toNat (u.wreg k ra)).retire k (u.nextPc k) 1)))
  ∧ (∀ (k : Core) (imm : BitVec 16) (s u : State), s.Fetched k u → u.underPolicy k = false → u.psrBit k psrExl =
    false → exec (.svc k imm) s = .next (s.settled ((u.modCore k fun c =>
    { c with spsr := c.psr, psr := psrEntered c.psr, ecause := 6, epc := u.nextPc k, eval := imm.setWidth 32, pc := c.vbase + 0x60 }).spend
    k 3)))
  ∧ (∀ (imm : BitVec 16) (s u : State), s.Fetched 3 u → u.underPolicy 3 = true → (u.served imm).coreSt 3 = 1 → exec
    (.svc 3 imm) s = .next (s.settled ((u.served imm).retire 3 ((u.served imm).core 3).pc 0)))
  ∧ (∀ (s : State) (code v : Word), (s.svcReturn code (some v)).wreg 3 1 = code ∧ (s.svcReturn code (some v)).wreg 3
    2 = v ∧ s.service 2 = s.svcReturn 0 (some (BitVec.ofNat 32 s.power.ms)) ∧ s.svcExit.applet = none ∧ (∀ n : Nat,
    7 < n → s.service n = s.svcReturn 0x8001))
  ∧ (∀ (k : Core) (s u : State), s.Fetched k u → u.psrBit k psrExl = true → u.inApp k = false → exec (.eret k) s =
    .next (s.settled (((u.spend k 2).modCore k fun c => { c with psr := c.spsr &&& 0x7F#32, pc := c.epc }).retire k
    (u.core k).epc 0)))
  ∧ (∀ (k : Core) (s u : State), s.Fetched k u → u.psrBit k psrExl = false → exec (.eret k) s = .next (s.settled
    (((u.appletFault k .illegal).modCore k fun c => c.enter .illegal (u.core k).pc (Pletra.encode .eret)).spend k
    3)))
  ∧ (∀ (k : Core) (s u : State), s.Fetched k u → u.inApp k = false → (u.retire k (u.nextPc k) 1).evtDue k = false →
    exec (.wfe k) s = .next (s.settled ((u.retire k (u.nextPc k) 1).setFld (F.CORE_Ck_STATUS_STATE k) 2)))
  ∧ (∀ (k : Core) (s u : State), s.Fetched k u → exec (.fence k) s = .next (s.settled (u.retire k (u.nextPc k) 1)))
  ∧ (∀ (k : Core) (s : State), exec (.event k) s = .next (s.settled ((s.wakeCore k).takeEvent k)))
  ∧ (∀ (k : Core) (s : State), exec (.budget k) s = .next (s.settled (s.takeBudget k)))

/-- R426-R428: taking an exception saves PSR and the address, sets EXL, clears IE and APP, keeps the flags, and goes to
the cause's vector; a synchronous exception with EXL 1 is an unrecoverable fault; ERET undoes an entry. -/
def Obligations.ExceptionEntryAndReturn : Prop :=
  (∀ (s : State) (k : Core) (e : Exc) (epc v : Word), s.psrBit k psrExl = false ∨ 6 < e.code →
      s.exception k e epc v = ((s.appletFault k e).modCore k fun c => c.enter e epc v).spend k 3)
  ∧ (∀ (c : CoreState) (e : Exc) (epc v : Word), (c.enter e epc v).spsr = c.psr ∧ (c.enter e epc v).epc = epc
      ∧ (c.enter e epc v).eval = v ∧ (c.enter e epc v).ecause = BitVec.ofNat 32 e.code
      ∧ (c.enter e epc v).pc = c.vbase + BitVec.ofNat 32 (0x10 * e.code) ∧ (c.enter e epc v).w = c.w
      ∧ (c.enter e epc v).psr.getLsbD psrExl = true ∧ (c.enter e epc v).psr.getLsbD psrIe = false
      ∧ (c.enter e epc v).psr.getLsbD psrApp = false
      ∧ (∀ i : Nat, i < 4 ∨ 6 < i → (c.enter e epc v).psr.getLsbD i = c.psr.getLsbD i))
  ∧ (∀ (c : CoreState) (e : Exc) (epc v : Word), c.psr.toNat < 128 →
      (c.enter e epc v).eret = { c.enter e epc v with psr := c.psr, pc := epc })
  ∧ (∀ (s : State) (k : Core) (e : Exc) (epc v : Word), s.psrBit k psrExl = true → e.code ≤ 6 →
      s.exception k e epc v = s.coreFault k 1 e.code)

/-- Watchdogs, timers, the debug port and applets. -/
def Obligations.CoreEventCommandsComplete : Prop :=
  (∀ (k : Core) (s : State), s.coreActs k = true → exec (.watchdogExpiry k) s = .next (s.settled (s.coreFault k 2
    0)))
  ∧ (∀ (k : Core) (s : State), s.domOn 2 = true → s.fld (F.CORE_Ck_TIMER_COUNT k) ≠ 0 → s.coreSt k ≠ 3 → exec
    (.coreTimerExpiry k) s = .next (s.settled ((s.setFld (F.CORE_Ck_TIMER_COUNT k) 0).setFld
    (F.CORE_Ck_EVT_PEND_TIMER k) 1)))
  ∧ (∀ (k : Core) (s : State), s.debugUnlocked = true → (s.coreSt k == 1 || s.coreSt k == 2) = true → exec
    (.coreHalt k) s = .next (s.settled ((s.modCore k fun c => { c with halted := s.coreSt k }).setFld
    (F.CORE_Ck_STATUS_STATE k) 3)))
  ∧ (∀ (k : Core) (s : State), s.coreSt k = 3 → exec (.coreResume k) s = .next (s.settled (s.setFld
    (F.CORE_Ck_STATUS_STATE k) (s.core k).halted)))
  ∧ (∀ (n : Fin 8) (event : Fin 4) (arg : Word) (entry : BitVec 16) (budget : BitVec 24) (s : State), s.coreActs 3 =
    true → s.applet = none → s.psrBit 3 psrExl = false → (∀ m ∈ s.appletsDue, n ≤ m) → s.fld (F.LIVE_HOk_STATE 3) ≠
    3 → exec (.appletInvocation n event arg entry budget) s = .next (s.settled (s.invoke n event arg entry budget)))
  ∧ (∀ (n : Fin 8) (event : Fin 4) (arg : Word) (entry : BitVec 16) (budget : BitVec 24) (s : State),
    s.applet.isSome = true → exec (.appletInvocation n event arg entry budget) s = .next (s.settled (if
    s.appletsDue.contains n then s else { s with appletsDue := s.appletsDue ++ [n] })))
  ∧ (∀ (s : State) (n : Fin 8) (event : Fin 4) (arg : Word) (entry : BitVec 16) (budget : BitVec 24), ((s.invoke n
    event arg entry budget).applet = some n) ∧ (s.invoke n event arg entry budget).inApp 3 = true ∧ (s.invoke n
    event arg entry budget).wreg 3 1 = BitVec.ofNat 32 event.val ∧ (s.invoke n event arg entry budget).wreg 3 2 =
    arg ∧ ((s.invoke n event arg entry budget).core 3).pc = BitVec.ofNat 32 (0x20000000 + s.sbxBase + entry.toNat) ∧
    (s.invoke n event arg entry budget).fld F.CORE_SBX_LEFT_LEFT = budget.toNat)
end

