-- ==== Sys2Proof/Laws/Memory.lean ====
section
/-!
SUPPORT. Sparse memories: reading after writing, and that every memory operation keeps the canonical form.
-/

namespace Sys2Proof.Machine

variable {w : Nat} {d : Nat → BitVec w}

@[simp] theorem Mem.get_nil (a : Nat) : Mem.get d [] a = d a := rfl

theorem Mem.get_cons (b : Nat) (v : BitVec w) (m : Mem w) (a : Nat) :
    Mem.get d ((b, v) :: m) a = if a = b then v else Mem.get d m a := rfl

theorem Mem.wfFrom_mono {m : Mem w} {lo lo' : Nat} (h : Mem.wfFrom d lo m = true) (le : lo' ≤ lo) :
    Mem.wfFrom d lo' m = true := by
  cases m with
  | nil => rfl
  | cons e m =>
    simp only [Mem.wfFrom, Bool.and_eq_true, decide_eq_true_eq] at h ⊢
    exact ⟨⟨by omega, h.1.2⟩, h.2⟩

theorem Mem.wfFrom_wf {m : Mem w} {lo : Nat} (h : Mem.wfFrom d lo m = true) : Mem.wf d m = true :=
  Mem.wfFrom_mono h (Nat.zero_le lo)

theorem Mem.wfFrom_filter {m : Mem w} (p : Nat × BitVec w → Bool) {lo : Nat} (h : Mem.wfFrom d lo m = true) :
    Mem.wfFrom d lo (m.filter p) = true := by
  induction m generalizing lo with
  | nil => rfl
  | cons e m ih =>
    simp only [Mem.wfFrom, Bool.and_eq_true, decide_eq_true_eq] at h
    rw [List.filter_cons]
    split
    · simp only [Mem.wfFrom, Bool.and_eq_true, decide_eq_true_eq]
      exact ⟨h.1, ih h.2⟩
    · exact Mem.wfFrom_mono (ih h.2) (by omega)

/-- Leaving entries out keeps the canonical form. -/
theorem Mem.filter_wf {m : Mem w} (p : Nat × BitVec w → Bool) (h : Mem.wf d m = true) :
    Mem.wf d (m.filter p) = true := Mem.wfFrom_filter p h

theorem Mem.erase_eq_filter (m : Mem w) (a : Nat) : m.erase a = m.filter fun e => decide (a ≠ e.1) := by
  induction m with
  | nil => rfl
  | cons e m ih =>
    simp only [Mem.erase, List.filter_cons, decide_eq_true_eq]
    rw [ih]; split <;> rename_i h <;> simp [h]

theorem Mem.erase_wf {m : Mem w} (a : Nat) (h : Mem.wf d m = true) : Mem.wf d (m.erase a) = true := by
  rw [Mem.erase_eq_filter]; exact Mem.filter_wf _ h

theorem Mem.get_erase (m : Mem w) (a b : Nat) :
    Mem.get d (m.erase a) b = if b = a then d a else Mem.get d m b := by
  induction m with
  | nil => simp only [Mem.erase, Mem.get]; split <;> simp_all
  | cons e m ih =>
    obtain ⟨c, v⟩ := e
    simp only [Mem.erase, Mem.get_cons]
    split <;> rename_i hc
    · rw [ih]; subst hc; split <;> simp_all
    · rw [Mem.get_cons, ih]; split <;> split <;> simp_all

theorem Mem.insert_wfFrom {m : Mem w} {lo a : Nat} {x : BitVec w} (h : Mem.wfFrom d lo m = true)
    (out : ∀ e ∈ m, e.1 ≠ a) (le : lo ≤ a) (ne : x ≠ d a) : Mem.wfFrom d lo (m.insert a x) = true := by
  induction m generalizing lo with
  | nil => simp [Mem.insert, Mem.wfFrom, le, ne]
  | cons e m ih =>
    obtain ⟨c, v⟩ := e
    simp only [Mem.wfFrom, Bool.and_eq_true, decide_eq_true_eq] at h
    have hc : c ≠ a := out (c, v) (by simp)
    simp only [Mem.insert]
    split
    · simp only [Mem.wfFrom, Bool.and_eq_true, decide_eq_true_eq]
      exact ⟨⟨le, ne⟩, ⟨by omega, h.1.2⟩, h.2⟩
    · simp only [Mem.wfFrom, Bool.and_eq_true, decide_eq_true_eq]
      exact ⟨h.1, ih h.2 (fun e he => out e (by simp [he])) (by omega)⟩

/-- A write keeps the canonical form. -/
theorem Mem.set_wf {m : Mem w} (a : Nat) (x : BitVec w) (h : Mem.wf d m = true) : Mem.wf d (m.set d a x) = true := by
  unfold Mem.set
  split
  · exact Mem.erase_wf a h
  · rename_i ne
    refine Mem.insert_wfFrom (Mem.erase_wf a h) ?_ (Nat.zero_le a) ne
    intro e he
    rw [Mem.erase_eq_filter] at he
    have := (List.mem_filter.mp he).2
    simp only [decide_eq_true_eq] at this
    exact fun q => this q.symm

theorem Mem.get_insert (m : Mem w) (a b : Nat) (x : BitVec w) (out : ∀ e ∈ m, e.1 ≠ a) :
    Mem.get d (m.insert a x) b = if b = a then x else Mem.get d m b := by
  induction m with
  | nil => simp only [Mem.insert, Mem.get]
  | cons e m ih =>
    obtain ⟨c, v⟩ := e
    have hc : c ≠ a := out (c, v) (by simp)
    simp only [Mem.insert]
    split
    · rw [Mem.get_cons]
    · rw [Mem.get_cons, ih (fun e he => out e (by simp [he])), Mem.get_cons]
      split <;> split <;> simp_all

/-- A read after a write: the address written, and every other. -/
theorem Mem.get_set (m : Mem w) (a b : Nat) (x : BitVec w) :
    Mem.get d (m.set d a x) b = if b = a then x else Mem.get d m b := by
  unfold Mem.set
  split
  · rename_i e; rw [Mem.get_erase]; split <;> simp_all
  · rw [Mem.get_insert _ _ _ _ ?_, Mem.get_erase]
    · split <;> simp_all
    · intro e he
      rw [Mem.erase_eq_filter] at he
      have := (List.mem_filter.mp he).2
      simp only [decide_eq_true_eq] at this
      exact fun q => this q.symm

@[simp] theorem Mem.get_set_same (m : Mem w) (a : Nat) (x : BitVec w) : Mem.get d (m.set d a x) a = x := by
  rw [Mem.get_set]; simp

theorem Mem.get_set_ne (m : Mem w) {a b : Nat} (x : BitVec w) (h : b ≠ a) :
    Mem.get d (m.set d a x) b = Mem.get d m b := by rw [Mem.get_set]; simp [h]

theorem Mem.get_below {m : Mem w} {lo a : Nat} (h : Mem.wfFrom d lo m = true) (lt : a < lo) : Mem.get d m a = d a := by
  induction m generalizing lo with
  | nil => rfl
  | cons e m ih =>
    obtain ⟨c, v⟩ := e
    simp only [Mem.wfFrom, Bool.and_eq_true, decide_eq_true_eq] at h
    rw [Mem.get_cons, if_neg (by omega)]
    exact ih h.2 (by omega)

theorem Mem.wfFrom_ext {m n : Mem w} {lo lo' : Nat} (hm : Mem.wfFrom d lo m = true) (hn : Mem.wfFrom d lo' n = true)
    (eq : ∀ a, Mem.get d m a = Mem.get d n a) : m = n := by
  induction m generalizing lo lo' n with
  | nil =>
    cases n with
    | nil => rfl
    | cons e n =>
      obtain ⟨c, v⟩ := e
      simp only [Mem.wfFrom, Bool.and_eq_true, decide_eq_true_eq] at hn
      have := eq c
      simp [Mem.get_cons] at this
      exact absurd this.symm hn.1.2
  | cons e m ih =>
    obtain ⟨b, u⟩ := e
    simp only [Mem.wfFrom, Bool.and_eq_true, decide_eq_true_eq] at hm
    cases n with
    | nil =>
      have := eq b
      simp [Mem.get_cons] at this
      exact absurd this hm.1.2
    | cons e n =>
      obtain ⟨c, v⟩ := e
      simp only [Mem.wfFrom, Bool.and_eq_true, decide_eq_true_eq] at hn
      have hbc : b = c := by
        by_contra ne
        rcases Nat.lt_or_gt_of_ne ne with lt | gt
        · have e1 := eq b
          rw [Mem.get_cons, Mem.get_cons, if_pos rfl, if_neg ne, Mem.get_below hn.2 (by omega)] at e1
          exact hm.1.2 e1
        · have e1 := eq c
          rw [Mem.get_cons, Mem.get_cons, if_pos rfl, if_neg (fun q => ne q.symm), Mem.get_below hm.2 (by omega)] at e1
          exact hn.1.2 e1.symm
      subst hbc
      have hv : u = v := by have := eq b; simpa [Mem.get_cons] using this
      subst hv
      rw [ih hm.2 hn.2]
      intro a
      by_cases h : a = b
      · subst h; rw [Mem.get_below hm.2 (by omega), Mem.get_below hn.2 (by omega)]
      · have := eq a; simpa [Mem.get_cons, h] using this

/-- Memories in canonical form that read the same everywhere are the same data. -/
theorem Mem.ext_get {m n : Mem w} (hm : Mem.wf d m = true) (hn : Mem.wf d n = true)
    (eq : ∀ a, Mem.get d m a = Mem.get d n a) : m = n := Mem.wfFrom_ext hm hn eq

/-- Writing what an address already reads as changes nothing. -/
theorem Mem.set_get {m : Mem w} (h : Mem.wf d m = true) (a : Nat) : m.set d a (Mem.get d m a) = m := by
  refine Mem.ext_get (Mem.set_wf a _ h) h fun b => ?_
  rw [Mem.get_set]; split <;> simp_all

/-- A fold of changes that keep the canonical form. -/
theorem Mem.foldl_wf {α : Type} {f : Mem w → α → Mem w} {l : List α} {m : Mem w}
    (hf : ∀ m x, Mem.wf d m = true → Mem.wf d (f m x) = true) (h : Mem.wf d m = true) :
    Mem.wf d (l.foldl f m) = true := by
  induction l generalizing m with
  | nil => exact h
  | cons x l ih => exact ih (hf m x h)

section bytes
variable {d : Nat → Byte}

/-- Writing bytes keeps the canonical form. -/
theorem Mem.setBytes_wf {m : Mem 8} (a : Nat) (bs : List Byte) (h : Mem.wf d m = true) :
    Mem.wf d (m.setBytes d a bs) = true := by
  induction bs generalizing m a with
  | nil => exact h
  | cons b bs ih => exact ih (a + 1) (Mem.set_wf a b h)

theorem Mem.get_setBytes (m : Mem 8) (a : Nat) (bs : List Byte) (x : Nat) :
    Mem.get d (m.setBytes d a bs) x
      = if a ≤ x ∧ x < a + bs.length then bs.getD (x - a) 0 else Mem.get d m x := by
  induction bs generalizing m a with
  | nil => simp [Mem.setBytes]
  | cons b bs ih =>
    rw [Mem.setBytes, ih, Mem.get_set]
    by_cases h : x = a
    · subst h; simp
    · by_cases h2 : a + 1 ≤ x ∧ x < a + 1 + bs.length
      · have e : x - a = (x - (a + 1)) + 1 := by omega
        rw [if_pos h2, if_pos (by simp; omega), e, List.getD_cons_succ]
      · rw [if_neg h2, if_neg h, if_neg (by simp; omega)]

theorem Mem.setWord_wf {m : Mem 8} (a : Nat) (x : Word) (h : Mem.wf d m = true) :
    Mem.wf d (m.setWord d a x) = true := Mem.setBytes_wf a _ h

end bytes

end Sys2Proof.Machine
end

