-- ==== Sys2Proof/Laws/Keeps.lean ====
section
/-!
SUPPORT. The named operations keep the invariant of the state: one lemma for each, which every later proof cites.
-/

namespace Sys2Proof.Machine

/-! ### Ways of putting states together -/

theorem ite_keeps {c : Prop} [Decidable c] {s t : State} (hs : s.Inv) (ht : t.Inv) : (if c then s else t).Inv := by
  split
  · exact hs
  · exact ht

theorem foldl_keeps {α : Type} {f : State → α → State} {l : List α} {s : State}
    (hf : ∀ t x, t.Inv → (f t x).Inv) (h : s.Inv) : (l.foldl f s).Inv := by
  induction l generalizing s with
  | nil => exact h
  | cons x l ih => exact ih (hf s x h)

theorem State.forAll_keeps {n : Nat} {s : State} {f : Fin n → State → State}
    (hf : ∀ i t, t.Inv → (f i t).Inv) (h : s.Inv) : (s.forAll f).Inv :=
  foldl_keeps (fun t i ht => hf i t ht) h

/-- What the answer of a meaning keeps. -/
def Answer.Keeps (a : Answer) : Prop := ∀ t, a = .next t → t.Inv

theorem Answer.keeps_next {s : State} (h : s.Inv) : Answer.Keeps (.next s) := by
  intro t e; cases e; exact h

theorem State.onlyIf_keeps {s : State} {b : Bool} {f : State → State} (h : s.Inv) (hf : b = true → (f s).Inv) :
    Answer.Keeps (s.onlyIf b f) := by
  refine Answer.keeps_next ?_
  split
  · exact hf ‹_›
  · exact h

/-! ### Registers -/

theorem State.setReg_keeps {s : State} {a : Nat} {w : Word} (h : s.Inv) : (s.setReg a w).Inv :=
  ⟨Mem.set_wf a w h.regs, h.act, h.sram, h.pmem, h.cells, h.stats, h.extremes, h.snap, h.cores⟩

theorem State.setAct_keeps {s : State} {a : Nat} {w : Word} (h : s.Inv) : (s.setAct a w).Inv :=
  ⟨h.regs, Mem.set_wf a w h.act, h.sram, h.pmem, h.cells, h.stats, h.extremes, h.snap, h.cores⟩

theorem State.setFld_keeps {s : State} {f : Fld} {v : Nat} (h : s.Inv) : (s.setFld f v).Inv := setReg_keeps h
theorem State.setSFld_keeps {s : State} {f : Fld} {v : Int} (h : s.Inv) : (s.setSFld f v).Inv := setReg_keeps h
theorem State.setBit_keeps {s : State} {f : Fld} {b : Bool} (h : s.Inv) : (s.setBit f b).Inv := setReg_keeps h
theorem State.satInc_keeps {s : State} {f : Fld} {n : Nat} (h : s.Inv) : (s.satInc f n).Inv := setReg_keeps h
theorem State.setActFld_keeps {s : State} {f : Fld} {v : Nat} (h : s.Inv) : (s.setActFld f v).Inv := setAct_keeps h
theorem State.raise_keeps {s : State} {g b : Nat} (h : s.Inv) : (s.raise g b).Inv := setReg_keeps h

/-! ### Parts of the state -/

/-- A change that touches no memory and no core. -/
theorem State.Inv.of_same {s t : State} (h : s.Inv) (regs : t.regs = s.regs) (act : t.act = s.act)
    (sram : t.sram = s.sram) (pmem : t.pmem = s.pmem) (cells : t.kpr.cells = s.kpr.cells)
    (stats : t.recorder.stats = s.recorder.stats) (extremes : t.recorder.extremes = s.recorder.extremes)
    (snap : t.recorder.snap = s.recorder.snap) (cores : t.cores = s.cores) : t.Inv :=
  ⟨regs ▸ h.regs, act ▸ h.act, sram ▸ h.sram, pmem ▸ h.pmem, cells ▸ h.cells, stats ▸ h.stats, extremes ▸ h.extremes,
   snap ▸ h.snap, cores ▸ h.cores⟩

theorem State.modChan_keeps {s : State} {n : Chan} {f : ChanState → ChanState} (h : s.Inv) : (s.modChan n f).Inv :=
  h.of_same rfl rfl rfl rfl rfl rfl rfl rfl rfl
theorem State.modLoop_keeps {s : State} {n : Loop} {f : LoopState → LoopState} (h : s.Inv) : (s.modLoop n f).Inv :=
  h.of_same rfl rfl rfl rfl rfl rfl rfl rfl rfl
theorem State.modPower_keeps {s : State} {f : Power → Power} (h : s.Inv) : (s.modPower f).Inv :=
  h.of_same rfl rfl rfl rfl rfl rfl rfl rfl rfl
theorem State.modBoot_keeps {s : State} {f : Boot → Boot} (h : s.Inv) : (s.modBoot f).Inv :=
  h.of_same rfl rfl rfl rfl rfl rfl rfl rfl rfl
theorem State.modEngine_keeps {s : State} {f : Engine → Engine} (h : s.Inv) : (s.modEngine f).Inv :=
  h.of_same rfl rfl rfl rfl rfl rfl rfl rfl rfl
theorem State.modSeq_keeps {s : State} {f : Seq → Seq} (h : s.Inv) : (s.modSeq f).Inv :=
  h.of_same rfl rfl rfl rfl rfl rfl rfl rfl rfl
theorem State.modTcv_keeps {s : State} {f : Tcv → Tcv} (h : s.Inv) : (s.modTcv f).Inv :=
  h.of_same rfl rfl rfl rfl rfl rfl rfl rfl rfl
theorem State.modLive_keeps {s : State} {f : Live → Live} (h : s.Inv) : (s.modLive f).Inv :=
  h.of_same rfl rfl rfl rfl rfl rfl rfl rfl rfl
theorem State.modTst_keeps {s : State} {f : Tst → Tst} (h : s.Inv) : (s.modTst f).Inv :=
  h.of_same rfl rfl rfl rfl rfl rfl rfl rfl rfl
theorem State.modPort_keeps {s : State} {p : Port} {f : PortState → PortState} (h : s.Inv) : (s.modPort p f).Inv :=
  h.of_same rfl rfl rfl rfl rfl rfl rfl rfl rfl
theorem State.modPath_keeps {s : State} {p : Port} {f : PathState → PathState} (h : s.Inv) : (s.modPath p f).Inv :=
  h.of_same rfl rfl rfl rfl rfl rfl rfl rfl rfl
theorem State.modLink_keeps {s : State} {v : Port} {f : Link → Link} (h : s.Inv) : (s.modLink v f).Inv :=
  h.of_same rfl rfl rfl rfl rfl rfl rfl rfl rfl
theorem State.modHost_keeps {s : State} {k : HostId} {f : HostPort → HostPort} (h : s.Inv) : (s.modHost k f).Inv :=
  h.of_same rfl rfl rfl rfl rfl rfl rfl rfl rfl
theorem State.emit_keeps {s : State} {o : Out} (h : s.Inv) : (s.emit o).Inv :=
  h.of_same rfl rfl rfl rfl rfl rfl rfl rfl rfl
theorem State.fresh_keeps {s : State} {w : Nat} (h : s.Inv) : (s.fresh w).2.Inv :=
  h.of_same rfl rfl rfl rfl rfl rfl rfl rfl rfl
theorem State.mendReg_keeps {s : State} {a : Nat} (h : s.Inv) : (s.mendReg a).Inv :=
  h.of_same rfl rfl rfl rfl rfl rfl rfl rfl rfl

/-- A change of the keeper that leaves the array. -/
theorem State.modKpr_keeps {s : State} {f : Keeper → Keeper} (h : s.Inv) (hf : (f s.kpr).cells = s.kpr.cells) :
    (s.modKpr f).Inv := h.of_same rfl rfl rfl rfl hf rfl rfl rfl rfl

/-- A group written to the array. -/
theorem State.modKpr_cells_keeps {s : State} {f : Keeper → Keeper} (h : s.Inv)
    (hf : (f s.kpr).cells.wf kprDefault = true) : (s.modKpr f).Inv :=
  ⟨h.regs, h.act, h.sram, h.pmem, hf, h.stats, h.extremes, h.snap, h.cores⟩

/-- A change of the recorder that leaves its payloads. -/
theorem State.modRec_keeps {s : State} {f : Recorder → Recorder} (h : s.Inv) (e1 : (f s.recorder).stats = s.recorder.stats)
    (e2 : (f s.recorder).extremes = s.recorder.extremes) (e3 : (f s.recorder).snap = s.recorder.snap) :
    (s.modRec f).Inv := h.of_same rfl rfl rfl rfl rfl e1 e2 e3 rfl

/-- A change of the recorder's payloads. -/
theorem State.modRec_mems_keeps {s : State} {f : Recorder → Recorder} (h : s.Inv)
    (e1 : (f s.recorder).stats.wf statsDefault = true) (e2 : (f s.recorder).extremes.wf extremesDefault = true)
    (e3 : (f s.recorder).snap.wf statsDefault = true) : (s.modRec f).Inv :=
  ⟨h.regs, h.act, h.sram, h.pmem, h.cells, e1, e2, e3, h.cores⟩

/-! ### Cores -/

theorem CoreState.reset_ok : CoreState.reset.Ok := by
  constructor <;> decide

theorem State.modCore_keeps {s : State} {k : Core} {f : CoreState → CoreState} (h : s.Inv) (hf : (f s.cores[k]).Ok) :
    (s.modCore k f).Inv := by
  refine ⟨h.regs, h.act, h.sram, h.pmem, h.cells, h.stats, h.extremes, h.snap, fun j => ?_⟩
  simp only [State.modCore]
  by_cases e : j = k
  · subst e; simpa using hf
  · have : (j : Nat) ≠ k := fun q => e (Fin.ext q)
    simpa [Vector.getElem_set, this.symm] using h.cores j

/-- A change of a core that leaves its bit space, w0 and PSR. -/
theorem State.modCore_same_keeps {s : State} {k : Core} {f : CoreState → CoreState} (h : s.Inv)
    (bits : (f s.cores[k]).bits = (s.cores[k]).bits) (w : (f s.cores[k]).w = (s.cores[k]).w)
    (psr : (f s.cores[k]).psr = (s.cores[k]).psr) : (s.modCore k f).Inv :=
  State.modCore_keeps h ⟨bits ▸ (h.cores k).bits, w ▸ (h.cores k).w0, psr ▸ (h.cores k).psr⟩

/-! ### SRAM, the partner memory and the keeper array -/

theorem State.setSramBytes_keeps {s : State} {a : Nat} {bs : List Byte} (h : s.Inv) : (s.setSramBytes a bs).Inv :=
  ⟨h.regs, h.act, Mem.setBytes_wf a bs h.sram, h.pmem, h.cells, h.stats, h.extremes, h.snap, h.cores⟩
theorem State.setSramWord_keeps {s : State} {a : Nat} {w : Word} (h : s.Inv) : (s.setSramWord a w).Inv :=
  setSramBytes_keeps h

/-! ### Reset -/

/-- Nothing is listed at reset, and every core register is 0. -/
theorem State.reset_inv_mems : (State.reset.regs = [] ∧ State.reset.act = [] ∧ State.reset.sram = [] ∧ State.reset.pmem = []) ∧
    State.reset.kpr.cells = [] ∧ State.reset.cores = Vector.replicate 4 CoreState.reset := ⟨⟨rfl, rfl, rfl, rfl⟩, rfl, rfl⟩

end Sys2Proof.Machine
end

