-- ==== Sys2Proof/Laws/Fields.lean ====
section
/-!
SUPPORT. Fields of a word and of a register: what a read finds after a write of the same field, of another field of
the register, and of another register.
-/

namespace Sys2Proof.Machine

theorem getBits_testBit (w : Word) (lo width i : Nat) :
    (getBits w lo width).testBit i = (decide (i < width) && w.getLsbD (lo + i)) := by
  unfold getBits
  rw [Nat.testBit_mod_two_pow, Nat.testBit_div_two_pow, BitVec.getLsbD, Nat.add_comm]

theorem bitsMask_getLsbD (lo width i : Nat) :
    (bitsMask lo width).getLsbD i = (decide (i < 32) && decide (lo ≤ i) && decide (i < lo + width)) := by
  unfold bitsMask
  rw [BitVec.getLsbD_ofNat, Nat.testBit_shiftLeft, Nat.testBit_two_pow_sub_one]
  by_cases h1 : lo ≤ i <;> by_cases h2 : i < lo + width <;> by_cases h3 : i < 32 <;> simp [h1, h2, h3] <;> omega

theorem putBits_getLsbD (w : Word) (lo width v i : Nat) :
    (putBits w lo width v).getLsbD i
      = (decide (i < 32) && (if lo ≤ i ∧ i < lo + width then v.testBit (i - lo) else w.getLsbD i)) := by
  unfold putBits
  rw [BitVec.getLsbD_or, BitVec.getLsbD_and, BitVec.getLsbD_not, bitsMask_getLsbD, BitVec.getLsbD_ofNat,
    Nat.testBit_shiftLeft, Nat.testBit_mod_two_pow]
  by_cases h1 : lo ≤ i <;> by_cases h2 : i < lo + width <;> by_cases h3 : i < 32 <;> simp [h1, h2, h3]
  all_goals (intro h; omega)

/-- A field reads what was put into it. -/
theorem getBits_putBits_same {w : Word} {lo width v : Nat} (h : lo + width ≤ 32) :
    getBits (putBits w lo width v) lo width = v % 2 ^ width := by
  refine Nat.eq_of_testBit_eq fun i => ?_
  rw [getBits_testBit, putBits_getLsbD, Nat.testBit_mod_two_pow]
  by_cases h1 : i < width
  · have h2 : lo + i < 32 := by omega
    simp [h1, h2]
  · simp [h1]

/-- A field beside the one written stays. -/
theorem getBits_putBits_ne {w : Word} {lo width v lo' width' : Nat} (h : lo' + width' ≤ lo ∨ lo + width ≤ lo') :
    getBits (putBits w lo width v) lo' width' = getBits w lo' width' := by
  refine Nat.eq_of_testBit_eq fun i => ?_
  rw [getBits_testBit, getBits_testBit, putBits_getLsbD]
  by_cases h1 : i < width'
  · have h2 : ¬(lo ≤ lo' + i ∧ lo' + i < lo + width) := by omega
    rw [if_neg h2]
    by_cases h3 : lo' + i < 32
    · simp [h3]
    · simp only [h3, decide_false, Bool.false_and, Bool.and_false]
      rw [BitVec.getLsbD_of_ge w _ (by omega)]
      simp
  · simp [h1]

theorem getBits_lt (w : Word) (lo width : Nat) : getBits w lo width < 2 ^ width := Nat.mod_lt _ (Nat.two_pow_pos _)

/-! ### Registers -/

theorem State.reg_setReg (s : State) (a b : Nat) (w : Word) :
    (s.setReg a w).reg b = if b = a then w else s.reg b := Mem.get_set ..

@[simp] theorem State.reg_setReg_same (s : State) (a : Nat) (w : Word) : (s.setReg a w).reg a = w := by
  rw [State.reg_setReg]; simp

theorem State.reg_setReg_ne (s : State) {a b : Nat} (w : Word) (h : b ≠ a) : (s.setReg a w).reg b = s.reg b := by
  rw [State.reg_setReg]; simp [h]

/-- A read of the field written. -/
theorem State.fld_setFld_same (s : State) {f : Fld} (v : Nat) (h : f.lo + f.width ≤ 32) :
    (s.setFld f v).fld f = v % 2 ^ f.width := by
  unfold State.setFld State.fld
  rw [State.reg_setReg_same, getBits_putBits_same h]

/-- A read of a field of another register. -/
theorem State.fld_setFld_reg (s : State) {f g : Fld} (v : Nat) (h : g.addr ≠ f.addr) : (s.setFld f v).fld g = s.fld g := by
  unfold State.setFld State.fld
  rw [State.reg_setReg_ne _ _ h]

/-- A read of another field of the register. -/
theorem State.fld_setFld_beside (s : State) {f g : Fld} (v : Nat) (h : g.lo + g.width ≤ f.lo ∨ f.lo + f.width ≤ g.lo) :
    (s.setFld f v).fld g = s.fld g := by
  by_cases e : g.addr = f.addr
  · unfold State.setFld State.fld
    rw [e, State.reg_setReg_same, getBits_putBits_ne h]
  · exact State.fld_setFld_reg s v e

theorem State.reg_setFld_ne (s : State) {f : Fld} {v a : Nat} (h : a ≠ f.addr) : (s.setFld f v).reg a = s.reg a :=
  State.reg_setReg_ne s _ h

theorem State.bit_setBit_same (s : State) {f : Fld} (b : Bool) (h : f.lo + f.width ≤ 32) (w : f.width = 1) :
    (s.setBit f b).bit f = b := by
  unfold State.setBit State.bit
  rw [State.fld_setFld_same s _ h, w]
  cases b <;> rfl

theorem State.bit_setBit_reg (s : State) {f g : Fld} (b : Bool) (h : g.addr ≠ f.addr) : (s.setBit f b).bit g = s.bit g := by
  unfold State.setBit State.bit
  rw [State.fld_setFld_reg s _ h]

theorem State.bit_setBit_beside (s : State) {f g : Fld} (b : Bool)
    (h : g.lo + g.width ≤ f.lo ∨ f.lo + f.width ≤ g.lo) : (s.setBit f b).bit g = s.bit g := by
  unfold State.setBit State.bit
  rw [State.fld_setFld_beside s _ h]

theorem State.fld_lt (s : State) (f : Fld) : s.fld f < 2 ^ f.width := getBits_lt ..

/-- A cause that is raised reads 1. -/
theorem State.fld_raise_same (s : State) {g b : Nat} (h : b < 32) : (s.raise g b).fld (causeFld g b) = 1 := by
  unfold State.raise
  rw [State.fld_setFld_same]
  · rfl
  · simp only [causeFld]; omega

end Sys2Proof.Machine
end

