-- ==== Sys2Proof/Laws/Cores.lean ====
section
/-!
SUPPORT. A core's STATE through the operations that leave it: a fetch that succeeds, the cycles spent, the register file
and PSR. An instruction that only does these goes on at its next PC.
-/

namespace Sys2Proof.Machine

theorem State.coreSt_setFld (s : State) {f : Fld} (v : Nat) (k : Core) (h : f.addr ≠ A.CORE_Ck_STATUS k) :
    (s.setFld f v).coreSt k = s.coreSt k :=
  State.fld_setFld_reg s v (fun e => h e.symm)

@[simp] theorem State.coreSt_modCore (s : State) (k j : Core) (f : CoreState → CoreState) :
    (s.modCore k f).coreSt j = s.coreSt j := rfl

@[simp] theorem State.coreSt_setW (s : State) (k j : Core) (r : Fin 16) (x : Word) :
    (s.setW k r x).coreSt j = s.coreSt j := by
  unfold State.setW
  split <;> rfl

@[simp] theorem State.coreSt_setPsr (s : State) (k j : Core) (f : Word → Word) :
    (s.setPsr k f).coreSt j = s.coreSt j := rfl

@[simp] theorem State.coreSt_setSpaceBit (s : State) (k j : Core) (n : Nat) (b : Bool) :
    (s.setSpaceBit k n b).coreSt j = s.coreSt j := rfl

@[simp] theorem State.coreSt_setSramWord (s : State) (j : Core) (a : Nat) (w : Word) :
    (s.setSramWord a w).coreSt j = s.coreSt j := rfl

theorem State.coreSt_raise (s : State) (j : Core) (b : Nat) : (s.raise 13 b).coreSt j = s.coreSt j := by
  refine State.coreSt_setFld s _ j ?_
  show A.IRQ_CAUSEg 13 ≠ _
  unfold A.IRQ_CAUSEg A.CORE_Ck_STATUS
  omega

@[simp] theorem State.coreSt_spend (s : State) (k j : Core) (n : Nat) : (s.spend k n).coreSt j = s.coreSt j := by
  unfold State.spend
  simp only
  split
  · rw [State.coreSt_setFld _ _ _ (by show A.CORE_SBX_LEFT ≠ _; unfold A.CORE_SBX_LEFT A.CORE_Ck_STATUS; omega),
      State.coreSt_modCore]
  · exact State.coreSt_modCore ..

theorem State.coreSt_contAddr (s : State) (j : Core) (a kind : Nat) : (s.contAddr a kind).coreSt j = s.coreSt j := by
  unfold State.contAddr
  rw [State.coreSt_setFld _ _ _ (by show A.IRQ_CONT_ADDR ≠ _; unfold A.IRQ_CONT_ADDR A.CORE_Ck_STATUS; omega),
    State.coreSt_setFld _ _ _ (by show A.IRQ_CONT_ADDR ≠ _; unfold A.IRQ_CONT_ADDR A.CORE_Ck_STATUS; omega)]

theorem State.coreSt_satInc (s : State) (j : Core) {f : Fld} (n : Nat) (h : f.addr = A.IRQ_CONT_CNT) :
    (s.satInc f n).coreSt j = s.coreSt j := by
  refine State.coreSt_setFld s _ j ?_
  rw [h]
  unfold A.IRQ_CONT_CNT A.CORE_Ck_STATUS
  omega

theorem State.coreSt_sramRead (s : State) (j : Core) (a : Nat) (g : Bool) :
    (s.sramRead a g).state.coreSt j = s.coreSt j := by
  unfold State.sramRead
  repeat' (first | split | dsimp only)
  all_goals first
    | rfl
    | simp only [State.coreSt_raise, State.coreSt_contAddr, State.coreSt_setSramWord,
        State.coreSt_satInc _ _ _ (rfl : F.IRQ_CONT_CNT_REPLAYS.addr = A.IRQ_CONT_CNT),
        State.coreSt_satInc _ _ _ (rfl : F.IRQ_CONT_CNT_DATA_FAULTS.addr = A.IRQ_CONT_CNT)]

/-- A fetch that succeeds leaves every core's STATE. -/
theorem State.coreSt_fetch {s t : State} {k : Core} {n : Nat} (h : s.fetch k = .ok n t) (j : Core) :
    t.coreSt j = s.coreSt j := by
  unfold State.fetch at h
  dsimp only at h
  split at h
  · exact absurd h (by unfold State.fetchTrap; exact Fetch.noConfusion)
  · split at h
    · cases h; rfl
    · unfold State.fetchTrap at h
      repeat' split at h
      all_goals first
        | (cases h; done)
        | (cases h; exact State.coreSt_sramRead ..)
    · unfold State.fetchTrap at h
      split at h <;> cases h

theorem State.Fetched.coreSt {s u : State} {k : Core} (h : s.Fetched k u) : u.coreSt k = 1 := by
  obtain ⟨h1, n, t, h2, rfl⟩ := h
  rw [State.coreSt_spend, State.coreSt_fetch h2, h1]

/-- A running core that has fetched executes, and ends as `finish` says. -/
theorem State.instr_of_fetched {s u : State} {k : Core} (h : s.Fetched k u) (f : State → Ran) :
    s.instr k f = .next (u.finish k (f u)) := by
  obtain ⟨h1, n, t, h2, rfl⟩ := h
  simp [State.instr, State.onlyIf, h1, h2]

/-- An instruction that leaves its core running goes on at its next PC, its cycles spent. -/
theorem State.finish_go {s t : State} {k : Core} {pc : Word} {n : Nat} (h : t.coreSt k = 1) :
    s.finish k (.go t pc n) = t.retire k pc n := by
  simp [State.finish, State.retire, h]

end Sys2Proof.Machine
end

