-- ==== Sys2Proof/Laws/Keeps1.lean ====
section
/-!
SUPPORT. What the operations of the keeper, the recorder, the loops and ports as others see them, and the fault ladder keep: the invariant of the state, one lemma for each.
Each proof opens the operation and cites the lemmas of what it calls.
-/

set_option linter.unusedTactic false
set_option linter.unreachableTactic false

namespace Sys2Proof.Machine

/-! ### KeeperOps -/

theorem State.kprTouch_keeps {s : State} {a : Nat} (h_s : s.Inv) : (State.kprTouch s a).Inv := by
  unfold State.kprTouch; try dsimp only
  repeat' first
    | with_reducible assumption
    | with_reducible refine State.satInc_keeps ?_
    | with_reducible refine State.raise_keeps ?_
    | split

theorem State.kprTouchAll_keeps {s : State} {a n : Nat} (h_s : s.Inv) : (State.kprTouchAll s a n).Inv := by
  unfold State.kprTouchAll; try dsimp only
  repeat' first
    | with_reducible assumption
    | with_reducible refine State.kprTouch_keeps ?_
    | with_reducible refine foldl_keeps (fun _ _ _ => ?_) ?_

theorem State.readSpread_keeps {s : State} {c : Spread} (h_s : s.Inv) : (State.readSpread s c).Inv := by
  unfold State.readSpread; try dsimp only
  repeat' first
    | with_reducible assumption
    | with_reducible refine State.kprTouchAll_keeps ?_
    | with_reducible refine ite_keeps ?_ ?_

theorem State.readRecord_keeps {s : State} {k : RecordKind} (h_s : s.Inv) : (State.readRecord s k).Inv := by
  unfold State.readRecord; try dsimp only
  repeat' first
    | with_reducible assumption
    | with_reducible refine State.kprTouchAll_keeps ?_
    | with_reducible refine State.raise_keeps ?_
    | with_reducible refine ite_keeps ?_ ?_

theorem State.kprBegin_keeps {s : State} {op : KprOp} {gs : List (Nat × Word)} (h_s : s.Inv) : (State.kprBegin s op gs).Inv := by
  unfold State.kprBegin; try dsimp only
  repeat' first
    | with_reducible assumption
    | with_reducible refine State.modKpr_keeps ?_ ?_
    | with_reducible rfl

theorem State.kprTake_keeps {s : State} (h_s : s.Inv) : (State.kprTake s).Inv := by
  unfold State.kprTake; try dsimp only
  repeat' first
    | with_reducible assumption
    | with_reducible refine ite_keeps ?_ ?_
    | with_reducible refine State.readSpread_keeps ?_
    | with_reducible refine State.kprBegin_keeps ?_
    | with_reducible refine State.modRec_keeps ?_ ?_ ?_ ?_
    | with_reducible refine State.setFld_keeps ?_
    | with_reducible refine State.modKpr_keeps ?_ ?_
    | with_reducible refine State.raise_keeps ?_
    | with_reducible rfl
    | split

theorem State.kprSpread_keeps {s : State} {c : Spread} {n : Nat} (h_s : s.Inv) : (State.kprSpread s c n).Inv := by
  unfold State.kprSpread; try dsimp only
  repeat' first
    | with_reducible assumption
    | with_reducible refine State.kprTake_keeps ?_
    | with_reducible refine State.modKpr_keeps ?_ ?_
    | with_reducible rfl

theorem State.kprStartRec_keeps {s : State} {r : StartRec} (h_s : s.Inv) : (State.kprStartRec s r).Inv := by
  unfold State.kprStartRec; try dsimp only
  repeat' first
    | with_reducible assumption
    | with_reducible refine State.modBoot_keeps ?_
    | with_reducible refine State.kprTake_keeps ?_
    | with_reducible refine State.modKpr_keeps ?_ ?_
    | with_reducible rfl

theorem State.kprCal_keeps {s : State} {retrim : Bool} {gs : List (Nat × Word)} (h_s : s.Inv) : (State.kprCal s retrim gs).Inv := by
  unfold State.kprCal; try dsimp only
  repeat' first
    | with_reducible assumption
    | with_reducible refine State.kprTake_keeps ?_
    | with_reducible refine State.modKpr_keeps ?_ ?_
    | with_reducible rfl

theorem State.kprPmem_keeps {s : State} {gs : List (Nat × Word)} (h_s : s.Inv) : (State.kprPmem s gs).Inv := by
  unfold State.kprPmem; try dsimp only
  repeat' first
    | with_reducible assumption
    | with_reducible refine State.kprTake_keeps ?_
    | with_reducible refine State.modKpr_keeps ?_ ?_
    | with_reducible rfl

theorem State.kprRecord_keeps {s : State} {extremes : Bool} (h_s : s.Inv) : (State.kprRecord s extremes).Inv := by
  unfold State.kprRecord; try dsimp only
  repeat' first
    | with_reducible assumption
    | with_reducible refine State.kprTake_keeps ?_
    | with_reducible refine State.modKpr_keeps ?_ ?_
    | with_reducible refine State.modRec_keeps ?_ ?_ ?_ ?_
    | with_reducible rfl
    | split

theorem State.kprStore_keeps {s : State} {a : Nat} {w : Word} (h_s : s.Inv) : (State.kprStore s a w).Inv := by
  unfold State.kprStore; try dsimp only
  repeat' first
    | with_reducible assumption
    | exact Mem.setWord_wf _ _ h_s.cells
    | with_reducible refine State.modKpr_cells_keeps ?_ ?_
    | with_reducible refine State.raise_keeps ?_
    | with_reducible refine ite_keeps ?_ ?_
    | split

theorem State.kprCut_keeps {s : State} {fast : Bool} (h_s : s.Inv) : (State.kprCut s fast).Inv := by
  unfold State.kprCut; try dsimp only
  repeat' first
    | with_reducible assumption
    | exact h_s.cells
    | exact State.Inv.cells (State.modPower_keeps (State.kprStore_keeps h_s))
    | exact State.Inv.cells (State.modPower_keeps (State.modKpr_cells_keeps (State.fresh_keeps (State.kprStore_keeps h_s)) (Mem.setWord_wf _ _ (State.Inv.cells (State.fresh_keeps (State.kprStore_keeps h_s))))))
    | exact Mem.setWord_wf _ _ (State.Inv.cells (State.fresh_keeps (State.kprStore_keeps h_s)))
    | with_reducible refine State.kprStore_keeps ?_
    | with_reducible refine State.modPower_keeps ?_
    | with_reducible refine State.modKpr_cells_keeps ?_ ?_
    | with_reducible refine State.fresh_keeps ?_
    | with_reducible refine ite_keeps ?_ ?_
    | split

theorem State.calCheck_keeps {s : State} (h_s : s.Inv) : (State.calCheck s).Inv := by
  unfold State.calCheck; try dsimp only
  repeat' first
    | with_reducible assumption
    | with_reducible refine State.kprTouchAll_keeps ?_
    | with_reducible refine State.setBit_keeps ?_
    | with_reducible refine foldl_keeps (fun _ _ _ => ?_) ?_
    | split

/-! ### RecorderOps -/

theorem State.recGen_keeps {s : State} {r : Nat} (h_s : s.Inv) : (State.recGen s r).Inv := by
  unfold State.recGen; try dsimp only
  repeat' first
    | with_reducible assumption
    | with_reducible refine State.setFld_keeps ?_

theorem State.count_keeps {s : State} {off : Nat} {n : Nat} (h_s : s.Inv) : (State.count s off n).Inv := by
  unfold State.count; try dsimp only
  repeat' first
    | with_reducible assumption
    | exact Mem.set_wf _ _ h_s.stats
    | exact h_s.extremes
    | exact h_s.snap
    | with_reducible refine State.raise_keeps ?_
    | with_reducible refine State.modRec_mems_keeps ?_ ?_ ?_ ?_
    | with_reducible refine ite_keeps ?_ ?_

theorem State.extreme_keeps {s : State} {k : Nat} {v : Int} {highest : Bool} (h_s : s.Inv) : (State.extreme s k v highest).Inv := by
  unfold State.extreme; try dsimp only
  repeat' first
    | with_reducible assumption
    | exact h_s.stats
    | exact h_s.snap
    | exact Mem.set_wf _ _ (Mem.set_wf _ _ (Mem.set_wf _ _ h_s.extremes))
    | with_reducible refine State.recGen_keeps ?_
    | with_reducible refine State.modRec_mems_keeps ?_ ?_ ?_ ?_
    | with_reducible refine State.raise_keeps ?_
    | with_reducible refine ite_keeps ?_ ?_

theorem State.lostReport_keeps {s : State} {sev : Nat} (h_s : s.Inv) : (State.lostReport s sev).Inv := by
  unfold State.lostReport; try dsimp only
  repeat' first
    | with_reducible assumption
    | with_reducible refine State.count_keeps ?_
    | with_reducible refine State.raise_keeps ?_

theorem State.enqueue_keeps {s : State} {r : Report} (h_s : s.Inv) : (State.enqueue s r).Inv := by
  unfold State.enqueue; try dsimp only
  repeat' first
    | with_reducible assumption
    | with_reducible refine State.lostReport_keeps ?_
    | with_reducible refine State.recGen_keeps ?_
    | with_reducible refine State.modRec_keeps ?_ ?_ ?_ ?_
    | with_reducible refine ite_keeps ?_ ?_
    | with_reducible rfl
    | split

theorem State.report_keeps {s : State} {scope cause sev : Nat} {chan : Option Nat} {detail : Word} (h_s : s.Inv) : (State.report s scope cause sev chan detail).Inv := by
  unfold State.report; try dsimp only
  repeat' first
    | with_reducible assumption
    | with_reducible refine State.kprTake_keeps ?_
    | with_reducible refine State.enqueue_keeps ?_
    | with_reducible refine State.count_keeps ?_

/-! ### EngineOps -/

theorem State.takeTop_keeps {s : State} {n : Chan} (h_s : s.Inv) : (State.takeTop s n).Inv := by
  unfold State.takeTop; try dsimp only
  repeat' first
    | with_reducible assumption
    | with_reducible refine State.modChan_keeps ?_

theorem State.drawJitter_keeps {s : State} {n : Chan} (h_s : s.Inv) : (State.drawJitter s n).Inv := by
  unfold State.drawJitter; try dsimp only
  repeat' first
    | with_reducible assumption
    | with_reducible refine State.modChan_keeps ?_
    | with_reducible refine State.fresh_keeps ?_
    | with_reducible refine ite_keeps ?_ ?_

theorem State.allNeedLoad_keeps {s : State} (h_s : s.Inv) : (State.allNeedLoad s).Inv := by
  unfold State.allNeedLoad; try dsimp only
  repeat' first
    | with_reducible assumption
    | with_reducible refine State.modChan_keeps ?_
    | with_reducible refine State.forAll_keeps (fun _ _ _ => ?_) ?_

theorem State.allPllLoad_keeps {s : State} (h_s : s.Inv) : (State.allPllLoad s).Inv := by
  unfold State.allPllLoad; try dsimp only
  repeat' first
    | with_reducible assumption
    | with_reducible refine State.modChan_keeps ?_
    | with_reducible refine State.forAll_keeps (fun _ _ _ => ?_) ?_

theorem State.writeShadow_keeps {s : State} {a : Nat} {w : Word} (h_s : s.Inv) : (State.writeShadow s a w).Inv := by
  unfold State.writeShadow; try dsimp only
  repeat' first
    | with_reducible assumption
    | with_reducible refine State.modEngine_keeps ?_
    | with_reducible refine State.setReg_keeps ?_

theorem State.setShadow_keeps {s : State} {f : Fld} {v : Nat} (h_s : s.Inv) : (State.setShadow s f v).Inv := by
  unfold State.setShadow; try dsimp only
  repeat' first
    | with_reducible assumption
    | with_reducible refine State.writeShadow_keeps ?_

theorem State.countMinPulse_keeps {s : State} {n : Chan} {k : MinPulse} (h_s : s.Inv) : (State.countMinPulse s n k).Inv := by
  unfold State.countMinPulse; try dsimp only
  repeat' first
    | with_reducible assumption
    | with_reducible refine State.satInc_keeps ?_
    | with_reducible refine State.count_keeps ?_

/-! ### LoopOps -/

theorem State.alertSlot_keeps {s : State} {v : Port} {slot : Fin 2} {bit : Nat} (h_s : s.Inv) : (State.alertSlot s v slot bit).Inv := by
  unfold State.alertSlot; try dsimp only
  repeat' first
    | with_reducible assumption
    | with_reducible refine State.setFld_keeps ?_

theorem State.alertLoop_keeps {s : State} {l : Loop} {bit : Nat} (h_s : s.Inv) : (State.alertLoop s l bit).Inv := by
  unfold State.alertLoop; try dsimp only
  repeat' first
    | with_reducible assumption
    | with_reducible refine State.alertSlot_keeps ?_
    | with_reducible refine ite_keeps ?_ ?_
    | with_reducible refine State.forAll_keeps (fun _ _ _ => ?_) ?_

theorem State.setLoopSt_keeps {s : State} {l : Loop} {v : Nat} (h_s : s.Inv) : (State.setLoopSt s l v).Inv := by
  unfold State.setLoopSt; try dsimp only
  repeat' first
    | with_reducible assumption
    | with_reducible refine State.alertLoop_keeps ?_
    | with_reducible refine State.modLoop_keeps ?_
    | with_reducible refine State.setFld_keeps ?_
    | with_reducible refine State.setBit_keeps ?_
    | with_reducible refine ite_keeps ?_ ?_

theorem State.setOrder_keeps {s : State} {l : Loop} {order : List Chan} (h_s : s.Inv) : (State.setOrder s l order).Inv := by
  unfold State.setOrder; try dsimp only
  repeat' first
    | with_reducible assumption
    | with_reducible refine foldl_keeps (fun _ _ _ => ?_) ?_
    | with_reducible refine State.modChan_keeps ?_
    | with_reducible refine State.modLoop_keeps ?_
    | with_reducible refine State.setFld_keeps ?_
    | with_reducible refine ite_keeps ?_ ?_

theorem State.activeHalves_keeps {s : State} {l : Loop} (h_s : s.Inv) : (State.activeHalves s l).Inv := by
  unfold State.activeHalves; try dsimp only
  repeat' first
    | with_reducible assumption
    | with_reducible refine State.modChan_keeps ?_
    | with_reducible refine foldl_keeps (fun _ _ _ => ?_) ?_

theorem State.stopInject_keeps {s : State} {l : Loop} {result : Nat} (h_s : s.Inv) : (State.stopInject s l result).Inv := by
  unfold State.stopInject; try dsimp only
  repeat' first
    | with_reducible assumption
    | with_reducible refine State.modLoop_keeps ?_
    | with_reducible refine State.setFld_keeps ?_
    | with_reducible refine State.setBit_keeps ?_
    | with_reducible refine State.raise_keeps ?_
    | with_reducible refine ite_keeps ?_ ?_
    | split

theorem State.endInject_keeps {s : State} {l : Loop} {result : Nat} (h_s : s.Inv) : (State.endInject s l result).Inv := by
  unfold State.endInject; try dsimp only
  repeat' first
    | with_reducible assumption
    | with_reducible refine State.modLoop_keeps ?_
    | with_reducible refine State.setFld_keeps ?_
    | with_reducible refine State.setBit_keeps ?_
    | with_reducible refine State.raise_keeps ?_

theorem State.windowSat_keeps {s : State} {l : Loop} {codes : List Nat} (h_s : s.Inv) : (State.windowSat s l codes).Inv := by
  unfold State.windowSat; try dsimp only
  repeat' first
    | with_reducible assumption
    | with_reducible refine State.stopInject_keeps ?_
    | with_reducible refine State.setBit_keeps ?_
    | with_reducible refine ite_keeps ?_ ?_

theorem State.loopHalf_keeps {s : State} {l : Loop} {h : HalfState} (h_s : s.Inv) : (State.loopHalf s l h).Inv := by
  unfold State.loopHalf; try dsimp only
  repeat' first
    | with_reducible assumption
    | with_reducible refine foldl_keeps (fun _ _ _ => ?_) ?_
    | with_reducible refine State.modChan_keeps ?_

theorem State.loopMid_keeps {s : State} {l : Loop} (h_s : s.Inv) : (State.loopMid s l).Inv := by
  unfold State.loopMid; try dsimp only
  repeat' first
    | with_reducible assumption
    | with_reducible refine foldl_keeps (fun _ _ _ => ?_) ?_
    | with_reducible refine State.modChan_keeps ?_

theorem State.loopTrip_keeps {s : State} {l : Loop} {on : Bool} (h_s : s.Inv) : (State.loopTrip s l on).Inv := by
  unfold State.loopTrip; try dsimp only
  repeat' first
    | with_reducible assumption
    | with_reducible refine foldl_keeps (fun _ _ _ => ?_) ?_
    | with_reducible refine State.modChan_keeps ?_

theorem State.clearSc_keeps {s : State} {l : Loop} (h_s : s.Inv) : (State.clearSc s l).Inv := by
  unfold State.clearSc; try dsimp only
  repeat' first
    | with_reducible assumption
    | with_reducible refine State.modChan_keeps ?_
    | with_reducible refine foldl_keeps (fun _ _ _ => ?_) ?_

theorem State.startAt_keeps {s : State} {l : Loop} (h_s : s.Inv) : (State.startAt s l).Inv := by
  unfold State.startAt; try dsimp only
  repeat' first
    | with_reducible assumption
    | with_reducible refine State.setLoopSt_keeps ?_
    | with_reducible refine State.loopTrip_keeps ?_
    | with_reducible refine State.setOrder_keeps ?_
    | with_reducible refine State.loopMid_keeps ?_
    | with_reducible refine State.modLoop_keeps ?_
    | with_reducible refine State.setBit_keeps ?_
    | with_reducible refine State.setFld_keeps ?_

theorem State.onCommand_keeps {s : State} {l : Loop} (h_s : s.Inv) : (State.onCommand s l).Inv := by
  unfold State.onCommand; try dsimp only
  repeat' first
    | with_reducible assumption
    | with_reducible refine ite_keeps ?_ ?_
    | with_reducible refine State.setLoopSt_keeps ?_
    | with_reducible refine State.startAt_keeps ?_
    | with_reducible refine State.setFld_keeps ?_

theorem State.preset_keeps {s : State} {l : Loop} {vref : Nat} (h_s : s.Inv) : (State.preset s l vref).Inv := by
  unfold State.preset; try dsimp only
  repeat' first
    | with_reducible assumption
    | with_reducible refine State.modLoop_keeps ?_

theorem State.presetPort_keeps {s : State} {l : Loop} (h_s : s.Inv) : (State.presetPort s l).Inv := by
  unfold State.presetPort; try dsimp only
  repeat' first
    | with_reducible assumption
    | with_reducible refine State.modLoop_keeps ?_
    | with_reducible refine State.fresh_keeps ?_

theorem State.beginPwm_keeps {s : State} {l : Loop} (h_s : s.Inv) : (State.beginPwm s l).Inv := by
  unfold State.beginPwm; try dsimp only
  repeat' first
    | with_reducible assumption
    | with_reducible refine State.activeHalves_keeps ?_
    | with_reducible refine State.setOrder_keeps ?_

theorem State.beginEmulating_keeps {s : State} {l : Loop} (h_s : s.Inv) : (State.beginEmulating s l).Inv := by
  unfold State.beginEmulating; try dsimp only
  repeat' first
    | with_reducible assumption
    | with_reducible refine State.modChan_keeps ?_
    | with_reducible refine foldl_keeps (fun _ _ _ => ?_) ?_

theorem State.enterRegulation_keeps {s : State} {l : Loop} (h_s : s.Inv) : (State.enterRegulation s l).Inv := by
  unfold State.enterRegulation; try dsimp only
  repeat' first
    | with_reducible assumption
    | with_reducible refine State.setLoopSt_keeps ?_
    | with_reducible refine State.modLoop_keeps ?_

theorem State.rampPasses_keeps {s : State} {l : Loop} (h_s : s.Inv) : (State.rampPasses s l).Inv := by
  unfold State.rampPasses; try dsimp only
  repeat' first
    | with_reducible assumption
    | with_reducible refine State.beginEmulating_keeps ?_
    | with_reducible refine State.beginPwm_keeps ?_
    | with_reducible refine State.modLoop_keeps ?_
    | with_reducible refine State.setFld_keeps ?_
    | with_reducible refine State.preset_keeps ?_

theorem State.startEndsBelow_keeps {s : State} {l : Loop} (h_s : s.Inv) : (State.startEndsBelow s l).Inv := by
  unfold State.startEndsBelow; try dsimp only
  repeat' first
    | with_reducible assumption
    | with_reducible refine State.enterRegulation_keeps ?_
    | with_reducible refine State.beginPwm_keeps ?_
    | with_reducible refine State.modLoop_keeps ?_
    | with_reducible refine State.setFld_keeps ?_
    | with_reducible refine State.preset_keeps ?_

theorem State.loopEnds_keeps {s : State} {l : Loop} (h_s : s.Inv) : (State.loopEnds s l).Inv := by
  unfold State.loopEnds; try dsimp only
  repeat' first
    | with_reducible assumption
    | with_reducible refine State.setOrder_keeps ?_
    | with_reducible refine State.modLoop_keeps ?_
    | with_reducible refine State.setBit_keeps ?_
    | split

theorem State.stopMid_keeps {s : State} {l : Loop} (h_s : s.Inv) : (State.stopMid s l).Inv := by
  unfold State.stopMid; try dsimp only
  repeat' first
    | with_reducible assumption
    | with_reducible refine State.loopHalf_keeps ?_
    | with_reducible refine State.clearSc_keeps ?_
    | with_reducible refine State.modLoop_keeps ?_

theorem State.stopLoop_keeps {s : State} {l : Loop} (h_s : s.Inv) : (State.stopLoop s l).Inv := by
  unfold State.stopLoop; try dsimp only
  repeat' first
    | with_reducible assumption
    | with_reducible refine State.loopMid_keeps ?_
    | with_reducible refine State.setLoopSt_keeps ?_
    | with_reducible refine State.stopMid_keeps ?_
    | with_reducible refine State.modLoop_keeps ?_
    | with_reducible refine ite_keeps ?_ ?_

theorem State.overrideTargets_keeps {s : State} {l : Loop} {keep : Option (Port × Fin 2)} (h_s : s.Inv) : (State.overrideTargets s l keep).Inv := by
  unfold State.overrideTargets; try dsimp only
  repeat' first
    | with_reducible assumption
    | with_reducible refine ite_keeps ?_ ?_
    | with_reducible refine State.alertSlot_keeps ?_
    | with_reducible refine State.setFld_keeps ?_
    | with_reducible refine State.forAll_keeps (fun _ _ _ => ?_) ?_

/-! ### PortOps -/

theorem State.setTc_keeps {s : State} {p : Port} {v : Nat} (h_s : s.Inv) : (State.setTc s p v).Inv := by
  unfold State.setTc; try dsimp only
  repeat' first
    | with_reducible assumption
    | with_reducible refine State.setFld_keeps ?_

theorem State.pdEvent_keeps {s : State} {p : Port} {bit : Nat} (h_s : s.Inv) : (State.pdEvent s p bit).Inv := by
  unfold State.pdEvent; try dsimp only
  repeat' first
    | with_reducible assumption
    | with_reducible refine State.setFld_keeps ?_

theorem State.setMode_keeps {s : State} {p : Port} {v : Nat} (h_s : s.Inv) : (State.setMode s p v).Inv := by
  unfold State.setMode; try dsimp only
  repeat' first
    | with_reducible assumption
    | with_reducible refine State.setFld_keeps ?_

theorem State.closeFets_keeps {s : State} {p : Port} (h_s : s.Inv) : (State.closeFets s p).Inv := by
  unfold State.closeFets; try dsimp only
  repeat' first
    | with_reducible assumption
    | with_reducible refine State.modPath_keeps ?_
    | with_reducible refine State.setBit_keeps ?_

theorem State.openFets_keeps {s : State} {p : Port} (h_s : s.Inv) : (State.openFets s p).Inv := by
  unfold State.openFets; try dsimp only
  repeat' first
    | with_reducible assumption
    | with_reducible refine State.setMode_keeps ?_
    | with_reducible refine State.modPath_keeps ?_
    | with_reducible refine State.setFld_keeps ?_
    | with_reducible refine State.setBit_keeps ?_
    | with_reducible refine ite_keeps ?_ ?_

theorem State.discharge_keeps {s : State} {p : Port} (h_s : s.Inv) : (State.discharge s p).Inv := by
  unfold State.discharge; try dsimp only
  repeat' first
    | with_reducible assumption
    | with_reducible refine State.setBit_keeps ?_
    | with_reducible refine ite_keeps ?_ ?_

theorem State.pathOff_keeps {s : State} {p : Port} (h_s : s.Inv) : (State.pathOff s p).Inv := by
  unfold State.pathOff; try dsimp only
  repeat' first
    | with_reducible assumption
    | with_reducible refine State.loopMid_keeps ?_
    | with_reducible refine State.setLoopSt_keeps ?_
    | with_reducible refine State.loopTrip_keeps ?_
    | with_reducible refine State.setMode_keeps ?_
    | with_reducible refine State.modLoop_keeps ?_
    | with_reducible refine State.modPath_keeps ?_
    | with_reducible refine State.setFld_keeps ?_
    | with_reducible refine State.setBit_keeps ?_
    | with_reducible refine ite_keeps ?_ ?_

theorem State.loadLegs_keeps {s : State} {p : Port} (h_s : s.Inv) : (State.loadLegs s p).Inv := by
  unfold State.loadLegs; try dsimp only
  repeat' first
    | with_reducible assumption
    | with_reducible refine State.setShadow_keeps ?_
    | with_reducible refine State.setBit_keeps ?_
    | with_reducible refine State.setFld_keeps ?_

theorem State.startPort_keeps {s : State} {p : Port} {mode vref ilim : Nat} (h_s : s.Inv) : (State.startPort s p mode vref ilim).Inv := by
  unfold State.startPort; try dsimp only
  repeat' first
    | with_reducible assumption
    | with_reducible refine State.setLoopSt_keeps ?_
    | with_reducible refine State.loadLegs_keeps ?_
    | with_reducible refine State.loopTrip_keeps ?_
    | with_reducible refine State.setMode_keeps ?_
    | with_reducible refine State.modLoop_keeps ?_
    | with_reducible refine State.modPath_keeps ?_
    | with_reducible refine State.setFld_keeps ?_
    | with_reducible refine State.setBit_keeps ?_

theorem State.sourceStart_keeps {s : State} {p : Port} (h_s : s.Inv) : (State.sourceStart s p).Inv := by
  unfold State.sourceStart; try dsimp only
  repeat' first
    | with_reducible assumption
    | with_reducible refine State.startPort_keeps ?_
    | with_reducible refine State.fresh_keeps ?_

theorem State.sinkStart_keeps {s : State} {p : Port} (h_s : s.Inv) : (State.sinkStart s p).Inv := by
  unfold State.sinkStart; try dsimp only
  repeat' first
    | with_reducible assumption
    | with_reducible refine State.startPort_keeps ?_
    | with_reducible refine State.setFld_keeps ?_
    | with_reducible refine ite_keeps ?_ ?_

theorem State.endContract_keeps {s : State} {p : Port} (h_s : s.Inv) : (State.endContract s p).Inv := by
  unfold State.endContract; try dsimp only
  repeat' first
    | with_reducible assumption
    | with_reducible refine State.modPath_keeps ?_
    | with_reducible refine State.setBit_keeps ?_
    | with_reducible refine State.setReg_keeps ?_

theorem State.nextId_keeps {s : State} {p : Port} {line : Sop} (h_s : s.Inv) : (State.nextId s p line).Inv := by
  unfold State.nextId; try dsimp only
  repeat' first
    | with_reducible assumption
    | with_reducible refine State.modPort_keeps ?_

theorem State.vdmResult_keeps {s : State} {p : Port} {v : Nat} (h_s : s.Inv) : (State.vdmResult s p v).Inv := by
  unfold State.vdmResult; try dsimp only
  repeat' first
    | with_reducible assumption
    | with_reducible refine State.setFld_keeps ?_
    | with_reducible refine State.setBit_keeps ?_

theorem State.dropTx_keeps {s : State} {p : Port} {keep : PdTx → Bool} (h_s : s.Inv) : (State.dropTx s p keep).Inv := by
  unfold State.dropTx; try dsimp only
  repeat' first
    | with_reducible assumption
    | with_reducible refine State.vdmResult_keeps ?_
    | with_reducible refine State.modPort_keeps ?_
    | with_reducible refine State.nextId_keeps ?_
    | with_reducible refine ite_keeps ?_ ?_
    | split

theorem State.clearAms_keeps {s : State} {p : Port} (h_s : s.Inv) : (State.clearAms s p).Inv := by
  unfold State.clearAms; try dsimp only
  repeat' first
    | with_reducible assumption
    | with_reducible refine State.modPort_keeps ?_
    | with_reducible refine State.setBit_keeps ?_

theorem State.endAms_keeps {s : State} {p : Port} (h_s : s.Inv) : (State.endAms s p).Inv := by
  unfold State.endAms; try dsimp only
  repeat' first
    | with_reducible assumption
    | with_reducible refine State.vdmResult_keeps ?_
    | with_reducible refine State.clearAms_keeps ?_
    | with_reducible refine State.modPort_keeps ?_
    | with_reducible refine State.dropTx_keeps ?_
    | with_reducible refine ite_keeps ?_ ?_

theorem State.resetIds_keeps {s : State} {p : Port} (h_s : s.Inv) : (State.resetIds s p).Inv := by
  unfold State.resetIds; try dsimp only
  repeat' first
    | with_reducible assumption
    | with_reducible refine State.modPort_keeps ?_

theorem State.leaveModes_keeps {s : State} {p : Port} (h_s : s.Inv) : (State.leaveModes s p).Inv := by
  unfold State.leaveModes; try dsimp only
  repeat' first
    | with_reducible assumption
    | with_reducible refine State.pdEvent_keeps ?_
    | with_reducible refine State.setFld_keeps ?_
    | with_reducible refine ite_keeps ?_ ?_

theorem State.hardReset_keeps {s : State} {p : Port} {sent : Bool} (h_s : s.Inv) : (State.hardReset s p sent).Inv := by
  unfold State.hardReset; try dsimp only
  repeat' first
    | with_reducible assumption
    | with_reducible refine State.endContract_keeps ?_
    | with_reducible refine State.leaveModes_keeps ?_
    | with_reducible refine State.resetIds_keeps ?_
    | with_reducible refine State.openFets_keeps ?_
    | with_reducible refine State.pathOff_keeps ?_
    | with_reducible refine State.modPort_keeps ?_
    | with_reducible refine State.pdEvent_keeps ?_
    | with_reducible refine State.modPath_keeps ?_
    | with_reducible refine State.satInc_keeps ?_
    | with_reducible refine State.endAms_keeps ?_
    | with_reducible refine State.emit_keeps ?_
    | with_reducible refine ite_keeps ?_ ?_

theorem State.portStop_keeps {s : State} {p : Port} (h_s : s.Inv) : (State.portStop s p).Inv := by
  unfold State.portStop; try dsimp only
  repeat' first
    | with_reducible assumption
    | with_reducible refine State.discharge_keeps ?_
    | with_reducible refine State.hardReset_keeps ?_
    | with_reducible refine State.openFets_keeps ?_
    | with_reducible refine State.pathOff_keeps ?_
    | with_reducible refine ite_keeps ?_ ?_

theorem State.vconnOffNow_keeps {s : State} {p : Port} (h_s : s.Inv) : (State.vconnOffNow s p).Inv := by
  unfold State.vconnOffNow; try dsimp only
  repeat' first
    | with_reducible assumption
    | with_reducible refine State.modPort_keeps ?_
    | with_reducible refine State.setBit_keeps ?_

theorem State.latchRole_keeps {s : State} {p : Port} (h_s : s.Inv) : (State.latchRole s p).Inv := by
  unfold State.latchRole; try dsimp only
  repeat' first
    | with_reducible assumption
    | with_reducible refine State.modPort_keeps ?_

theorem State.unattached_keeps {s : State} {p : Port} (h_s : s.Inv) : (State.unattached s p).Inv := by
  unfold State.unattached; try dsimp only
  repeat' first
    | with_reducible assumption
    | with_reducible refine State.latchRole_keeps ?_
    | with_reducible refine State.setTc_keeps ?_

theorem State.detachBase_keeps {s : State} {p : Port} (h_s : s.Inv) : (State.detachBase s p).Inv := by
  unfold State.detachBase; try dsimp only
  repeat' first
    | with_reducible assumption
    | with_reducible refine ite_keeps ?_ ?_
    | with_reducible refine State.endContract_keeps ?_
    | with_reducible refine State.vconnOffNow_keeps ?_
    | with_reducible refine State.leaveModes_keeps ?_
    | with_reducible refine State.discharge_keeps ?_
    | with_reducible refine State.resetIds_keeps ?_
    | with_reducible refine State.openFets_keeps ?_
    | with_reducible refine State.modPath_keeps ?_
    | with_reducible refine State.pdEvent_keeps ?_
    | with_reducible refine State.modPort_keeps ?_
    | with_reducible refine State.pathOff_keeps ?_
    | with_reducible refine State.endAms_keeps ?_
    | with_reducible refine State.setBit_keeps ?_
    | with_reducible refine State.setFld_keeps ?_

theorem State.latchPort_keeps {s : State} {p : Port} (h_s : s.Inv) : (State.latchPort s p).Inv := by
  unfold State.latchPort; try dsimp only
  repeat' first
    | with_reducible assumption
    | with_reducible refine State.setTc_keeps ?_
    | with_reducible refine State.detachBase_keeps ?_
    | with_reducible refine State.pathOff_keeps ?_
    | with_reducible refine State.openFets_keeps ?_
    | with_reducible refine ite_keeps ?_ ?_

theorem State.errorRecovery_keeps {s : State} {p : Port} (h_s : s.Inv) : (State.errorRecovery s p).Inv := by
  unfold State.errorRecovery; try dsimp only
  repeat' first
    | with_reducible assumption
    | with_reducible refine State.detachBase_keeps ?_
    | with_reducible refine State.latchRole_keeps ?_
    | with_reducible refine State.setTc_keeps ?_
    | with_reducible refine ite_keeps ?_ ?_

/-! ### FaultOps -/

theorem State.latchOff_keeps {s : State} {l : Loop} {cause : Nat} (h_s : s.Inv) : (State.latchOff s l cause).Inv := by
  unfold State.latchOff; try dsimp only
  repeat' first
    | with_reducible assumption
    | with_reducible refine State.latchPort_keeps ?_
    | with_reducible refine State.loopMid_keeps ?_
    | with_reducible refine State.setLoopSt_keeps ?_
    | with_reducible refine State.loopTrip_keeps ?_
    | with_reducible refine State.clearSc_keeps ?_
    | with_reducible refine State.modLoop_keeps ?_
    | with_reducible refine State.setFld_keeps ?_
    | with_reducible refine State.setBit_keeps ?_
    | with_reducible refine ite_keeps ?_ ?_
    | split

theorem State.hiccupStop_keeps {s : State} {l : Loop} {fallback : Bool} (h_s : s.Inv) : (State.hiccupStop s l fallback).Inv := by
  unfold State.hiccupStop; try dsimp only
  repeat' first
    | with_reducible assumption
    | with_reducible refine State.loopMid_keeps ?_
    | with_reducible refine State.stopInject_keeps ?_
    | with_reducible refine State.setLoopSt_keeps ?_
    | with_reducible refine State.loopTrip_keeps ?_
    | with_reducible refine State.clearSc_keeps ?_
    | with_reducible refine State.modLoop_keeps ?_
    | with_reducible refine State.setBit_keeps ?_

theorem State.ovLatch_keeps {s : State} {l : Loop} {cause : Nat} (h_s : s.Inv) : (State.ovLatch s l cause).Inv := by
  unfold State.ovLatch; try dsimp only
  repeat' first
    | with_reducible assumption
    | with_reducible refine State.setLoopSt_keeps ?_
    | with_reducible refine State.latchPort_keeps ?_
    | with_reducible refine State.modLoop_keeps ?_
    | with_reducible refine State.clearSc_keeps ?_
    | with_reducible refine State.setBit_keeps ?_
    | with_reducible refine State.setFld_keeps ?_
    | split

theorem State.faultAction_keeps {s : State} {l : Loop} {q : QFault} (h_s : s.Inv) : (State.faultAction s l q).Inv := by
  unfold State.faultAction; try dsimp only
  repeat' first
    | with_reducible assumption
    | with_reducible refine ite_keeps ?_ ?_
    | with_reducible refine State.hiccupStop_keeps ?_
    | with_reducible refine State.portStop_keeps ?_
    | with_reducible refine State.latchOff_keeps ?_
    | with_reducible refine State.modChan_keeps ?_
    | with_reducible refine State.modPath_keeps ?_
    | with_reducible refine State.pathOff_keeps ?_
    | split

theorem State.setHandling_keeps {s : State} {l : Loop} {q : Option QFault} (h_s : s.Inv) : (State.setHandling s l q).Inv := by
  unfold State.setHandling; try dsimp only
  repeat' first
    | with_reducible assumption
    | with_reducible refine State.modLoop_keeps ?_
    | with_reducible refine State.setFld_keeps ?_
    | split

theorem State.setQueue_keeps {s : State} {l : Loop} {q : List QFault} (h_s : s.Inv) : (State.setQueue s l q).Inv := by
  unfold State.setQueue; try dsimp only
  repeat' first
    | with_reducible assumption
    | with_reducible refine State.modLoop_keeps ?_
    | with_reducible refine State.setFld_keeps ?_

theorem State.takeQueue_keeps {fuel : Nat} {l : Loop} {s : State} (h_s : s.Inv) : (State.takeQueue fuel l s).Inv := by
  induction fuel generalizing s with
  | zero => exact State.setHandling_keeps h_s
  | succ fuel ih =>
    unfold State.takeQueue
    split
    · exact State.setHandling_keeps h_s
    · dsimp only
      refine ite_keeps (ih (State.setQueue_keeps h_s)) (ite_keeps (ih ?_) ?_) <;>
        exact State.faultAction_keeps (State.setHandling_keeps (State.setQueue_keeps h_s))

theorem State.endHandling_keeps {s : State} {l : Loop} (h_s : s.Inv) : (State.endHandling s l).Inv :=
  State.takeQueue_keeps h_s

theorem State.endIf_keeps {s : State} {l : Loop} {p : QFault → Bool} (h_s : s.Inv) : (State.endIf s l p).Inv := by
  unfold State.endIf; try dsimp only
  repeat' first
    | with_reducible assumption
    | with_reducible refine State.endHandling_keeps ?_
    | with_reducible refine ite_keeps ?_ ?_
    | split

theorem State.startHandling_keeps {s : State} {l : Loop} {q : QFault} (h_s : s.Inv) : (State.startHandling s l q).Inv := by
  unfold State.startHandling; try dsimp only
  repeat' first
    | with_reducible assumption
    | with_reducible refine State.faultAction_keeps ?_
    | with_reducible refine State.setHandling_keeps ?_
    | with_reducible refine State.endHandling_keeps ?_
    | with_reducible refine ite_keeps ?_ ?_

theorem State.raiseFault_keeps {s : State} {l : Loop} {sev : Nat} (h_s : s.Inv) : (State.raiseFault s l sev).Inv := by
  unfold State.raiseFault; try dsimp only
  repeat' first
    | with_reducible assumption
    | with_reducible refine State.raise_keeps ?_
    | with_reducible refine ite_keeps ?_ ?_
    | split

theorem State.latchAll_keeps {s : State} {f : Nat → Fld} (h_s : s.Inv) : (State.latchAll s f).Inv := by
  unfold State.latchAll; try dsimp only
  repeat' first
    | with_reducible assumption
    | with_reducible refine State.setFld_keeps ?_
    | with_reducible refine State.forAll_keeps (fun _ _ _ => ?_) ?_

theorem State.pmbusFault_keeps {s : State} {l : Loop} {cause sev : Nat} (h_s : s.Inv) : (State.pmbusFault s l cause sev).Inv := by
  unfold State.pmbusFault; try dsimp only
  repeat' first
    | with_reducible assumption
    | with_reducible refine State.latchAll_keeps ?_
    | with_reducible refine ite_keeps ?_ ?_
    | split

theorem State.hitRetrim_keeps {s : State} {l : Loop} (h_s : s.Inv) : (State.hitRetrim s l).Inv := by
  unfold State.hitRetrim; try dsimp only
  repeat' (exact State.Inv.of_same h_s rfl rfl rfl rfl rfl rfl rfl rfl rfl)

theorem State.recordFault_keeps {s : State} {l : Loop} {cause sev : Nat} {chan : Option Chan} {detail : Word} (h_s : s.Inv) : (State.recordFault s l cause sev chan detail).Inv := by
  unfold State.recordFault; try dsimp only
  repeat' first
    | with_reducible assumption
    | with_reducible refine State.raiseFault_keeps ?_
    | with_reducible refine State.pmbusFault_keeps ?_
    | with_reducible refine State.stopInject_keeps ?_
    | with_reducible refine State.alertLoop_keeps ?_
    | with_reducible refine State.hitRetrim_keeps ?_
    | with_reducible refine State.report_keeps ?_
    | with_reducible refine ite_keeps ?_ ?_

theorem State.abandonHandling_keeps {s : State} {l : Loop} (h_s : s.Inv) : (State.abandonHandling s l).Inv := by
  unfold State.abandonHandling; try dsimp only
  repeat' first
    | with_reducible assumption
    | with_reducible refine State.modChan_keeps ?_
    | with_reducible refine ite_keeps ?_ ?_
    | split

theorem State.escalate_keeps {s : State} {l : Loop} (h_s : s.Inv) : (State.escalate s l).Inv := by
  unfold State.escalate; try dsimp only
  repeat' first
    | with_reducible assumption
    | with_reducible refine State.abandonHandling_keeps ?_
    | with_reducible refine State.startHandling_keeps ?_
    | with_reducible refine State.recordFault_keeps ?_
    | with_reducible refine State.setQueue_keeps ?_
    | with_reducible refine State.satInc_keeps ?_
    | with_reducible refine State.setBit_keeps ?_
    | with_reducible refine ite_keeps ?_ ?_
    | with_reducible refine foldl_keeps (fun _ _ _ => ?_) ?_
    | split

theorem State.ladder_keeps {s : State} {l : Loop} {q : QFault} (h_s : s.Inv) : (State.ladder s l q).Inv := by
  unfold State.ladder; try dsimp only
  repeat' first
    | with_reducible assumption
    | with_reducible refine ite_keeps ?_ ?_
    | with_reducible refine State.abandonHandling_keeps ?_
    | with_reducible refine State.startHandling_keeps ?_
    | with_reducible refine State.faultAction_keeps ?_
    | with_reducible refine State.escalate_keeps ?_
    | with_reducible refine State.setQueue_keeps ?_
    | with_reducible refine State.setFld_keeps ?_
    | with_reducible refine State.satInc_keeps ?_
    | split

theorem State.settleLadder_keeps {s : State} {l : Loop} (h_s : s.Inv) : (State.settleLadder s l).Inv := by
  unfold State.settleLadder; try dsimp only
  repeat' first
    | with_reducible assumption
    | with_reducible refine State.endHandling_keeps ?_
    | with_reducible refine ite_keeps ?_ ?_
    | split

theorem State.actAtOnce_keeps {s : State} {l : Loop} {cause sev : Nat} (h_s : s.Inv) : (State.actAtOnce s l cause sev).Inv := by
  unfold State.actAtOnce; try dsimp only
  repeat' first
    | with_reducible assumption
    | with_reducible refine State.faultAction_keeps ?_
    | with_reducible refine State.loopTrip_keeps ?_
    | with_reducible refine State.ovLatch_keeps ?_
    | with_reducible refine ite_keeps ?_ ?_
    | split

theorem State.hiccupEnd_keeps {s : State} {l : Loop} {cause : Nat} (h_s : s.Inv) : (State.hiccupEnd s l cause).Inv := by
  unfold State.hiccupEnd; try dsimp only
  repeat' first
    | with_reducible assumption
    | with_reducible refine State.abandonHandling_keeps ?_
    | with_reducible refine State.startHandling_keeps ?_
    | with_reducible refine State.recordFault_keeps ?_
    | with_reducible refine State.loopTrip_keeps ?_
    | with_reducible refine State.setFld_keeps ?_
    | with_reducible refine ite_keeps ?_ ?_

theorem State.faultSev_keeps {s : State} {l : Loop} {cause sev : Nat} {chan : Option Chan} {detail : Word} (h_s : s.Inv) : (State.faultSev s l cause sev chan detail).Inv := by
  unfold State.faultSev; try dsimp only
  repeat' first
    | with_reducible assumption
    | with_reducible refine State.settleLadder_keeps ?_
    | with_reducible refine State.recordFault_keeps ?_
    | with_reducible refine State.hiccupEnd_keeps ?_
    | with_reducible refine State.actAtOnce_keeps ?_
    | with_reducible refine State.ladder_keeps ?_
    | with_reducible refine State.raise_keeps ?_
    | with_reducible refine ite_keeps ?_ ?_

theorem State.fault_keeps {s : State} {l : Loop} {cause : Nat} {chan : Option Chan} {detail : Word} (h_s : s.Inv) : (State.fault s l cause chan detail).Inv := by
  unfold State.fault; try dsimp only
  repeat' first
    | with_reducible assumption
    | with_reducible refine State.faultSev_keeps ?_

theorem State.handover_keeps {s : State} {l : Loop} (h_s : s.Inv) : (State.handover s l).Inv := by
  unfold State.handover; try dsimp only
  repeat' first
    | with_reducible assumption
    | with_reducible refine ite_keeps ?_ ?_
    | with_reducible refine State.setLoopSt_keeps ?_
    | with_reducible refine State.modLoop_keeps ?_
    | with_reducible refine State.setBit_keeps ?_
    | with_reducible refine State.fault_keeps ?_

theorem State.reachRegulation_keeps {s : State} {l : Loop} (h_s : s.Inv) : (State.reachRegulation s l).Inv := by
  unfold State.reachRegulation; try dsimp only
  repeat' first
    | with_reducible assumption
    | with_reducible refine State.enterRegulation_keeps ?_
    | with_reducible refine State.endIf_keeps ?_

theorem State.endHiccup_keeps {s : State} {l : Loop} (h_s : s.Inv) : (State.endHiccup s l).Inv := by
  unfold State.endHiccup; try dsimp only
  repeat' first
    | with_reducible assumption
    | with_reducible refine State.setLoopSt_keeps ?_
    | with_reducible refine State.loopEnds_keeps ?_
    | with_reducible refine State.modLoop_keeps ?_
    | with_reducible refine State.setBit_keeps ?_
    | with_reducible refine State.setFld_keeps ?_
    | with_reducible refine State.endIf_keeps ?_

theorem State.offCommand_keeps {s : State} {l : Loop} (h_s : s.Inv) : (State.offCommand s l).Inv := by
  unfold State.offCommand; try dsimp only
  repeat' first
    | with_reducible assumption
    | with_reducible refine State.endHiccup_keeps ?_
    | with_reducible refine State.stopLoop_keeps ?_
    | with_reducible refine ite_keeps ?_ ?_

theorem State.writeVref_keeps {s : State} {l : Loop} {code : Nat} {by_ : Option (Port × Fin 2)} (h_s : s.Inv) : (State.writeVref s l code by_).Inv := by
  unfold State.writeVref; try dsimp only
  repeat' first
    | with_reducible assumption
    | with_reducible refine State.overrideTargets_keeps ?_
    | with_reducible refine State.reachRegulation_keeps ?_
    | with_reducible refine State.startEndsBelow_keeps ?_
    | with_reducible refine State.offCommand_keeps ?_
    | with_reducible refine State.stopInject_keeps ?_
    | with_reducible refine State.setFld_keeps ?_
    | with_reducible refine State.setBit_keeps ?_
    | with_reducible refine State.endIf_keeps ?_
    | with_reducible refine ite_keeps ?_ ?_

theorem State.loopOffDone_keeps {s : State} {l : Loop} (h_s : s.Inv) : (State.loopOffDone s l).Inv := by
  unfold State.loopOffDone; try dsimp only
  repeat' first
    | with_reducible assumption
    | with_reducible refine State.setLoopSt_keeps ?_
    | with_reducible refine State.loopEnds_keeps ?_
    | with_reducible refine State.modLoop_keeps ?_
    | with_reducible refine State.endIf_keeps ?_

theorem State.detach_keeps {s : State} {p : Port} (h_s : s.Inv) : (State.detach s p).Inv := by
  unfold State.detach; try dsimp only
  repeat' first
    | with_reducible assumption
    | with_reducible refine State.detachBase_keeps ?_
    | with_reducible refine State.endIf_keeps ?_

end Sys2Proof.Machine
end

