-- ==== Sys2Proof/Laws/Keeps2.lean ====
section
/-!
SUPPORT. What the operations of the engine, the loops, protection and the budget keep: the invariant of the state, one lemma for each.
Each proof opens the operation and cites the lemmas of what it calls.
-/

set_option linter.unusedTactic false
set_option linter.unreachableTactic false

namespace Sys2Proof.Machine

/-! ### Engine -/

theorem State.unlockConv_keeps {s : State} (h_s : s.Inv) : (State.unlockConv s).Inv := by
  unfold State.unlockConv; try dsimp only
  repeat' (exact State.Inv.of_same h_s rfl rfl rfl rfl rfl rfl rfl rfl rfl)

theorem State.pllOff_keeps {s : State} (h_s : s.Inv) : (State.pllOff s).Inv := by
  unfold State.pllOff; try dsimp only
  repeat' first
    | with_reducible assumption
    | with_reducible refine State.unlockConv_keeps ?_
    | with_reducible refine State.modEngine_keeps ?_
    | with_reducible refine State.setFld_keeps ?_
    | with_reducible refine State.setBit_keeps ?_

theorem State.startTimebase_keeps {s : State} (h_s : s.Inv) : (State.startTimebase s).Inv := by
  unfold State.startTimebase; try dsimp only
  repeat' first
    | with_reducible assumption
    | with_reducible refine State.modEngine_keeps ?_
    | with_reducible refine ite_keeps ?_ ?_

theorem State.settlePll_keeps {s : State} (h_s : s.Inv) : (State.settlePll s).Inv := by
  unfold State.settlePll; try dsimp only
  repeat' first
    | with_reducible assumption
    | with_reducible refine State.pllOff_keeps ?_
    | with_reducible refine ite_keeps ?_ ?_

theorem State.settleSync_keeps {s : State} (h_s : s.Inv) : (State.settleSync s).Inv := by
  unfold State.settleSync; try dsimp only
  repeat' first
    | with_reducible assumption
    | with_reducible refine State.setBit_keeps ?_

theorem State.chooseRef_keeps {s : State} (h_s : s.Inv) : (State.chooseRef s).Inv := by
  unfold State.chooseRef; try dsimp only
  repeat' first
    | with_reducible assumption
    | with_reducible refine State.settleSync_keeps ?_
    | with_reducible refine State.modEngine_keeps ?_
    | with_reducible refine State.setBit_keeps ?_
    | with_reducible refine State.fresh_keeps ?_
    | with_reducible refine ite_keeps ?_ ?_

theorem State.moveValley_keeps {s : State} (h_s : s.Inv) : (State.moveValley s).Inv := by
  unfold State.moveValley; try dsimp only
  repeat' first
    | with_reducible assumption
    | with_reducible refine State.settleSync_keeps ?_
    | with_reducible refine State.modEngine_keeps ?_

theorem State.faultHold_keeps {s : State} {n : Chan} (h_s : s.Inv) : (State.faultHold s n).Inv := by
  unfold State.faultHold; try dsimp only
  repeat' first
    | with_reducible assumption
    | with_reducible refine State.setFld_keeps ?_
    | with_reducible refine State.setBit_keeps ?_

theorem State.faultnLoops_keeps {s : State} {held : List Chan} (h_s : s.Inv) : (State.faultnLoops s held).Inv := by
  unfold State.faultnLoops; try dsimp only
  repeat' first
    | with_reducible assumption
    | with_reducible refine State.fault_keeps ?_
    | with_reducible refine State.forAll_keeps (fun _ _ _ => ?_) ?_
    | split

theorem State.commitChan_keeps {s : State} {late : Nat} {n : Chan} (h_s : s.Inv) : (State.commitChan s late n).Inv := by
  unfold State.commitChan; try dsimp only
  repeat' first
    | with_reducible assumption
    | with_reducible refine ite_keeps ?_ ?_
    | with_reducible refine foldl_keeps (fun _ _ _ => ?_) ?_
    | with_reducible refine State.faultHold_keeps ?_
    | with_reducible refine State.modChan_keeps ?_
    | with_reducible refine State.setAct_keeps ?_
    | with_reducible refine State.setBit_keeps ?_

theorem State.commitAll_keeps {s : State} {late : Nat} (h_s : s.Inv) : (State.commitAll s late).Inv := by
  unfold State.commitAll; try dsimp only
  repeat' first
    | with_reducible assumption
    | with_reducible refine foldl_keeps (fun _ _ _ => ?_) ?_
    | with_reducible refine State.commitChan_keeps ?_
    | with_reducible refine State.takeTop_keeps ?_
    | with_reducible refine State.setBit_keeps ?_
    | with_reducible refine State.forAll_keeps (fun _ _ _ => ?_) ?_

theorem State.reload_keeps {s was : State} {n : Chan} (h_s : s.Inv) : (State.reload s was n).Inv := by
  unfold State.reload; try dsimp only
  repeat' first
    | with_reducible assumption
    | with_reducible refine State.modChan_keeps ?_
    | with_reducible refine State.setBit_keeps ?_
    | with_reducible refine State.setFld_keeps ?_

theorem State.replace_keeps {s was : State} {n : Chan} (h_s : s.Inv) : (State.replace s was n).Inv := by
  unfold State.replace; try dsimp only
  repeat' first
    | with_reducible assumption
    | with_reducible refine State.reload_keeps ?_
    | with_reducible refine State.setBit_keeps ?_
    | with_reducible refine State.setFld_keeps ?_
    | with_reducible refine ite_keeps ?_ ?_

theorem State.joinSpare_keeps {s : State} {l : Loop} {n c : Chan} (h_s : s.Inv) : (State.joinSpare s l n c).Inv := by
  unfold State.joinSpare; try dsimp only
  repeat' first
    | with_reducible assumption
    | with_reducible refine State.setOrder_keeps ?_
    | with_reducible refine State.modChan_keeps ?_
    | with_reducible refine State.modLoop_keeps ?_
    | with_reducible refine State.setBit_keeps ?_
    | with_reducible refine State.setFld_keeps ?_
    | with_reducible refine State.raise_keeps ?_

theorem State.retireChan_keeps {s : State} {l : Loop} {n : Chan} (h_s : s.Inv) : (State.retireChan s l n).Inv := by
  unfold State.retireChan; try dsimp only
  repeat' first
    | with_reducible assumption
    | with_reducible refine ite_keeps ?_ ?_
    | with_reducible refine State.joinSpare_keeps ?_
    | with_reducible refine State.modChan_keeps ?_
    | with_reducible refine State.modLoop_keeps ?_
    | with_reducible refine State.setBit_keeps ?_
    | with_reducible refine State.raise_keeps ?_
    | with_reducible refine State.fault_keeps ?_
    | with_reducible refine State.endIf_keeps ?_
    | split

theorem State.updateActive_keeps {s : State} {l : Loop} (h_s : s.Inv) : (State.updateActive s l).Inv := by
  unfold State.updateActive; try dsimp only
  repeat' first
    | with_reducible assumption
    | with_reducible refine State.stopInject_keeps ?_
    | with_reducible refine State.setOrder_keeps ?_
    | with_reducible refine State.modChan_keeps ?_
    | with_reducible refine State.modLoop_keeps ?_
    | with_reducible refine ite_keeps ?_ ?_
    | with_reducible refine foldl_keeps (fun _ _ _ => ?_) ?_

theorem State.rotate_keeps {s : State} {l : Loop} (h_s : s.Inv) : (State.rotate s l).Inv := by
  unfold State.rotate; try dsimp only
  repeat' first
    | with_reducible assumption
    | with_reducible refine State.setOrder_keeps ?_
    | with_reducible refine ite_keeps ?_ ?_

theorem State.loopSample_keeps {s : State} {l : Loop} (h_s : s.Inv) : (State.loopSample s l).Inv := by
  unfold State.loopSample; try dsimp only
  repeat' first
    | with_reducible assumption
    | with_reducible refine State.stopInject_keeps ?_
    | with_reducible refine State.extreme_keeps ?_
    | with_reducible refine State.modLoop_keeps ?_
    | with_reducible refine ite_keeps ?_ ?_

theorem State.trackFb_keeps {s : State} {l : Loop} (h_s : s.Inv) : (State.trackFb s l).Inv := by
  unfold State.trackFb; try dsimp only
  repeat' first
    | with_reducible assumption
    | with_reducible refine State.setFld_keeps ?_
    | with_reducible refine ite_keeps ?_ ?_

theorem State.reloadLoop_keeps {s : State} {l : Loop} (h_s : s.Inv) : (State.reloadLoop s l).Inv := by
  unfold State.reloadLoop; try dsimp only
  repeat' first
    | with_reducible assumption
    | with_reducible refine ite_keeps ?_ ?_
    | with_reducible refine foldl_keeps (fun _ _ _ => ?_) ?_
    | with_reducible refine State.reload_keeps ?_

theorem State.fbReturn_keeps {s : State} {l : Loop} (h_s : s.Inv) : (State.fbReturn s l).Inv := by
  unfold State.fbReturn; try dsimp only
  repeat' first
    | with_reducible assumption
    | with_reducible refine ite_keeps ?_ ?_
    | with_reducible refine State.reachRegulation_keeps ?_
    | with_reducible refine State.activeHalves_keeps ?_
    | with_reducible refine State.reloadLoop_keeps ?_
    | with_reducible refine State.presetPort_keeps ?_
    | with_reducible refine State.modPath_keeps ?_
    | with_reducible refine State.modLoop_keeps ?_
    | with_reducible refine State.setBit_keeps ?_
    | with_reducible refine State.setFld_keeps ?_
    | with_reducible refine State.preset_keeps ?_
    | split

theorem State.bankSwap_keeps {s : State} {l : Loop} (h_s : s.Inv) : (State.bankSwap s l).Inv := by
  unfold State.bankSwap; try dsimp only
  repeat' first
    | with_reducible assumption
    | with_reducible refine State.setBit_keeps ?_
    | with_reducible refine ite_keeps ?_ ?_

theorem State.startFulling_keeps {s : State} {l : Loop} (h_s : s.Inv) : (State.startFulling s l).Inv := by
  unfold State.startFulling; try dsimp only
  repeat' first
    | with_reducible assumption
    | with_reducible refine State.stopInject_keeps ?_
    | with_reducible refine State.modLoop_keeps ?_
    | with_reducible refine State.setBit_keeps ?_
    | with_reducible refine ite_keeps ?_ ?_

theorem State.rotationDue_keeps {s : State} {l : Loop} (h_s : s.Inv) : (State.rotationDue s l).Inv := by
  unfold State.rotationDue; try dsimp only
  repeat' first
    | with_reducible assumption
    | with_reducible refine State.modLoop_keeps ?_
    | with_reducible refine State.rotate_keeps ?_
    | with_reducible refine ite_keeps ?_ ?_

theorem State.beginInject_keeps {s : State} {l : Loop} (h_s : s.Inv) : (State.beginInject s l).Inv := by
  unfold State.beginInject; try dsimp only
  repeat' first
    | with_reducible assumption
    | with_reducible refine ite_keeps ?_ ?_
    | with_reducible refine State.modLoop_keeps ?_
    | with_reducible refine State.setBit_keeps ?_
    | with_reducible refine State.setFld_keeps ?_
    | split

theorem State.retireAll_keeps {s : State} (h_s : s.Inv) : (State.retireAll s).Inv := by
  unfold State.retireAll; try dsimp only
  repeat' first
    | with_reducible assumption
    | with_reducible refine ite_keeps ?_ ?_
    | with_reducible refine foldl_keeps (fun _ _ _ => ?_) ?_
    | with_reducible refine State.retireChan_keeps ?_
    | with_reducible refine State.forAll_keeps (fun _ _ _ => ?_) ?_

theorem State.releaseFaultn_keeps {s : State} {high : Bool} (h_s : s.Inv) : (State.releaseFaultn s high).Inv := by
  unfold State.releaseFaultn; try dsimp only
  repeat' first
    | with_reducible assumption
    | with_reducible refine ite_keeps ?_ ?_
    | with_reducible refine State.modEngine_keeps ?_
    | with_reducible refine State.setBit_keeps ?_
    | with_reducible refine State.endIf_keeps ?_
    | with_reducible refine State.forAll_keeps (fun _ _ _ => ?_) ?_

theorem State.applyCalHalf_keeps {s : State} {code go : Fld} {i : Fin 2} (h_s : s.Inv) : (State.applyCalHalf s code go i).Inv := by
  unfold State.applyCalHalf; try dsimp only
  repeat' first
    | with_reducible assumption
    | with_reducible refine State.modEngine_keeps ?_
    | with_reducible refine State.setBit_keeps ?_
    | with_reducible refine State.setFld_keeps ?_
    | with_reducible refine ite_keeps ?_ ?_
    | split

theorem State.applyCal_keeps {s : State} (h_s : s.Inv) : (State.applyCal s).Inv := by
  unfold State.applyCal; try dsimp only
  repeat' first
    | with_reducible assumption
    | with_reducible refine State.applyCalHalf_keeps ?_

theorem State.valleyChanges_keeps {s : State} {late : Nat} {due : Bool} (h_s : s.Inv) : (State.valleyChanges s late due).Inv := by
  unfold State.valleyChanges; try dsimp only
  repeat' first
    | with_reducible assumption
    | with_reducible refine State.startFulling_keeps ?_
    | with_reducible refine State.updateActive_keeps ?_
    | with_reducible refine State.rotationDue_keeps ?_
    | with_reducible refine State.commitAll_keeps ?_
    | with_reducible refine State.retireAll_keeps ?_
    | with_reducible refine State.bankSwap_keeps ?_
    | with_reducible refine State.takeTop_keeps ?_
    | with_reducible refine State.modLoop_keeps ?_
    | with_reducible refine ite_keeps ?_ ?_
    | with_reducible refine State.forAll_keeps (fun _ _ _ => ?_) ?_
    | with_reducible refine foldl_keeps (fun _ _ _ => ?_) ?_

theorem State.masterValley_keeps {s : State} {late : Nat} {loadLate faultnHigh : Bool} (h_s : s.Inv) : (State.masterValley s late loadLate faultnHigh).Inv := by
  unfold State.masterValley; try dsimp only
  repeat' first
    | with_reducible assumption
    | with_reducible refine ite_keeps ?_ ?_
    | with_reducible refine State.releaseFaultn_keeps ?_
    | with_reducible refine State.valleyChanges_keeps ?_
    | with_reducible refine State.beginInject_keeps ?_
    | with_reducible refine State.loopSample_keeps ?_
    | with_reducible refine State.moveValley_keeps ?_
    | with_reducible refine State.settlePll_keeps ?_
    | with_reducible refine State.modEngine_keeps ?_
    | with_reducible refine State.chooseRef_keeps ?_
    | with_reducible refine State.fbReturn_keeps ?_
    | with_reducible refine State.applyCal_keeps ?_
    | with_reducible refine State.replace_keeps ?_
    | with_reducible refine State.modChan_keeps ?_
    | with_reducible refine State.trackFb_keeps ?_
    | with_reducible refine State.forAll_keeps (fun _ _ _ => ?_) ?_

theorem State.deliver_keeps {s : State} {n : Chan} {cmp d : Int} (h_s : s.Inv) : (State.deliver s n cmp d).Inv := by
  unfold State.deliver; try dsimp only
  repeat' first
    | with_reducible assumption
    | with_reducible refine State.modChan_keeps ?_

theorem State.ensureNext_keeps {s : State} {n : Chan} (h_s : s.Inv) : (State.ensureNext s n).Inv := by
  unfold State.ensureNext; try dsimp only
  repeat' first
    | with_reducible assumption
    | with_reducible refine ite_keeps ?_ ?_
    | with_reducible refine State.deliver_keeps ?_
    | with_reducible refine State.modLoop_keeps ?_
    | split

theorem State.injectFrame_keeps {s : State} {n : Chan} (h_s : s.Inv) : (State.injectFrame s n).Inv := by
  unfold State.injectFrame; try dsimp only
  repeat' first
    | with_reducible assumption
    | with_reducible refine State.endInject_keeps ?_
    | with_reducible refine State.setSFld_keeps ?_
    | with_reducible refine State.modLoop_keeps ?_
    | with_reducible refine State.setFld_keeps ?_
    | with_reducible refine ite_keeps ?_ ?_
    | split

theorem State.foreseeB_keeps {s : State} {n : Chan} {up dn : Nat} (h_s : s.Inv) : (State.foreseeB s n up dn).Inv := by
  unfold State.foreseeB; try dsimp only
  repeat' first
    | with_reducible assumption
    | with_reducible refine ite_keeps ?_ ?_
    | with_reducible refine State.countMinPulse_keeps ?_
    | with_reducible refine State.modChan_keeps ?_

theorem State.valley_keeps {s : State} {n : Chan} (h_s : s.Inv) : (State.valley s n).Inv := by
  unfold State.valley; try dsimp only
  repeat' first
    | with_reducible assumption
    | with_reducible refine ite_keeps ?_ ?_
    | with_reducible refine State.countMinPulse_keeps ?_
    | with_reducible refine State.injectFrame_keeps ?_
    | with_reducible refine State.ensureNext_keeps ?_
    | with_reducible refine State.foreseeB_keeps ?_
    | with_reducible refine State.modChan_keeps ?_
    | with_reducible refine State.setBit_keeps ?_
    | with_reducible refine State.setFld_keeps ?_

theorem State.peak_keeps {s : State} {n : Chan} (h_s : s.Inv) : (State.peak s n).Inv := by
  unfold State.peak; try dsimp only
  repeat' first
    | with_reducible assumption
    | with_reducible refine ite_keeps ?_ ?_
    | with_reducible refine State.countMinPulse_keeps ?_
    | with_reducible refine State.drawJitter_keeps ?_
    | with_reducible refine State.ensureNext_keeps ?_
    | with_reducible refine State.foreseeB_keeps ?_
    | with_reducible refine State.modChan_keeps ?_
    | with_reducible refine State.setBit_keeps ?_
    | with_reducible refine State.setFld_keeps ?_

theorem State.triggerFire_keeps {s : State} {n : Chan} {k : Fin 4} {x : Int} (h_s : s.Inv) : (State.triggerFire s n k x).Inv := by
  unfold State.triggerFire; try dsimp only
  repeat' first
    | with_reducible assumption
    | with_reducible refine ite_keeps ?_ ?_
    | with_reducible refine State.windowSat_keeps ?_
    | with_reducible refine State.modEngine_keeps ?_
    | with_reducible refine State.modChan_keeps ?_
    | with_reducible refine State.modLoop_keeps ?_
    | with_reducible refine State.satInc_keeps ?_
    | with_reducible refine State.raise_keeps ?_
    | split

theorem State.stgCheck_keeps {s : State} {l : Loop} {n : Chan} {code : Nat} (h_s : s.Inv) : (State.stgCheck s l n code).Inv := by
  unfold State.stgCheck; try dsimp only
  repeat' first
    | with_reducible assumption
    | with_reducible refine State.modChan_keeps ?_
    | with_reducible refine State.fault_keeps ?_
    | with_reducible refine ite_keeps ?_ ?_

theorem State.convertCurrent_keeps {s : State} {k : Fin 4} (h_s : s.Inv) : (State.convertCurrent s k).Inv := by
  unfold State.convertCurrent; try dsimp only
  repeat' first
    | with_reducible assumption
    | with_reducible refine ite_keeps ?_ ?_
    | with_reducible refine State.modEngine_keeps ?_
    | with_reducible refine State.stgCheck_keeps ?_
    | with_reducible refine State.modChan_keeps ?_
    | with_reducible refine State.setSFld_keeps ?_
    | split

theorem State.recalibrate_keeps {s : State} {h : Half} {code : BitVec 10} (h_s : s.Inv) : (State.recalibrate s h code).Inv := by
  unfold State.recalibrate; try dsimp only
  repeat' first
    | with_reducible assumption
    | with_reducible refine State.modEngine_keeps ?_

theorem State.faultnFalls_keeps {s : State} (h_s : s.Inv) : (State.faultnFalls s).Inv := by
  unfold State.faultnFalls; try dsimp only
  repeat' first
    | with_reducible assumption
    | with_reducible refine State.faultnLoops_keeps ?_
    | with_reducible refine State.modEngine_keeps ?_
    | with_reducible refine State.faultHold_keeps ?_
    | with_reducible refine foldl_keeps (fun _ _ _ => ?_) ?_

theorem State.clockTrip_keeps {s : State} (h_s : s.Inv) : (State.clockTrip s).Inv := by
  unfold State.clockTrip; try dsimp only
  repeat' first
    | with_reducible assumption
    | with_reducible refine ite_keeps ?_ ?_
    | with_reducible refine State.allPllLoad_keeps ?_
    | with_reducible refine State.handover_keeps ?_
    | with_reducible refine State.pllOff_keeps ?_
    | with_reducible refine State.setBit_keeps ?_
    | with_reducible refine State.forAll_keeps (fun _ _ _ => ?_) ?_

theorem State.engineOff_keeps {s : State} (h_s : s.Inv) : (State.engineOff s).Inv := by
  unfold State.engineOff; try dsimp only
  repeat' first
    | with_reducible assumption
    | with_reducible refine State.allNeedLoad_keeps ?_
    | with_reducible refine State.setBit_keeps ?_

theorem State.maskWritten_keeps {s : State} (h_s : s.Inv) : (State.maskWritten s).Inv := by
  unfold State.maskWritten; try dsimp only
  repeat' first
    | with_reducible assumption
    | with_reducible refine State.faultHold_keeps ?_
    | with_reducible refine ite_keeps ?_ ?_
    | with_reducible refine State.forAll_keeps (fun _ _ _ => ?_) ?_

theorem State.clearMinp_keeps {s : State} {mask : Word} (h_s : s.Inv) : (State.clearMinp s mask).Inv := by
  unfold State.clearMinp; try dsimp only
  repeat' first
    | with_reducible assumption
    | with_reducible refine State.setReg_keeps ?_
    | with_reducible refine ite_keeps ?_ ?_
    | with_reducible refine State.forAll_keeps (fun _ _ _ => ?_) ?_

/-! ### Loops -/

theorem State.highestVs_keeps {s : State} {l : Loop} {codes : List Nat} (h_s : s.Inv) : (State.highestVs s l codes).Inv := by
  unfold State.highestVs; try dsimp only
  repeat' first
    | with_reducible assumption
    | with_reducible refine State.extreme_keeps ?_
    | with_reducible refine ite_keeps ?_ ?_

theorem State.compUpdate_keeps {s : State} {l : Loop} {n : Chan} {vs : Vector Int 8} {shunt : Int} (h_s : s.Inv) : (State.compUpdate s l n vs shunt).Inv := by
  unfold State.compUpdate; try dsimp only
  repeat' first
    | with_reducible assumption
    | with_reducible refine State.highestVs_keeps ?_
    | with_reducible refine State.windowSat_keeps ?_
    | with_reducible refine State.setSFld_keeps ?_
    | with_reducible refine State.deliver_keeps ?_
    | with_reducible refine State.modLoop_keeps ?_
    | with_reducible refine State.setBit_keeps ?_
    | with_reducible refine State.setFld_keeps ?_
    | split

theorem State.setRef_keeps {s : State} {l : Loop} {v : Nat} (h_s : s.Inv) : (State.setRef s l v).Inv := by
  unfold State.setRef; try dsimp only
  repeat' first
    | with_reducible assumption
    | with_reducible refine State.modPath_keeps ?_
    | with_reducible refine State.setFld_keeps ?_
    | split

theorem State.portBegins_keeps {s : State} {l : Loop} (h_s : s.Inv) : (State.portBegins s l).Inv := by
  unfold State.portBegins; try dsimp only
  repeat' first
    | with_reducible assumption
    | with_reducible refine foldl_keeps (fun _ _ _ => ?_) ?_
    | with_reducible refine State.presetPort_keeps ?_
    | with_reducible refine State.modChan_keeps ?_
    | with_reducible refine State.modLoop_keeps ?_

theorem State.passRamp_keeps {s : State} {l : Loop} (h_s : s.Inv) : (State.passRamp s l).Inv := by
  unfold State.passRamp; try dsimp only
  repeat' first
    | with_reducible assumption
    | with_reducible refine State.rampPasses_keeps ?_
    | with_reducible refine State.portBegins_keeps ?_
    | with_reducible refine State.setRef_keeps ?_
    | with_reducible refine ite_keeps ?_ ?_

theorem State.rampEndsBelow_keeps {s : State} {l : Loop} (h_s : s.Inv) : (State.rampEndsBelow s l).Inv := by
  unfold State.rampEndsBelow; try dsimp only
  repeat' first
    | with_reducible assumption
    | with_reducible refine State.enterRegulation_keeps ?_
    | with_reducible refine State.startEndsBelow_keeps ?_
    | with_reducible refine State.portBegins_keeps ?_
    | with_reducible refine State.setRef_keeps ?_
    | with_reducible refine State.endIf_keeps ?_
    | with_reducible refine ite_keeps ?_ ?_

theorem State.rampAt_keeps {s : State} {l : Loop} (h_s : s.Inv) : (State.rampAt s l).Inv := by
  unfold State.rampAt; try dsimp only
  repeat' first
    | with_reducible assumption
    | with_reducible refine State.reachRegulation_keeps ?_
    | with_reducible refine State.rampEndsBelow_keeps ?_
    | with_reducible refine State.passRamp_keeps ?_
    | with_reducible refine State.setRef_keeps ?_
    | with_reducible refine ite_keeps ?_ ?_

theorem State.refStep_keeps {s : State} {l : Loop} (h_s : s.Inv) : (State.refStep s l).Inv := by
  unfold State.refStep; try dsimp only
  repeat' first
    | with_reducible assumption
    | with_reducible refine ite_keeps ?_ ?_
    | with_reducible refine State.loopHalf_keeps ?_
    | with_reducible refine State.stopMid_keeps ?_
    | with_reducible refine State.modLoop_keeps ?_
    | with_reducible refine State.setRef_keeps ?_
    | with_reducible refine State.rampAt_keeps ?_

theorem State.prebiasDone_keeps {s : State} {l : Loop} {uv : Nat} {selfTest : Bool} (h_s : s.Inv) : (State.prebiasDone s l uv selfTest).Inv := by
  unfold State.prebiasDone; try dsimp only
  repeat' first
    | with_reducible assumption
    | with_reducible refine ite_keeps ?_ ?_
    | with_reducible refine State.setLoopSt_keeps ?_
    | with_reducible refine State.modLoop_keeps ?_
    | with_reducible refine State.setRef_keeps ?_
    | with_reducible refine State.rampAt_keeps ?_
    | with_reducible refine State.raise_keeps ?_

theorem State.stgEnFall_keeps {s : State} {l : Loop} (h_s : s.Inv) : (State.stgEnFall s l).Inv := by
  unfold State.stgEnFall; try dsimp only
  repeat' first
    | with_reducible assumption
    | with_reducible refine State.loopOffDone_keeps ?_
    | with_reducible refine State.modLoop_keeps ?_
    | with_reducible refine ite_keeps ?_ ?_

theorem State.settledRise_keeps {s : State} {l : Loop} (h_s : s.Inv) : (State.settledRise s l).Inv := by
  unfold State.settledRise; try dsimp only
  repeat' first
    | with_reducible assumption
    | with_reducible refine State.alertSlot_keeps ?_
    | with_reducible refine State.setBit_keeps ?_
    | with_reducible refine ite_keeps ?_ ?_
    | with_reducible refine State.forAll_keeps (fun _ _ _ => ?_) ?_

theorem State.cardRestart_keeps {s : State} {l : Loop} {broken : Bool} (h_s : s.Inv) : (State.cardRestart s l broken).Inv := by
  unfold State.cardRestart; try dsimp only
  repeat' first
    | with_reducible assumption
    | with_reducible refine State.modLoop_keeps ?_
    | with_reducible refine State.modChan_keeps ?_
    | with_reducible refine foldl_keeps (fun _ _ _ => ?_) ?_

theorem State.diverge_keeps {s : State} {l : Loop} {n : Chan} {trim sum iavg : Int} {cnt : Nat} (h_s : s.Inv) : (State.diverge s l n trim sum iavg cnt).Inv := by
  unfold State.diverge; try dsimp only
  repeat' first
    | with_reducible assumption
    | with_reducible refine ite_keeps ?_ ?_
    | with_reducible refine State.modChan_keeps ?_
    | with_reducible refine State.fault_keeps ?_

theorem State.cardStep_keeps {s : State} {l : Loop} (h_s : s.Inv) : (State.cardStep s l).Inv := by
  unfold State.cardStep; try dsimp only
  repeat' first
    | with_reducible assumption
    | with_reducible refine foldl_keeps (fun _ _ _ => ?_) ?_
    | with_reducible refine State.cardRestart_keeps ?_
    | with_reducible refine State.diverge_keeps ?_
    | with_reducible refine State.setSFld_keeps ?_

theorem State.noticed_keeps {s : State} {l : Loop} {n : Notice} (h_s : s.Inv) : (State.noticed s l n).Inv := by
  unfold State.noticed; try dsimp only
  repeat' first
    | with_reducible assumption
    | with_reducible refine State.modLoop_keeps ?_
    | with_reducible refine State.setBit_keeps ?_
    | with_reducible refine ite_keeps ?_ ?_

theorem State.blkGo_keeps {s : State} {l : Loop} (h_s : s.Inv) : (State.blkGo s l).Inv := by
  unfold State.blkGo; try dsimp only
  repeat' first
    | with_reducible assumption
    | with_reducible refine State.modLoop_keeps ?_
    | with_reducible refine State.setFld_keeps ?_
    | with_reducible refine State.raise_keeps ?_
    | with_reducible refine State.fresh_keeps ?_
    | with_reducible refine ite_keeps ?_ ?_

theorem State.verdict_keeps {s : State} {l : Loop} {f : Fit} {set : Vector (BitVec 20) 6} (h_s : s.Inv) : (State.verdict s l f set).Inv := by
  unfold State.verdict; try dsimp only
  repeat' first
    | with_reducible assumption
    | with_reducible refine ite_keeps ?_ ?_
    | with_reducible refine foldl_keeps (fun _ _ _ => ?_) ?_
    | with_reducible refine State.setBit_keeps ?_
    | with_reducible refine State.setFld_keeps ?_
    | with_reducible refine State.setReg_keeps ?_
    | with_reducible refine State.raise_keeps ?_

theorem State.fbForce_keeps {s : State} {l : Loop} (h_s : s.Inv) : (State.fbForce s l).Inv := by
  unfold State.fbForce; try dsimp only
  repeat' first
    | with_reducible assumption
    | with_reducible refine State.handover_keeps ?_
    | with_reducible refine State.raise_keeps ?_
    | with_reducible refine ite_keeps ?_ ?_

theorem State.fbPulse_keeps {s : State} {l : Loop} {vs imon : Int} (h_s : s.Inv) : (State.fbPulse s l vs imon).Inv := by
  unfold State.fbPulse; try dsimp only
  repeat' first
    | with_reducible assumption
    | with_reducible refine ite_keeps ?_ ?_
    | with_reducible refine State.modLoop_keeps ?_
    | with_reducible refine State.setBit_keeps ?_
    | with_reducible refine State.fault_keeps ?_
    | split

theorem State.fbPulseEnd_keeps {s : State} {l : Loop} (h_s : s.Inv) : (State.fbPulseEnd s l).Inv := by
  unfold State.fbPulseEnd; try dsimp only
  repeat' first
    | with_reducible assumption
    | with_reducible refine State.modChan_keeps ?_
    | with_reducible refine State.modLoop_keeps ?_
    | split

theorem State.retiredClear_keeps {s : State} {n : Chan} (h_s : s.Inv) : (State.retiredClear s n).Inv := by
  unfold State.retiredClear; try dsimp only
  repeat' first
    | with_reducible assumption
    | with_reducible refine ite_keeps ?_ ?_
    | with_reducible refine State.setBit_keeps ?_

/-! ### Protection -/

theorem State.unlatch_keeps {s : State} {l : Loop} (h_s : s.Inv) : (State.unlatch s l).Inv := by
  unfold State.unlatch; try dsimp only
  repeat' first
    | with_reducible assumption
    | with_reducible refine State.errorRecovery_keeps ?_
    | with_reducible refine State.setLoopSt_keeps ?_
    | with_reducible refine State.loopEnds_keeps ?_
    | with_reducible refine State.setFld_keeps ?_
    | with_reducible refine State.setBit_keeps ?_
    | split

theorem State.ovClr_keeps {s : State} {l : Loop} {x : OvSense} (h_s : s.Inv) : (State.ovClr s l x).Inv := by
  unfold State.ovClr; try dsimp only
  repeat' first
    | with_reducible assumption
    | with_reducible refine ite_keeps ?_ ?_
    | with_reducible refine State.loopMid_keeps ?_
    | with_reducible refine State.modLoop_keeps ?_
    | with_reducible refine State.unlatch_keeps ?_
    | with_reducible refine State.setBit_keeps ?_

theorem State.loffClr_keeps {s : State} {l : Loop} (h_s : s.Inv) : (State.loffClr s l).Inv := by
  unfold State.loffClr; try dsimp only
  repeat' first
    | with_reducible assumption
    | with_reducible refine State.unlatch_keeps ?_
    | with_reducible refine ite_keeps ?_ ?_

theorem State.scTrip_keeps {s : State} {l : Loop} {n : Chan} (h_s : s.Inv) : (State.scTrip s l n).Inv := by
  unfold State.scTrip; try dsimp only
  repeat' first
    | with_reducible assumption
    | with_reducible refine ite_keeps ?_ ?_
    | with_reducible refine State.modChan_keeps ?_
    | with_reducible refine State.modLoop_keeps ?_
    | with_reducible refine State.satInc_keeps ?_
    | with_reducible refine State.fault_keeps ?_

theorem State.overloadBlock_keeps {s : State} {l : Loop} (h_s : s.Inv) : (State.overloadBlock s l).Inv := by
  unfold State.overloadBlock; try dsimp only
  repeat' first
    | with_reducible assumption
    | with_reducible refine State.modLoop_keeps ?_
    | with_reducible refine State.setBit_keeps ?_
    | with_reducible refine State.fault_keeps ?_
    | with_reducible refine State.endIf_keeps ?_
    | with_reducible refine ite_keeps ?_ ?_

theorem State.hiccupRestart_keeps {s : State} {l : Loop} (h_s : s.Inv) : (State.hiccupRestart s l).Inv := by
  unfold State.hiccupRestart; try dsimp only
  repeat' first
    | with_reducible assumption
    | with_reducible refine State.setLoopSt_keeps ?_
    | with_reducible refine State.loopTrip_keeps ?_
    | with_reducible refine State.loopEnds_keeps ?_
    | with_reducible refine State.startAt_keeps ?_
    | with_reducible refine State.modLoop_keeps ?_
    | with_reducible refine State.setBit_keeps ?_
    | with_reducible refine State.setFld_keeps ?_
    | with_reducible refine State.satInc_keeps ?_
    | with_reducible refine State.endIf_keeps ?_
    | with_reducible refine ite_keeps ?_ ?_

/-! ### PolicyTable -/

theorem State.checkPolicy_keeps {s : State} (h_s : s.Inv) : (State.checkPolicy s).Inv := by
  unfold State.checkPolicy; try dsimp only
  repeat' first
    | with_reducible assumption
    | with_reducible refine State.setFld_keeps ?_
    | with_reducible refine State.setBit_keeps ?_
    | with_reducible refine ite_keeps ?_ ?_
    | with_reducible refine State.forAll_keeps (fun _ _ _ => ?_) ?_

/-! ### Budget -/

theorem State.writeCap_keeps {s : State} {l : Loop} {cap : Nat} (h_s : s.Inv) : (State.writeCap s l cap).Inv := by
  unfold State.writeCap; try dsimp only
  repeat' first
    | with_reducible assumption
    | with_reducible refine State.setFld_keeps ?_
    | with_reducible refine State.raise_keeps ?_
    | with_reducible refine ite_keeps ?_ ?_

theorem State.recompute_keeps {s : State} (h_s : s.Inv) : (State.recompute s).Inv := by
  unfold State.recompute; try dsimp only
  repeat' first
    | with_reducible assumption
    | with_reducible refine State.writeCap_keeps ?_
    | with_reducible refine State.setFld_keeps ?_
    | with_reducible refine State.setBit_keeps ?_
    | with_reducible refine ite_keeps ?_ ?_
    | with_reducible refine State.forAll_keeps (fun _ _ _ => ?_) ?_

theorem State.askSource_keeps {s : State} {p : Port} {want : Nat} (h_s : s.Inv) : (State.askSource s p want).2.Inv := by
  unfold State.askSource; try dsimp only
  repeat' first
    | with_reducible assumption
    | with_reducible refine State.recompute_keeps ?_
    | with_reducible refine State.modPath_keeps ?_
    | with_reducible refine State.raise_keeps ?_
    | split

theorem State.askSource_keeps_eq {s : State} {p : Port} {want : Nat} {r₁ : Bool} {r₂ : State} (h_s : s.Inv) (e : State.askSource s p want = (r₁, r₂)) : r₂.Inv := by
  have := State.askSource_keeps (s := s) (p := p) (want := want) h_s; rw [e] at this; exact this

theorem State.grantSource_keeps {s : State} {p : Port} (h_s : s.Inv) : (State.grantSource s p).2.Inv := by
  unfold State.grantSource; try dsimp only
  repeat' first
    | with_reducible assumption
    | with_reducible refine State.askSource_keeps ?_
    | with_reducible refine State.setTc_keeps ?_

theorem State.grantSource_keeps_eq {s : State} {p : Port} {r₁ : Bool} {r₂ : State} (h_s : s.Inv) (e : State.grantSource s p = (r₁, r₂)) : r₂.Inv := by
  have := State.grantSource_keeps (s := s) (p := p) h_s; rw [e] at this; exact this

theorem State.askIntake_keeps {s : State} {p : Port} {want : Nat} (h_s : s.Inv) : (State.askIntake s p want).2.Inv := by
  unfold State.askIntake; try dsimp only
  repeat' first
    | with_reducible assumption
    | with_reducible refine State.raise_keeps ?_
    | split

theorem State.askIntake_keeps_eq {s : State} {p : Port} {want : Nat} {r₁ : Nat} {r₂ : State} (h_s : s.Inv) (e : State.askIntake s p want = (r₁, r₂)) : r₂.Inv := by
  have := State.askIntake_keeps (s := s) (p := p) (want := want) h_s; rw [e] at this; exact this

theorem State.grantRequest_keeps {s : State} {p : Port} {want : Nat} (h_s : s.Inv) : (State.grantRequest s p want).Inv := by
  unfold State.grantRequest; try dsimp only
  repeat' first
    | with_reducible assumption
    | with_reducible refine State.askSource_keeps ?_
    | with_reducible refine State.askIntake_keeps ?_
    | with_reducible refine State.modPath_keeps ?_
    | with_reducible refine ite_keeps ?_ ?_

end Sys2Proof.Machine
end

