-- ==== Sys2Proof/Laws/Keeps3.lean ====
section
/-!
SUPPORT. What the operations of the ports, PD and the power path keep: the invariant of the state, one lemma for each.
Each proof opens the operation and cites the lemmas of what it calls.
-/

set_option linter.unusedTactic false
set_option linter.unreachableTactic false

namespace Sys2Proof.Machine

/-! ### PartnerMem -/

theorem State.putEntry_keeps {s : State} {i : Nat} {e : List Byte} (h_s : s.Inv) : (State.putEntry s i e).Inv := by
  unfold State.putEntry; try dsimp only
  repeat' first
    | exact ⟨h_s.regs, h_s.act, h_s.sram, Mem.setBytes_wf _ _ h_s.pmem, h_s.cells, h_s.stats, h_s.extremes, h_s.snap, h_s.cores⟩
    | with_reducible refine State.kprPmem_keeps ?_
    | with_reducible refine State.raise_keeps ?_
    | with_reducible refine ite_keeps ?_ ?_

theorem State.loadPmem_keeps {s : State} (h_s : s.Inv) : (State.loadPmem s).Inv := by
  refine ⟨h_s.regs, h_s.act, h_s.sram, Mem.foldl_wf (fun m i hm => ?_) rfl, h_s.cells, h_s.stats, h_s.extremes, h_s.snap,
    h_s.cores⟩
  dsimp only
  split
  · exact Mem.setBytes_wf _ _ hm
  · exact hm

theorem State.placeSeed_keeps {s : State} {seed : List Byte} (h_s : s.Inv) : (State.placeSeed s seed).Inv := by
  unfold State.placeSeed; try dsimp only
  repeat' first
    | with_reducible assumption
    | with_reducible refine State.putEntry_keeps ?_
    | split

theorem State.placeSeeds_keeps {s : State} {sections : List (List Byte)} (h_s : s.Inv) :
    (State.placeSeeds s sections).Inv :=
  foldl_keeps (fun _ _ h => State.placeSeed_keeps h) h_s

theorem State.placeEntry_keeps {s : State} {own : Option (Nat × List Byte)} {mk : Option (List Byte) → List Byte} (h_s : s.Inv) : (State.placeEntry s own mk).Inv := by
  unfold State.placeEntry; try dsimp only
  repeat' first
    | with_reducible assumption
    | with_reducible refine State.putEntry_keeps ?_
    | with_reducible refine State.setBit_keeps ?_
    | split

theorem State.writeFacts_keeps {s : State} {f : PartnerFacts} (h_s : s.Inv) : (State.writeFacts s f).Inv := by
  unfold State.writeFacts; try dsimp only
  repeat' first
    | with_reducible assumption
    | with_reducible refine State.placeEntry_keeps ?_
    | with_reducible refine ite_keeps ?_ ?_

theorem State.pmemWrite_keeps {s : State} {p : Port} (h_s : s.Inv) : (State.pmemWrite s p).Inv := by
  unfold State.pmemWrite; try dsimp only
  repeat' first
    | with_reducible assumption
    | with_reducible refine State.writeFacts_keeps ?_
    | with_reducible refine State.modPort_keeps ?_
    | split

theorem State.pmemMatch_keeps {s : State} {p : Port} {x : Nat × List Byte} (h_s : s.Inv) : (State.pmemMatch s p x).Inv := by
  unfold State.pmemMatch; try dsimp only
  repeat' first
    | with_reducible assumption
    | with_reducible refine State.putEntry_keeps ?_
    | with_reducible refine State.pdEvent_keeps ?_
    | with_reducible refine State.setFld_keeps ?_

theorem State.pmemForget_keeps {s : State} {i : Nat} (h_s : s.Inv) : (State.pmemForget s i).Inv := by
  unfold State.pmemForget; try dsimp only
  repeat' first
    | with_reducible assumption
    | with_reducible refine State.putEntry_keeps ?_

theorem State.pmemOp_keeps {s : State} {op i : Nat} (h_s : s.Inv) : (State.pmemOp s op i).Inv := by
  unfold State.pmemOp; try dsimp only
  repeat' first
    | with_reducible assumption
    | with_reducible refine State.pmemForget_keeps ?_
    | with_reducible refine State.putEntry_keeps ?_
    | with_reducible refine State.setReg_keeps ?_
    | with_reducible refine ite_keeps ?_ ?_
    | with_reducible refine foldl_keeps (fun _ _ _ => ?_) ?_
    | split

/-! ### Pd -/

theorem State.arm_keeps {s : State} {p : Port} {t : PdTimer} (h_s : s.Inv) : (State.arm s p t).Inv := by
  unfold State.arm; try dsimp only
  repeat' first
    | with_reducible assumption
    | with_reducible refine State.modPort_keeps ?_

theorem State.disarm_keeps {s : State} {p : Port} {t : PdTimer} (h_s : s.Inv) : (State.disarm s p t).Inv := by
  unfold State.disarm; try dsimp only
  repeat' first
    | with_reducible assumption
    | with_reducible refine State.modPort_keeps ?_

theorem State.transmit_keeps {s : State} {p : Port} {x : PdTx} (h_s : s.Inv) : (State.transmit s p x).Inv := by
  unfold State.transmit; try dsimp only
  repeat' first
    | with_reducible assumption
    | with_reducible refine State.modPort_keeps ?_
    | with_reducible refine State.emit_keeps ?_
    | with_reducible refine State.arm_keeps ?_

theorem State.queueTx_keeps {s : State} {p : Port} {x : PdTx} (h_s : s.Inv) : (State.queueTx s p x).Inv := by
  unfold State.queueTx; try dsimp only
  repeat' first
    | with_reducible assumption
    | with_reducible refine State.transmit_keeps ?_
    | with_reducible refine State.modPort_keeps ?_
    | with_reducible refine ite_keeps ?_ ?_

theorem State.nextTx_keeps {s : State} {p : Port} (h_s : s.Inv) : (State.nextTx s p).Inv := by
  unfold State.nextTx; try dsimp only
  repeat' first
    | with_reducible assumption
    | with_reducible refine State.transmit_keeps ?_
    | with_reducible refine State.modPort_keeps ?_
    | split

theorem State.send_keeps {s : State} {p : Port} {line : Sop} {t : PdType} {objs : List Word} (h_s : s.Inv) : (State.send s p line t objs).Inv := by
  unfold State.send; try dsimp only
  repeat' first
    | with_reducible assumption
    | with_reducible refine State.queueTx_keeps ?_
    | with_reducible refine State.modPort_keeps ?_
    | with_reducible refine ite_keeps ?_ ?_

theorem State.sendCtl_keeps {s : State} {p : Port} {t : PdType} (h_s : s.Inv) : (State.sendCtl s p t).Inv := by
  unfold State.sendCtl; try dsimp only
  repeat' first
    | with_reducible assumption
    | with_reducible refine State.send_keeps ?_

theorem State.disarmFrs_keeps {s : State} {p : Port} (h_s : s.Inv) : (State.disarmFrs s p).Inv := by
  unfold State.disarmFrs; try dsimp only
  repeat' first
    | with_reducible assumption
    | with_reducible refine State.setMode_keeps ?_
    | with_reducible refine State.setBit_keeps ?_
    | with_reducible refine ite_keeps ?_ ?_

theorem State.beginAms_keeps {s : State} {p : Port} {a : Ams} {own : Bool} {step : Nat} (h_s : s.Inv) : (State.beginAms s p a own step).Inv := by
  unfold State.beginAms; try dsimp only
  repeat' first
    | with_reducible assumption
    | with_reducible refine ite_keeps ?_ ?_
    | with_reducible refine State.disarmFrs_keeps ?_
    | with_reducible refine State.modPort_keeps ?_
    | with_reducible refine State.setBit_keeps ?_

theorem State.armFrs_keeps {s : State} {p : Port} (h_s : s.Inv) : (State.armFrs s p).Inv := by
  unfold State.armFrs; try dsimp only
  repeat' first
    | with_reducible assumption
    | with_reducible refine ite_keeps ?_ ?_
    | with_reducible refine State.disarmFrs_keeps ?_
    | with_reducible refine State.setMode_keeps ?_
    | with_reducible refine State.setBit_keeps ?_

theorem State.sendSourceCaps_keeps {s : State} {p : Port} {own : Bool} (h_s : s.Inv) : (State.sendSourceCaps s p own).Inv := by
  unfold State.sendSourceCaps; try dsimp only
  repeat' first
    | with_reducible assumption
    | with_reducible refine State.beginAms_keeps ?_
    | with_reducible refine State.modPort_keeps ?_
    | with_reducible refine State.send_keeps ?_
    | with_reducible refine State.arm_keeps ?_

theorem State.askVdm_keeps {s : State} {p : Port} {line : Sop} {svid pos cmd : Nat} {a : Ams} (h_s : s.Inv) : (State.askVdm s p line svid pos cmd a).Inv := by
  unfold State.askVdm; try dsimp only
  repeat' first
    | with_reducible assumption
    | with_reducible refine State.beginAms_keeps ?_
    | with_reducible refine State.send_keeps ?_
    | with_reducible refine State.arm_keeps ?_

theorem State.modePosition_keeps {s : State} {p : Port} {i : Nat} (h_s : s.Inv) : (State.modePosition s p i).2.Inv := by
  unfold State.modePosition; try dsimp only
  repeat' first
    | with_reducible assumption
    | with_reducible refine State.fresh_keeps ?_
    | split

theorem State.modePosition_keeps_eq {s : State} {p : Port} {i : Nat} {r₁ : Nat} {r₂ : State} (h_s : s.Inv) (e : State.modePosition s p i = (r₁, r₂)) : r₂.Inv := by
  have := State.modePosition_keeps (s := s) (p := p) (i := i) h_s; rw [e] at this; exact this

theorem State.askMode_keeps {s : State} {p : Port} {i : Nat} {enter : Bool} (h_s : s.Inv) : (State.askMode s p i enter).Inv := by
  unfold State.askMode; try dsimp only
  repeat' first
    | with_reducible assumption
    | with_reducible refine State.modePosition_keeps ?_
    | with_reducible refine State.modPort_keeps ?_
    | with_reducible refine State.askVdm_keeps ?_
    | split

theorem State.sendHostVdm_keeps {s : State} {p : Port} (h_s : s.Inv) : (State.sendHostVdm s p).Inv := by
  unfold State.sendHostVdm; try dsimp only
  repeat' first
    | with_reducible assumption
    | with_reducible refine State.queueTx_keeps ?_
    | with_reducible refine State.modPort_keeps ?_

theorem State.sendRefresh_keeps {s : State} {p : Port} (h_s : s.Inv) : (State.sendRefresh s p).Inv := by
  unfold State.sendRefresh; try dsimp only
  repeat' first
    | with_reducible assumption
    | with_reducible refine State.beginAms_keeps ?_
    | with_reducible refine State.modPath_keeps ?_
    | with_reducible refine State.modPort_keeps ?_
    | with_reducible refine State.send_keeps ?_
    | with_reducible refine State.arm_keeps ?_
    | with_reducible refine ite_keeps ?_ ?_

theorem State.sendPrSwap_keeps {s : State} {p : Port} (h_s : s.Inv) : (State.sendPrSwap s p).Inv := by
  unfold State.sendPrSwap; try dsimp only
  repeat' first
    | with_reducible assumption
    | with_reducible refine State.grantSource_keeps ?_
    | with_reducible refine State.beginAms_keeps ?_
    | with_reducible refine State.sendCtl_keeps ?_
    | with_reducible refine State.setBit_keeps ?_
    | with_reducible refine State.arm_keeps ?_
    | with_reducible refine ite_keeps ?_ ?_
    | split

theorem State.discoverStep_keeps {s : State} {p : Port} (h_s : s.Inv) : (State.discoverStep s p).Inv := by
  unfold State.discoverStep; try dsimp only
  repeat' first
    | with_reducible assumption
    | with_reducible refine State.askMode_keeps ?_
    | with_reducible refine State.modPort_keeps ?_
    | with_reducible refine State.askVdm_keeps ?_
    | with_reducible refine ite_keeps ?_ ?_
    | split

theorem State.idleModes_keeps {s : State} {p : Port} (h_s : s.Inv) : (State.idleModes s p).Inv := by
  unfold State.idleModes; try dsimp only
  repeat' first
    | with_reducible assumption
    | with_reducible refine State.setBit_keeps ?_
    | with_reducible refine ite_keeps ?_ ?_

theorem State.startPending_keeps {s : State} {p : Port} (h_s : s.Inv) : (State.startPending s p).Inv := by
  unfold State.startPending; try dsimp only
  repeat' first
    | with_reducible assumption
    | with_reducible refine ite_keeps ?_ ?_
    | with_reducible refine State.sendSourceCaps_keeps ?_
    | with_reducible refine State.discoverStep_keeps ?_
    | with_reducible refine State.sendRefresh_keeps ?_
    | with_reducible refine State.sendHostVdm_keeps ?_
    | with_reducible refine State.sendPrSwap_keeps ?_
    | with_reducible refine State.idleModes_keeps ?_
    | with_reducible refine State.beginAms_keeps ?_
    | with_reducible refine State.askMode_keeps ?_
    | with_reducible refine State.sendCtl_keeps ?_
    | with_reducible refine State.setBit_keeps ?_
    | with_reducible refine State.arm_keeps ?_

theorem State.finishAms_keeps {s : State} {p : Port} (h_s : s.Inv) : (State.finishAms s p).Inv := by
  unfold State.finishAms; try dsimp only
  repeat' first
    | with_reducible assumption
    | with_reducible refine State.startPending_keeps ?_
    | with_reducible refine State.clearAms_keeps ?_
    | with_reducible refine State.modPath_keeps ?_
    | with_reducible refine State.armFrs_keeps ?_

theorem State.startSourcePd_keeps {s : State} {p : Port} (h_s : s.Inv) : (State.startSourcePd s p).Inv := by
  unfold State.startSourcePd; try dsimp only
  repeat' first
    | with_reducible assumption
    | with_reducible refine ite_keeps ?_ ?_
    | with_reducible refine State.sendSourceCaps_keeps ?_
    | with_reducible refine State.modPort_keeps ?_
    | with_reducible refine State.arm_keeps ?_

theorem State.makeContract_keeps {s : State} {p : Port} {d : Deal} {sourcing : Bool} (h_s : s.Inv) : (State.makeContract s p d sourcing).Inv := by
  unfold State.makeContract; try dsimp only
  repeat' first
    | with_reducible assumption
    | with_reducible refine State.modPort_keeps ?_
    | with_reducible refine State.pdEvent_keeps ?_
    | with_reducible refine State.setFld_keeps ?_
    | with_reducible refine State.setBit_keeps ?_
    | with_reducible refine State.setReg_keeps ?_

theorem State.armContract_keeps {s : State} {p : Port} {kind : Nat} (h_s : s.Inv) : (State.armContract s p kind).Inv := by
  unfold State.armContract; try dsimp only
  repeat' first
    | with_reducible assumption
    | with_reducible refine State.disarm_keeps ?_
    | with_reducible refine State.arm_keeps ?_
    | with_reducible refine ite_keeps ?_ ?_

theorem State.sourceReady_keeps {s : State} {p : Port} (h_s : s.Inv) : (State.sourceReady s p).Inv := by
  unfold State.sourceReady; try dsimp only
  repeat' first
    | with_reducible assumption
    | with_reducible refine State.makeContract_keeps ?_
    | with_reducible refine State.armContract_keeps ?_
    | with_reducible refine State.sendCtl_keeps ?_
    | with_reducible refine State.setFld_keeps ?_
    | split

theorem State.sendRequest_keeps {s : State} {p : Port} {c : Choice} (h_s : s.Inv) : (State.sendRequest s p c).Inv := by
  unfold State.sendRequest; try dsimp only
  repeat' first
    | with_reducible assumption
    | with_reducible refine State.beginAms_keeps ?_
    | with_reducible refine State.modPort_keeps ?_
    | with_reducible refine State.send_keeps ?_
    | with_reducible refine State.arm_keeps ?_
    | with_reducible refine ite_keeps ?_ ?_

theorem State.requestBest_keeps {s : State} {p : Port} (h_s : s.Inv) : (State.requestBest s p).Inv := by
  unfold State.requestBest; try dsimp only
  repeat' first
    | with_reducible assumption
    | with_reducible refine State.sendRequest_keeps ?_
    | with_reducible refine State.askIntake_keeps ?_
    | with_reducible refine State.modPath_keeps ?_

theorem State.vconnOn_keeps {s : State} {p : Port} (h_s : s.Inv) : (State.vconnOn s p).Inv := by
  unfold State.vconnOn; try dsimp only
  repeat' first
    | with_reducible assumption
    | with_reducible refine ite_keeps ?_ ?_
    | with_reducible refine State.setBit_keeps ?_

theorem State.discoverCable_keeps {s : State} {p : Port} (h_s : s.Inv) : (State.discoverCable s p).Inv := by
  unfold State.discoverCable; try dsimp only
  repeat' first
    | with_reducible assumption
    | with_reducible refine State.modPort_keeps ?_
    | with_reducible refine State.send_keeps ?_
    | with_reducible refine ite_keeps ?_ ?_

theorem State.vconnTake_keeps {s : State} {p : Port} (h_s : s.Inv) : (State.vconnTake s p).Inv := by
  unfold State.vconnTake; try dsimp only
  repeat' first
    | with_reducible assumption
    | with_reducible refine State.discoverCable_keeps ?_
    | with_reducible refine State.finishAms_keeps ?_
    | with_reducible refine State.pdEvent_keeps ?_
    | with_reducible refine State.sendCtl_keeps ?_
    | with_reducible refine State.modPort_keeps ?_
    | with_reducible refine State.setBit_keeps ?_
    | with_reducible refine ite_keeps ?_ ?_

theorem State.cableAck_keeps {s : State} {p : Port} {objs : List Word} (h_s : s.Inv) : (State.cableAck s p objs).Inv := by
  unfold State.cableAck; try dsimp only
  repeat' first
    | with_reducible assumption
    | with_reducible refine State.pdEvent_keeps ?_
    | with_reducible refine State.modPort_keeps ?_
    | with_reducible refine State.setBit_keeps ?_
    | with_reducible refine State.setFld_keeps ?_

theorem State.toggleData_keeps {s : State} {p : Port} (h_s : s.Inv) : (State.toggleData s p).Inv := by
  unfold State.toggleData; try dsimp only
  repeat' first
    | with_reducible assumption
    | with_reducible refine State.pdEvent_keeps ?_
    | with_reducible refine State.setBit_keeps ?_

theorem State.prAccepted_keeps {s : State} {p : Port} (h_s : s.Inv) : (State.prAccepted s p).Inv := by
  unfold State.prAccepted; try dsimp only
  repeat' first
    | with_reducible assumption
    | with_reducible refine State.openFets_keeps ?_
    | with_reducible refine State.pathOff_keeps ?_
    | with_reducible refine State.modPort_keeps ?_
    | with_reducible refine State.modPath_keeps ?_
    | with_reducible refine State.disarm_keeps ?_
    | with_reducible refine ite_keeps ?_ ?_

theorem State.setCc_keeps {s : State} {p : Port} {c : CcTerm} (h_s : s.Inv) : (State.setCc s p c).Inv := by
  unfold State.setCc; try dsimp only
  repeat' first
    | with_reducible assumption
    | with_reducible refine State.modPort_keeps ?_

theorem State.takeRole_keeps {s : State} {p : Port} {source : Bool} (h_s : s.Inv) : (State.takeRole s p source).Inv := by
  unfold State.takeRole; try dsimp only
  repeat' first
    | with_reducible assumption
    | with_reducible refine State.endContract_keeps ?_
    | with_reducible refine State.setFld_keeps ?_
    | with_reducible refine State.setBit_keeps ?_
    | with_reducible refine State.setTc_keeps ?_
    | with_reducible refine State.setCc_keeps ?_

/-! ### PdRx -/

theorem State.setMode__keeps {s : State} {p : Port} {i : Nat} {on : Bool} (h_s : s.Inv) : (State.setMode_ s p i on).Inv := by
  unfold State.setMode_; try dsimp only
  repeat' first
    | with_reducible assumption
    | with_reducible refine State.pdEvent_keeps ?_
    | with_reducible refine State.setFld_keeps ?_

theorem State.passVdm_keeps {s : State} {p : Port} {m : PdMsg} {request : Bool} (h_s : s.Inv) : (State.passVdm s p m request).Inv := by
  unfold State.passVdm; try dsimp only
  repeat' first
    | with_reducible assumption
    | with_reducible refine ite_keeps ?_ ?_
    | with_reducible refine foldl_keeps (fun _ _ _ => ?_) ?_
    | with_reducible refine State.pdEvent_keeps ?_
    | with_reducible refine State.setBit_keeps ?_
    | with_reducible refine State.setFld_keeps ?_
    | with_reducible refine State.setReg_keeps ?_
    | with_reducible refine State.send_keeps ?_

theorem State.modeDone_keeps {s : State} {p : Port} {i : Nat} (h_s : s.Inv) : (State.modeDone s p i).Inv := by
  unfold State.modeDone; try dsimp only
  repeat' first
    | with_reducible assumption
    | with_reducible refine State.setBit_keeps ?_
    | with_reducible refine ite_keeps ?_ ?_

theorem State.vdmFails_keeps {s : State} {p : Port} (h_s : s.Inv) : (State.vdmFails s p).Inv := by
  unfold State.vdmFails; try dsimp only
  repeat' first
    | with_reducible assumption
    | with_reducible refine State.modeDone_keeps ?_
    | with_reducible refine State.modPort_keeps ?_
    | split

theorem State.identified_keeps {s : State} {p : Port} {objs : List Word} (h_s : s.Inv) : (State.identified s p objs).Inv := by
  unfold State.identified; try dsimp only
  repeat' first
    | with_reducible assumption
    | with_reducible refine State.pmemMatch_keeps ?_
    | with_reducible refine State.modPort_keeps ?_
    | with_reducible refine ite_keeps ?_ ?_
    | split

theorem State.vdmAck_keeps {s : State} {p : Port} {m : PdMsg} {svid cmd : Nat} (h_s : s.Inv) : (State.vdmAck s p m svid cmd).Inv := by
  unfold State.vdmAck; try dsimp only
  repeat' first
    | with_reducible assumption
    | with_reducible refine ite_keeps ?_ ?_
    | with_reducible refine foldl_keeps (fun _ _ _ => ?_) ?_
    | with_reducible refine State.identified_keeps ?_
    | with_reducible refine State.finishAms_keeps ?_
    | with_reducible refine State.modeDone_keeps ?_
    | with_reducible refine State.setMode__keeps ?_
    | with_reducible refine State.pdEvent_keeps ?_
    | with_reducible refine State.modPort_keeps ?_
    | with_reducible refine State.setFld_keeps ?_
    | split

theorem State.rxVdm_keeps {s : State} {p : Port} {m : PdMsg} (h_s : s.Inv) : (State.rxVdm s p m).Inv := by
  unfold State.rxVdm; try dsimp only
  repeat' first
    | with_reducible assumption
    | with_reducible refine ite_keeps ?_ ?_
    | with_reducible refine State.finishAms_keeps ?_
    | with_reducible refine State.cableAck_keeps ?_
    | with_reducible refine State.vdmFails_keeps ?_
    | with_reducible refine State.passVdm_keeps ?_
    | with_reducible refine State.vdmAck_keeps ?_
    | with_reducible refine State.send_keeps ?_

theorem State.rxAccept_keeps {s : State} {p : Port} (h_s : s.Inv) : (State.rxAccept s p).Inv := by
  unfold State.rxAccept; try dsimp only
  repeat' first
    | with_reducible assumption
    | with_reducible refine ite_keeps ?_ ?_
    | with_reducible refine State.startSourcePd_keeps ?_
    | with_reducible refine State.prAccepted_keeps ?_
    | with_reducible refine State.toggleData_keeps ?_
    | with_reducible refine State.vconnTake_keeps ?_
    | with_reducible refine State.finishAms_keeps ?_
    | with_reducible refine State.modPath_keeps ?_
    | with_reducible refine State.modPort_keeps ?_
    | with_reducible refine State.setFld_keeps ?_
    | with_reducible refine State.disarm_keeps ?_
    | with_reducible refine State.arm_keeps ?_
    | split

theorem State.rxReject_keeps {s : State} {p : Port} (h_s : s.Inv) : (State.rxReject s p).Inv := by
  unfold State.rxReject; try dsimp only
  repeat' first
    | with_reducible assumption
    | with_reducible refine ite_keeps ?_ ?_
    | with_reducible refine State.finishAms_keeps ?_
    | with_reducible refine State.vdmFails_keeps ?_

theorem State.rxSoftReset_keeps {s : State} {p : Port} (h_s : s.Inv) : (State.rxSoftReset s p).Inv := by
  unfold State.rxSoftReset; try dsimp only
  repeat' first
    | with_reducible assumption
    | with_reducible refine State.startSourcePd_keeps ?_
    | with_reducible refine State.resetIds_keeps ?_
    | with_reducible refine State.sendCtl_keeps ?_
    | with_reducible refine State.pdEvent_keeps ?_
    | with_reducible refine State.endAms_keeps ?_
    | with_reducible refine State.arm_keeps ?_
    | with_reducible refine ite_keeps ?_ ?_

theorem State.rxBist_keeps {s : State} {p : Port} {m : PdMsg} (h_s : s.Inv) : (State.rxBist s p m).Inv := by
  unfold State.rxBist; try dsimp only
  repeat' first
    | with_reducible assumption
    | with_reducible refine State.sendCtl_keeps ?_
    | with_reducible refine State.emit_keeps ?_
    | split

theorem State.freshWords_keeps {n : Nat} {s : State} (h_s : s.Inv) : (State.freshWords n s).2.Inv := by
  induction n generalizing s with
  | zero => exact h_s
  | succ n ih => exact ih (State.fresh_keeps h_s)

theorem State.takeMsg_keeps {s t : State} {p : Port} {f : PdType → Bool} {m : PdMsg} (h_s : s.Inv)
    (e : s.takeMsg p f = some (m, t)) : t.Inv := by
  unfold State.takeMsg at e
  split at e
  · cases e; exact State.modPort_keeps h_s
  · split at e
    · cases e; exact State.modPort_keeps h_s
    · cases e

theorem State.answer_keeps {s : State} {p : Port} {m : PdMsg} (h_s : s.Inv) : (State.answer s p m).Inv := by
  unfold State.answer; try dsimp only
  repeat' first
    | with_reducible assumption
    | with_reducible refine ite_keeps ?_ ?_
    | with_reducible refine State.sendSourceCaps_keeps ?_
    | with_reducible refine State.rxSoftReset_keeps ?_
    | with_reducible refine State.armContract_keeps ?_
    | with_reducible refine State.finishAms_keeps ?_
    | with_reducible refine State.rxAccept_keeps ?_
    | with_reducible refine State.rxReject_keeps ?_
    | with_reducible refine State.sendCtl_keeps ?_
    | with_reducible refine State.disarm_keeps ?_
    | with_reducible refine State.rxBist_keeps ?_
    | with_reducible refine State.setBit_keeps ?_
    | with_reducible refine State.rxVdm_keeps ?_
    | with_reducible refine State.fresh_keeps ?_
    | with_reducible refine State.send_keeps ?_
    | with_reducible refine State.arm_keeps ?_
    | with_reducible refine State.freshWords_keeps ?_
    | split

theorem State.abandonAms_keeps {s : State} {p : Port} (h_s : s.Inv) : (State.abandonAms s p).Inv := by
  unfold State.abandonAms; try dsimp only
  repeat' first
    | with_reducible assumption
    | with_reducible refine State.clearAms_keeps ?_
    | with_reducible refine State.modPath_keeps ?_
    | with_reducible refine State.armFrs_keeps ?_
    | with_reducible refine State.dropTx_keeps ?_

theorem State.drain_keeps {n : Nat} {p : Port} {s : State} (h_s : s.Inv) : (State.drain n p s).Inv := by
  induction n generalizing s with
  | zero => exact h_s
  | succ n ih =>
    unfold State.drain
    split
    · exact ih (State.answer_keeps (State.takeMsg_keeps h_s ‹_›))
    · exact h_s

theorem State.rxGoodCrc_keeps {s : State} {p : Port} {m : PdMsg} (h_s : s.Inv) : (State.rxGoodCrc s p m).Inv := by
  unfold State.rxGoodCrc; try dsimp only
  repeat' first
    | with_reducible assumption
    | with_reducible refine ite_keeps ?_ ?_
    | with_reducible refine State.startPending_keeps ?_
    | with_reducible refine State.finishAms_keeps ?_
    | with_reducible refine State.vdmResult_keeps ?_
    | with_reducible refine State.nextTx_keeps ?_
    | with_reducible refine State.nextId_keeps ?_
    | split

theorem State.rxWins_keeps {s : State} {p : Port} {m : PdMsg} (h_s : s.Inv) : (State.rxWins s p m).Inv := by
  unfold State.rxWins; try dsimp only
  repeat' first
    | with_reducible assumption
    | with_reducible refine State.abandonAms_keeps ?_
    | with_reducible refine State.dropTx_keeps ?_
    | with_reducible refine ite_keeps ?_ ?_

theorem State.buffer_keeps {s : State} {p : Port} {m : PdMsg} (h_s : s.Inv) : (State.buffer s p m).Inv := by
  unfold State.buffer; try dsimp only
  repeat' first
    | with_reducible assumption
    | with_reducible refine State.modPort_keeps ?_

theorem State.rxChunk_keeps {s : State} {p : Port} {m : PdMsg} (h_s : s.Inv) : (State.rxChunk s p m).Inv := by
  unfold State.rxChunk; try dsimp only
  repeat' first
    | with_reducible assumption
    | with_reducible refine State.modPort_keeps ?_
    | with_reducible refine State.queueTx_keeps ?_
    | with_reducible refine State.buffer_keeps ?_
    | with_reducible refine ite_keeps ?_ ?_

theorem State.takeIn_keeps {s : State} {p : Port} {m : PdMsg} (h_s : s.Inv) : (State.takeIn s p m).Inv := by
  unfold State.takeIn; try dsimp only
  repeat' first
    | with_reducible assumption
    | with_reducible refine State.rxChunk_keeps ?_
    | with_reducible refine State.buffer_keeps ?_
    | with_reducible refine ite_keeps ?_ ?_

theorem State.pdRx_keeps {s : State} {p : Port} {m : PdMsg} {crcOk : Bool} (h_s : s.Inv) : (State.pdRx s p m crcOk).Inv := by
  unfold State.pdRx; try dsimp only
  repeat' first
    | with_reducible assumption
    | with_reducible refine ite_keeps ?_ ?_
    | with_reducible refine State.rxGoodCrc_keeps ?_
    | with_reducible refine State.modPort_keeps ?_
    | with_reducible refine State.takeIn_keeps ?_
    | with_reducible refine State.rxWins_keeps ?_
    | with_reducible refine State.disarm_keeps ?_
    | with_reducible refine State.satInc_keeps ?_
    | with_reducible refine State.emit_keeps ?_
    | with_reducible refine State.arm_keeps ?_
    | with_reducible refine State.drain_keeps ?_

/-! ### TypeC -/

theorem State.implicitIntake_keeps {s : State} {p : Port} (h_s : s.Inv) : (State.implicitIntake s p).Inv := by
  unfold State.implicitIntake; try dsimp only
  repeat' first
    | with_reducible assumption
    | with_reducible refine ite_keeps ?_ ?_
    | with_reducible refine State.askIntake_keeps ?_
    | with_reducible refine State.modPath_keeps ?_

theorem State.tryPass_keeps {s : State} {p : Port} (h_s : s.Inv) : (State.tryPass s p).Inv := by
  unfold State.tryPass; try dsimp only
  repeat' first
    | with_reducible assumption
    | with_reducible refine State.closeFets_keeps ?_
    | with_reducible refine State.setMode_keeps ?_
    | with_reducible refine State.setFld_keeps ?_
    | with_reducible refine ite_keeps ?_ ?_

theorem State.passOn_keeps {s : State} (h_s : s.Inv) : (State.passOn s).Inv := by
  unfold State.passOn; try dsimp only
  repeat' first
    | with_reducible assumption
    | with_reducible refine State.tryPass_keeps ?_
    | with_reducible refine State.forAll_keeps (fun _ _ _ => ?_) ?_

theorem State.attachSink_keeps {s : State} {p : Port} {cc1 cc2 : CcTerm} (h_s : s.Inv) : (State.attachSink s p cc1 cc2).Inv := by
  unfold State.attachSink; try dsimp only
  repeat' first
    | with_reducible assumption
    | with_reducible refine ite_keeps ?_ ?_
    | with_reducible refine State.implicitIntake_keeps ?_
    | with_reducible refine State.closeFets_keeps ?_
    | with_reducible refine State.tryPass_keeps ?_
    | with_reducible refine State.pdEvent_keeps ?_
    | with_reducible refine State.modPort_keeps ?_
    | with_reducible refine State.setBit_keeps ?_
    | with_reducible refine State.setFld_keeps ?_
    | with_reducible refine State.fresh_keeps ?_
    | with_reducible refine State.setTc_keeps ?_
    | with_reducible refine State.arm_keeps ?_

theorem State.attachSource_keeps {s : State} {p : Port} {cc1 : CcTerm} (h_s : s.Inv) : (State.attachSource s p cc1).Inv := by
  unfold State.attachSource; try dsimp only
  repeat' first
    | with_reducible assumption
    | with_reducible refine State.discoverCable_keeps ?_
    | with_reducible refine State.sourceStart_keeps ?_
    | with_reducible refine State.pdEvent_keeps ?_
    | with_reducible refine State.vconnOn_keeps ?_
    | with_reducible refine State.setFld_keeps ?_
    | with_reducible refine State.setBit_keeps ?_
    | with_reducible refine State.setTc_keeps ?_

theorem State.accessory_keeps {s : State} {p : Port} {code : Nat} (h_s : s.Inv) : (State.accessory s p code).Inv := by
  unfold State.accessory; try dsimp only
  repeat' first
    | with_reducible assumption
    | with_reducible refine State.pdEvent_keeps ?_
    | with_reducible refine State.setTc_keeps ?_

theorem State.unattachedBy_keeps {s : State} {p : Port} (h_s : s.Inv) : (State.unattachedBy s p).Inv := by
  unfold State.unattachedBy; try dsimp only
  repeat' first
    | with_reducible assumption
    | with_reducible refine State.unattached_keeps ?_

theorem State.unattachedSrc_keeps {s : State} {p : Port} (h_s : s.Inv) : (State.unattachedSrc s p).Inv := by
  unfold State.unattachedSrc; try dsimp only
  repeat' first
    | with_reducible assumption
    | with_reducible refine State.unattached_keeps ?_
    | with_reducible refine State.setTc_keeps ?_
    | with_reducible refine ite_keeps ?_ ?_

theorem State.sinkDetach_keeps {s : State} {p : Port} (h_s : s.Inv) : (State.sinkDetach s p).Inv := by
  unfold State.sinkDetach; try dsimp only
  repeat' first
    | with_reducible assumption
    | with_reducible refine State.passOn_keeps ?_
    | with_reducible refine State.errorRecovery_keeps ?_
    | with_reducible refine State.unattached_keeps ?_
    | with_reducible refine State.detach_keeps ?_
    | with_reducible refine ite_keeps ?_ ?_

theorem State.sourceDetach_keeps {s : State} {p : Port} (h_s : s.Inv) : (State.sourceDetach s p).Inv := by
  unfold State.sourceDetach; try dsimp only
  repeat' first
    | with_reducible assumption
    | with_reducible refine State.unattached_keeps ?_
    | with_reducible refine State.detach_keeps ?_

theorem State.tcMove_keeps {s : State} {p : Port} {a b : CcTerm} (h_s : s.Inv) : (State.tcMove s p a b).Inv := by
  unfold State.tcMove; try dsimp only
  repeat' first
    | with_reducible assumption
    | with_reducible refine State.unattachedSrc_keeps ?_
    | with_reducible refine State.sourceDetach_keeps ?_
    | with_reducible refine State.startPending_keeps ?_
    | with_reducible refine State.attachSource_keeps ?_
    | with_reducible refine State.attachSink_keeps ?_
    | with_reducible refine State.sinkDetach_keeps ?_
    | with_reducible refine State.unattached_keeps ?_
    | with_reducible refine State.accessory_keeps ?_
    | with_reducible refine State.setFld_keeps ?_
    | with_reducible refine State.setTc_keeps ?_
    | with_reducible refine ite_keeps ?_ ?_
    | split

theorem State.tcDebounce_keeps {s : State} {p : Port} {a b : CcTerm} (h_s : s.Inv) : (State.tcDebounce s p a b).Inv := by
  unfold State.tcDebounce; try dsimp only
  repeat' first
    | with_reducible assumption
    | with_reducible refine State.modPort_keeps ?_
    | with_reducible refine State.tcMove_keeps ?_

theorem State.drpToggle_keeps {s : State} {p : Port} (h_s : s.Inv) : (State.drpToggle s p).Inv := by
  unfold State.drpToggle; try dsimp only
  repeat' first
    | with_reducible assumption
    | with_reducible refine State.unattached_keeps ?_
    | with_reducible refine State.latchRole_keeps ?_
    | with_reducible refine State.setTc_keeps ?_
    | with_reducible refine ite_keeps ?_ ?_

theorem State.endSpan_keeps {s : State} {p : Port} (h_s : s.Inv) : (State.endSpan s p).Inv := by
  unfold State.endSpan; try dsimp only
  repeat' first
    | with_reducible assumption
    | with_reducible refine State.sourceDetach_keeps ?_
    | with_reducible refine State.sinkDetach_keeps ?_
    | with_reducible refine State.modPort_keeps ?_
    | with_reducible refine ite_keeps ?_ ?_

theorem State.vbusLost_keeps {s : State} {p : Port} (h_s : s.Inv) : (State.vbusLost s p).Inv := by
  unfold State.vbusLost; try dsimp only
  repeat' first
    | with_reducible assumption
    | with_reducible refine State.unattached_keeps ?_
    | with_reducible refine State.sinkDetach_keeps ?_
    | with_reducible refine ite_keeps ?_ ?_
    | split

/-! ### PdRows -/

theorem State.sourceCaps_keeps {s : State} {p : Port} {m : PdMsg} (h_s : s.Inv) : (State.sourceCaps s p m).Inv := by
  unfold State.sourceCaps; try dsimp only
  repeat' first
    | with_reducible assumption
    | with_reducible refine ite_keeps ?_ ?_
    | with_reducible refine State.sendRequest_keeps ?_
    | with_reducible refine State.requestBest_keeps ?_
    | with_reducible refine State.pmemMatch_keeps ?_
    | with_reducible refine State.modPath_keeps ?_
    | with_reducible refine State.modPort_keeps ?_
    | with_reducible refine State.disarm_keeps ?_
    | split

theorem State.acceptRequest_keeps {s : State} {p : Port} {d : Deal} (h_s : s.Inv) : (State.acceptRequest s p d).Inv := by
  unfold State.acceptRequest; try dsimp only
  repeat' first
    | with_reducible assumption
    | with_reducible refine State.sourceReady_keeps ?_
    | with_reducible refine State.beginAms_keeps ?_
    | with_reducible refine State.modPort_keeps ?_
    | with_reducible refine State.sendCtl_keeps ?_
    | with_reducible refine State.setFld_keeps ?_
    | with_reducible refine State.setBit_keeps ?_
    | with_reducible refine ite_keeps ?_ ?_

theorem State.request_keeps {s : State} {p : Port} {m : PdMsg} (h_s : s.Inv) : (State.request s p m).Inv := by
  unfold State.request; try dsimp only
  repeat' first
    | with_reducible assumption
    | with_reducible refine State.acceptRequest_keeps ?_
    | with_reducible refine State.finishAms_keeps ?_
    | with_reducible refine State.askSource_keeps ?_
    | with_reducible refine State.sendCtl_keeps ?_
    | with_reducible refine State.disarm_keeps ?_
    | with_reducible refine ite_keeps ?_ ?_
    | split

theorem State.eprMode_keeps {s : State} {p : Port} (h_s : s.Inv) : (State.eprMode s p).Inv := by
  unfold State.eprMode; try dsimp only
  repeat' first
    | with_reducible assumption
    | with_reducible refine ite_keeps ?_ ?_
    | with_reducible refine State.sendSourceCaps_keeps ?_
    | with_reducible refine State.beginAms_keeps ?_
    | with_reducible refine State.sendCtl_keeps ?_
    | with_reducible refine State.setBit_keeps ?_
    | with_reducible refine State.arm_keeps ?_
    | with_reducible refine State.takeMsg_keeps ?_ (by assumption)
    | split

theorem State.leaveEpr_keeps {s : State} {p : Port} (h_s : s.Inv) : (State.leaveEpr s p).Inv := by
  unfold State.leaveEpr; try dsimp only
  repeat' first
    | with_reducible assumption
    | with_reducible refine ite_keeps ?_ ?_
    | with_reducible refine State.sendSourceCaps_keeps ?_
    | with_reducible refine State.armContract_keeps ?_
    | with_reducible refine State.hardReset_keeps ?_
    | with_reducible refine State.sendCtl_keeps ?_
    | with_reducible refine State.setBit_keeps ?_
    | with_reducible refine State.arm_keeps ?_

theorem State.offerAfterReset_keeps {s : State} {p : Port} (h_s : s.Inv) : (State.offerAfterReset s p).Inv := by
  unfold State.offerAfterReset; try dsimp only
  repeat' first
    | with_reducible assumption
    | with_reducible refine State.startSourcePd_keeps ?_
    | with_reducible refine ite_keeps ?_ ?_

theorem State.settlePort_keeps {s : State} {p : Port} (h_s : s.Inv) : (State.settlePort s p).Inv := by
  unfold State.settlePort; try dsimp only
  repeat' first
    | with_reducible assumption
    | with_reducible refine State.offerAfterReset_keeps ?_
    | with_reducible refine State.leaveEpr_keeps ?_
    | with_reducible refine State.drain_keeps ?_

theorem State.settlePorts_keeps {s : State} (h_s : s.Inv) : (State.settlePorts s).Inv := by
  unfold State.settlePorts; try dsimp only
  repeat' first
    | with_reducible assumption
    | with_reducible refine State.settlePort_keeps ?_
    | with_reducible refine State.forAll_keeps (fun _ _ _ => ?_) ?_

theorem State.rxDrSwap_keeps {s : State} {p : Port} (h_s : s.Inv) : (State.rxDrSwap s p).Inv := by
  unfold State.rxDrSwap; try dsimp only
  repeat' first
    | with_reducible assumption
    | with_reducible refine State.toggleData_keeps ?_
    | with_reducible refine State.sendCtl_keeps ?_
    | with_reducible refine ite_keeps ?_ ?_

theorem State.rxPrSwap_keeps {s : State} {p : Port} (h_s : s.Inv) : (State.rxPrSwap s p).Inv := by
  unfold State.rxPrSwap; try dsimp only
  repeat' first
    | with_reducible assumption
    | with_reducible refine ite_keeps ?_ ?_
    | with_reducible refine State.grantSource_keeps ?_
    | with_reducible refine State.prAccepted_keeps ?_
    | with_reducible refine State.beginAms_keeps ?_
    | with_reducible refine State.sendCtl_keeps ?_
    | split

theorem State.rxVconnSwap_keeps {s : State} {p : Port} (h_s : s.Inv) : (State.rxVconnSwap s p).Inv := by
  unfold State.rxVconnSwap; try dsimp only
  repeat' first
    | with_reducible assumption
    | with_reducible refine ite_keeps ?_ ?_
    | with_reducible refine State.vconnTake_keeps ?_
    | with_reducible refine State.beginAms_keeps ?_
    | with_reducible refine State.sendCtl_keeps ?_

theorem State.frSwap_keeps {s : State} {p : Port} (h_s : s.Inv) : (State.frSwap s p).Inv := by
  unfold State.frSwap; try dsimp only
  repeat' first
    | with_reducible assumption
    | with_reducible refine State.takeMsg_keeps ?_ (by assumption)
    | with_reducible refine State.takeRole_keeps ?_
    | with_reducible refine State.beginAms_keeps ?_
    | with_reducible refine State.sendCtl_keeps ?_
    | with_reducible refine State.arm_keeps ?_
    | with_reducible refine ite_keeps ?_ ?_
    | split

theorem State.swapDone_keeps {s : State} {p : Port} {event : Nat} (h_s : s.Inv) : (State.swapDone s p event).Inv := by
  unfold State.swapDone; try dsimp only
  repeat' first
    | with_reducible assumption
    | with_reducible refine State.finishAms_keeps ?_
    | with_reducible refine State.pdEvent_keeps ?_
    | with_reducible refine State.endSpan_keeps ?_

theorem State.beginOffer_keeps {s : State} {p : Port} (h_s : s.Inv) : (State.beginOffer s p).Inv := by
  unfold State.beginOffer; try dsimp only
  repeat' first
    | with_reducible assumption
    | with_reducible refine State.startSourcePd_keeps ?_
    | with_reducible refine ite_keeps ?_ ?_

theorem State.takeVbus_keeps {s : State} {p : Port} (h_s : s.Inv) : (State.takeVbus s p).Inv := by
  unfold State.takeVbus; try dsimp only
  repeat' first
    | with_reducible assumption
    | with_reducible refine ite_keeps ?_ ?_
    | with_reducible refine State.implicitIntake_keeps ?_
    | with_reducible refine State.closeFets_keeps ?_
    | with_reducible refine State.swapDone_keeps ?_
    | with_reducible refine State.arm_keeps ?_

theorem State.partnerReady_keeps {s : State} {p : Port} (h_s : s.Inv) : (State.partnerReady s p).Inv := by
  unfold State.partnerReady; try dsimp only
  repeat' first
    | with_reducible assumption
    | with_reducible refine ite_keeps ?_ ?_
    | with_reducible refine State.makeContract_keeps ?_
    | with_reducible refine State.sourceStart_keeps ?_
    | with_reducible refine State.armContract_keeps ?_
    | with_reducible refine State.vconnOffNow_keeps ?_
    | with_reducible refine State.beginOffer_keeps ?_
    | with_reducible refine State.sinkStart_keeps ?_
    | with_reducible refine State.finishAms_keeps ?_
    | with_reducible refine State.takeRole_keeps ?_
    | with_reducible refine State.takeVbus_keeps ?_
    | with_reducible refine State.swapDone_keeps ?_
    | with_reducible refine State.modPath_keeps ?_
    | with_reducible refine State.pdEvent_keeps ?_
    | with_reducible refine State.modPort_keeps ?_
    | with_reducible refine State.sendCtl_keeps ?_
    | with_reducible refine State.setFld_keeps ?_
    | split

theorem State.tReceive_keeps {s : State} {p : Port} (h_s : s.Inv) : (State.tReceive s p).Inv := by
  unfold State.tReceive; try dsimp only
  repeat' first
    | with_reducible assumption
    | with_reducible refine ite_keeps ?_ ?_
    | with_reducible refine State.startPending_keeps ?_
    | with_reducible refine State.abandonAms_keeps ?_
    | with_reducible refine State.vdmResult_keeps ?_
    | with_reducible refine State.modPort_keeps ?_
    | with_reducible refine State.nextTx_keeps ?_
    | with_reducible refine State.nextId_keeps ?_
    | with_reducible refine State.satInc_keeps ?_
    | with_reducible refine State.emit_keeps ?_
    | split

theorem State.sendSoftReset_keeps {s : State} {p : Port} (h_s : s.Inv) : (State.sendSoftReset s p).Inv := by
  unfold State.sendSoftReset; try dsimp only
  repeat' first
    | with_reducible assumption
    | with_reducible refine State.vdmFails_keeps ?_
    | with_reducible refine State.resetIds_keeps ?_
    | with_reducible refine State.pdEvent_keeps ?_
    | with_reducible refine State.sendCtl_keeps ?_
    | with_reducible refine State.endAms_keeps ?_
    | with_reducible refine State.arm_keeps ?_

theorem State.timerReset_keeps {s : State} {p : Port} (h_s : s.Inv) : (State.timerReset s p).Inv := by
  unfold State.timerReset; try dsimp only
  repeat' first
    | with_reducible assumption
    | with_reducible refine State.errorRecovery_keeps ?_
    | with_reducible refine State.hardReset_keeps ?_
    | with_reducible refine ite_keeps ?_ ?_

theorem State.vconnOverload_keeps {s : State} {p : Port} (h_s : s.Inv) : (State.vconnOverload s p).Inv := by
  unfold State.vconnOverload; try dsimp only
  repeat' first
    | with_reducible assumption
    | with_reducible refine ite_keeps ?_ ?_
    | with_reducible refine State.startPending_keeps ?_
    | with_reducible refine State.vconnOffNow_keeps ?_
    | with_reducible refine State.pdEvent_keeps ?_
    | with_reducible refine State.modPort_keeps ?_
    | with_reducible refine State.nextTx_keeps ?_
    | with_reducible refine State.dropTx_keeps ?_

theorem State.frsSignal_keeps {s : State} {p : Port} (h_s : s.Inv) : (State.frsSignal s p).Inv := by
  unfold State.frsSignal; try dsimp only
  repeat' first
    | with_reducible assumption
    | with_reducible refine State.setLoopSt_keeps ?_
    | with_reducible refine State.loadLegs_keeps ?_
    | with_reducible refine State.loopTrip_keeps ?_
    | with_reducible refine State.modPath_keeps ?_
    | with_reducible refine State.setMode_keeps ?_
    | with_reducible refine State.pdEvent_keeps ?_
    | with_reducible refine State.modPort_keeps ?_
    | with_reducible refine State.modLoop_keeps ?_
    | with_reducible refine State.endAms_keeps ?_
    | with_reducible refine State.setBit_keeps ?_
    | with_reducible refine State.setFld_keeps ?_
    | with_reducible refine State.raise_keeps ?_
    | with_reducible refine State.fresh_keeps ?_

theorem State.vdmTxGo_keeps {s : State} {p : Port} (h_s : s.Inv) : (State.vdmTxGo s p).Inv := by
  unfold State.vdmTxGo; try dsimp only
  repeat' first
    | with_reducible assumption
    | with_reducible refine ite_keeps ?_ ?_
    | with_reducible refine State.sendHostVdm_keeps ?_
    | with_reducible refine State.vdmResult_keeps ?_
    | with_reducible refine State.modPort_keeps ?_
    | with_reducible refine State.setBit_keeps ?_
    | with_reducible refine State.setFld_keeps ?_

theorem State.applyCfg_keeps {s : State} {p : Port} (h_s : s.Inv) : (State.applyCfg s p).Inv := by
  unfold State.applyCfg; try dsimp only
  repeat' first
    | with_reducible assumption
    | with_reducible refine State.passOn_keeps ?_
    | with_reducible refine State.errorRecovery_keeps ?_

theorem State.leaveDisabled_keeps {s : State} {p : Port} (h_s : s.Inv) : (State.leaveDisabled s p).Inv := by
  unfold State.leaveDisabled; try dsimp only
  repeat' first
    | with_reducible assumption
    | with_reducible refine State.unattached_keeps ?_
    | with_reducible refine ite_keeps ?_ ?_

/-! ### Path -/

theorem State.vreached_keeps {s : State} {p : Port} (h_s : s.Inv) : (State.vreached s p).Inv := by
  unfold State.vreached; try dsimp only
  repeat' first
    | with_reducible assumption
    | with_reducible refine State.sourceReady_keeps ?_
    | with_reducible refine State.setBit_keeps ?_
    | with_reducible refine ite_keeps ?_ ?_

theorem State.gateClosed_keeps {s : State} {p : Port} (h_s : s.Inv) : (State.gateClosed s p).Inv := by
  unfold State.gateClosed; try dsimp only
  repeat' first
    | with_reducible assumption
    | with_reducible refine ite_keeps ?_ ?_
    | with_reducible refine State.implicitIntake_keeps ?_
    | with_reducible refine State.beginOffer_keeps ?_
    | with_reducible refine State.sinkStart_keeps ?_
    | with_reducible refine State.swapDone_keeps ?_
    | with_reducible refine State.endSpan_keeps ?_
    | with_reducible refine State.modPath_keeps ?_
    | with_reducible refine State.sendCtl_keeps ?_
    | with_reducible refine State.setBit_keeps ?_
    | with_reducible refine State.arm_keeps ?_

theorem State.dschgDone_keeps {s : State} {p : Port} (h_s : s.Inv) : (State.dschgDone s p).Inv := by
  unfold State.dschgDone; try dsimp only
  repeat' first
    | with_reducible assumption
    | with_reducible refine State.takeRole_keeps ?_
    | with_reducible refine State.modPort_keeps ?_
    | with_reducible refine State.sendCtl_keeps ?_
    | with_reducible refine State.modPath_keeps ?_
    | with_reducible refine State.setBit_keeps ?_
    | with_reducible refine State.arm_keeps ?_
    | with_reducible refine ite_keeps ?_ ?_

theorem State.shedPort_keeps {s : State} {p : Port} (h_s : s.Inv) : (State.shedPort s p).Inv := by
  unfold State.shedPort; try dsimp only
  repeat' first
    | with_reducible assumption
    | with_reducible refine State.hardReset_keeps ?_
    | with_reducible refine State.openFets_keeps ?_
    | with_reducible refine State.pathOff_keeps ?_
    | with_reducible refine State.modPort_keeps ?_
    | with_reducible refine State.pdEvent_keeps ?_
    | with_reducible refine State.fault_keeps ?_
    | with_reducible refine State.raise_keeps ?_
    | with_reducible refine ite_keeps ?_ ?_

theorem State.portLatch_keeps {s : State} {p : Port} {cause : Nat} (h_s : s.Inv) : (State.portLatch s p cause).Inv := by
  unfold State.portLatch; try dsimp only
  repeat' first
    | with_reducible assumption
    | with_reducible refine State.fault_keeps ?_

theorem State.peakTrip_keeps {s : State} {p : Port} (h_s : s.Inv) : (State.peakTrip s p).Inv := by
  unfold State.peakTrip; try dsimp only
  repeat' first
    | with_reducible assumption
    | with_reducible refine ite_keeps ?_ ?_
    | with_reducible refine State.modChan_keeps ?_
    | with_reducible refine State.fault_keeps ?_

theorem State.dbOc_keeps {s : State} {p : Port} (h_s : s.Inv) : (State.dbOc s p).Inv := by
  unfold State.dbOc; try dsimp only
  repeat' first
    | with_reducible assumption
    | with_reducible refine State.openFets_keeps ?_
    | with_reducible refine State.modPath_keeps ?_
    | with_reducible refine State.setFld_keeps ?_
    | with_reducible refine State.fault_keeps ?_
    | with_reducible refine ite_keeps ?_ ?_
    | with_reducible refine State.Inv.regs ?_
    | with_reducible refine State.Inv.act ?_
    | with_reducible refine State.Inv.sram ?_
    | with_reducible refine State.Inv.pmem ?_
    | with_reducible refine State.Inv.cells ?_
    | with_reducible refine State.Inv.stats ?_
    | with_reducible refine State.Inv.extremes ?_
    | with_reducible refine State.Inv.snap ?_
    | with_reducible refine State.Inv.cores ?_
    | (refine ⟨?_, ?_, ?_, ?_, ?_, ?_, ?_, ?_, ?_⟩ <;> dsimp only)

theorem State.reoffer_keeps {s : State} {p : Port} (h_s : s.Inv) : (State.reoffer s p).Inv := by
  unfold State.reoffer; try dsimp only
  repeat' first
    | with_reducible assumption
    | with_reducible refine State.startPending_keeps ?_
    | with_reducible refine State.modPort_keeps ?_

theorem State.readvertise_keeps {s : State} {p : Port} {before : Nat} (h_s : s.Inv) : (State.readvertise s p before).Inv := by
  unfold State.readvertise; try dsimp only
  repeat' first
    | with_reducible assumption
    | with_reducible refine ite_keeps ?_ ?_
    | with_reducible refine State.reoffer_keeps ?_
    | with_reducible refine State.raise_keeps ?_

end Sys2Proof.Machine
end

