-- ==== Sys2Proof/Laws/Keeps4.lean ====
section
/-!
SUPPORT. What the operations of start, power, the sequencer and the cores as others see them keep: the invariant of the state, one lemma for each.
Each proof opens the operation and cites the lemmas of what it calls.
-/

set_option linter.unusedTactic false
set_option linter.unreachableTactic false

namespace Sys2Proof.Machine

/-! ### StartOps -/

theorem State.setPhase_keeps {s : State} {k : Nat} (h_s : s.Inv) : (State.setPhase s k).Inv := by
  unfold State.setPhase; try dsimp only
  repeat' first
    | with_reducible assumption
    | with_reducible refine State.setFld_keeps ?_

theorem State.recordReason_keeps {s : State} {code : Nat} (h_s : s.Inv) : (State.recordReason s code).Inv := by
  unfold State.recordReason; try dsimp only
  repeat' first
    | with_reducible assumption
    | with_reducible refine State.kprStartRec_keeps ?_
    | with_reducible refine State.raise_keeps ?_

theorem State.endAttempt_keeps {s : State} {code : Nat} (h_s : s.Inv) : (State.endAttempt s code).Inv := by
  unfold State.endAttempt; try dsimp only
  repeat' first
    | with_reducible assumption
    | with_reducible refine State.recordReason_keeps ?_
    | with_reducible refine State.setPhase_keeps ?_
    | with_reducible refine State.modBoot_keeps ?_

/-! ### Seq -/

theorem State.modRail_keeps {s : State} {n : Rail} {f : SeqRail → SeqRail} (h_s : s.Inv) : (State.modRail s n f).Inv := by
  unfold State.modRail; try dsimp only
  repeat' first
    | with_reducible assumption
    | with_reducible refine State.modSeq_keeps ?_

theorem State.turnOn_keeps {s : State} {n : Rail} (h_s : s.Inv) : (State.turnOn s n).Inv := by
  unfold State.turnOn; try dsimp only
  repeat' first
    | with_reducible assumption
    | with_reducible refine State.onCommand_keeps ?_
    | with_reducible refine State.modRail_keeps ?_
    | with_reducible refine State.setBit_keeps ?_
    | with_reducible refine ite_keeps ?_ ?_
    | split

theorem State.turnOff_keeps {s : State} {n : Rail} (h_s : s.Inv) : (State.turnOff s n).Inv := by
  unfold State.turnOff; try dsimp only
  repeat' first
    | with_reducible assumption
    | with_reducible refine State.offCommand_keeps ?_
    | with_reducible refine State.setBit_keeps ?_
    | with_reducible refine ite_keeps ?_ ?_
    | split

theorem State.forceOff_keeps {s : State} {n : Rail} (h_s : s.Inv) : (State.forceOff s n).Inv := by
  unfold State.forceOff; try dsimp only
  repeat' first
    | with_reducible assumption
    | with_reducible refine State.endHiccup_keeps ?_
    | with_reducible refine State.setLoopSt_keeps ?_
    | with_reducible refine State.loopHalf_keeps ?_
    | with_reducible refine State.modLoop_keeps ?_
    | with_reducible refine State.setBit_keeps ?_
    | with_reducible refine State.raise_keeps ?_
    | with_reducible refine ite_keeps ?_ ?_
    | split

theorem State.modRst_keeps {s : State} {m : Fin 4} {f : RstOut → RstOut} (h_s : s.Inv) : (State.modRst s m f).Inv := by
  unfold State.modRst; try dsimp only
  repeat' first
    | with_reducible assumption
    | with_reducible refine State.modSeq_keeps ?_

theorem State.driveRst_keeps {s : State} {m : Fin 4} {high : Bool} (h_s : s.Inv) : (State.driveRst s m high).Inv := by
  unfold State.driveRst; try dsimp only
  repeat' first
    | with_reducible assumption
    | with_reducible refine State.setBit_keeps ?_
    | with_reducible refine State.raise_keeps ?_
    | with_reducible refine ite_keeps ?_ ?_

theorem State.assertRst_keeps {s : State} {k : Nat} (h_s : s.Inv) : (State.assertRst s k).Inv := by
  unfold State.assertRst; try dsimp only
  repeat' first
    | with_reducible assumption
    | with_reducible refine State.driveRst_keeps ?_
    | with_reducible refine State.modRst_keeps ?_
    | with_reducible refine ite_keeps ?_ ?_
    | with_reducible refine State.forAll_keeps (fun _ _ _ => ?_) ?_

theorem State.stretchRst_keeps {s : State} {k : Nat} (h_s : s.Inv) : (State.stretchRst s k).Inv := by
  unfold State.stretchRst; try dsimp only
  repeat' first
    | with_reducible assumption
    | with_reducible refine State.modRst_keeps ?_
    | with_reducible refine ite_keeps ?_ ?_
    | with_reducible refine State.forAll_keeps (fun _ _ _ => ?_) ?_

theorem State.lossRst_keeps {s : State} {k : Nat} (h_s : s.Inv) : (State.lossRst s k).Inv := by
  unfold State.lossRst; try dsimp only
  repeat' first
    | with_reducible assumption
    | with_reducible refine State.driveRst_keeps ?_
    | with_reducible refine State.modRst_keeps ?_
    | with_reducible refine ite_keeps ?_ ?_
    | with_reducible refine State.forAll_keeps (fun _ _ _ => ?_) ?_

theorem State.driveSync_keeps {s : State} {low : Bool} (h_s : s.Inv) : (State.driveSync s low).Inv := by
  unfold State.driveSync; try dsimp only
  repeat' first
    | with_reducible assumption
    | with_reducible refine State.setBit_keeps ?_
    | with_reducible refine ite_keeps ?_ ?_

theorem State.setCur_keeps {s : State} {k : Nat} (h_s : s.Inv) : (State.setCur s k).Inv := by
  unfold State.setCur; try dsimp only
  repeat' first
    | with_reducible assumption
    | with_reducible refine State.setFld_keeps ?_
    | with_reducible refine State.raise_keeps ?_

theorem State.enterUp_keeps {s : State} {k : Nat} (h_s : s.Inv) : (State.enterUp s k).Inv := by
  unfold State.enterUp; try dsimp only
  repeat' first
    | with_reducible assumption
    | with_reducible refine State.modRail_keeps ?_
    | with_reducible refine State.setFld_keeps ?_
    | with_reducible refine State.modSeq_keeps ?_
    | with_reducible refine State.setBit_keeps ?_
    | with_reducible refine State.setCur_keeps ?_
    | with_reducible refine foldl_keeps (fun _ _ _ => ?_) ?_

theorem State.enterDown_keeps {s : State} (h_s : s.Inv) : (State.enterDown s).Inv := by
  unfold State.enterDown; try dsimp only
  repeat' first
    | with_reducible assumption
    | with_reducible refine State.assertRst_keeps ?_
    | with_reducible refine State.modRail_keeps ?_
    | with_reducible refine State.setFld_keeps ?_
    | with_reducible refine State.modSeq_keeps ?_
    | with_reducible refine State.setBit_keeps ?_
    | with_reducible refine foldl_keeps (fun _ _ _ => ?_) ?_

theorem State.advance_keeps {s : State} (h_s : s.Inv) : (State.advance s).Inv := by
  unfold State.advance; try dsimp only
  repeat' first
    | with_reducible assumption
    | with_reducible refine State.enterDown_keeps ?_
    | with_reducible refine State.driveSync_keeps ?_
    | with_reducible refine State.enterUp_keeps ?_
    | with_reducible refine State.setFld_keeps ?_
    | with_reducible refine State.modSeq_keeps ?_
    | with_reducible refine State.setBit_keeps ?_
    | with_reducible refine State.raise_keeps ?_
    | with_reducible refine ite_keeps ?_ ?_

theorem State.seqPowerDown_keeps {s : State} (h_s : s.Inv) : (State.seqPowerDown s).Inv := by
  unfold State.seqPowerDown; try dsimp only
  repeat' first
    | with_reducible assumption
    | with_reducible refine State.advance_keeps ?_
    | with_reducible refine State.enterDown_keeps ?_
    | with_reducible refine State.driveSync_keeps ?_
    | with_reducible refine State.setFld_keeps ?_
    | with_reducible refine State.modSeq_keeps ?_
    | with_reducible refine ite_keeps ?_ ?_

theorem State.abort_keeps {s : State} (h_s : s.Inv) : (State.abort s).Inv := by
  unfold State.abort; try dsimp only
  repeat' first
    | with_reducible assumption
    | with_reducible refine State.seqPowerDown_keeps ?_
    | with_reducible refine State.endAttempt_keeps ?_
    | with_reducible refine State.setBit_keeps ?_
    | with_reducible refine ite_keeps ?_ ?_

theorem State.seqFault_keeps {s : State} {code sev : Nat} {rail : Option Rail} (h_s : s.Inv) : (State.seqFault s code sev rail).Inv := by
  unfold State.seqFault; try dsimp only
  repeat' first
    | with_reducible assumption
    | with_reducible refine State.setFld_keeps ?_
    | with_reducible refine State.satInc_keeps ?_
    | with_reducible refine State.report_keeps ?_
    | with_reducible refine State.raise_keeps ?_
    | split

theorem State.retarget_keeps {s : State} {k : Nat} (h_s : s.Inv) : (State.retarget s k).Inv := by
  unfold State.retarget; try dsimp only
  repeat' first
    | with_reducible assumption
    | with_reducible refine State.enterDown_keeps ?_
    | with_reducible refine State.advance_keeps ?_
    | with_reducible refine State.setFld_keeps ?_
    | with_reducible refine State.setBit_keeps ?_
    | with_reducible refine ite_keeps ?_ ?_

theorem State.crossing_keeps {s : State} {n : Rail} {inside : Bool} (h_s : s.Inv) : (State.crossing s n inside).Inv := by
  unfold State.crossing; try dsimp only
  repeat' first
    | with_reducible assumption
    | with_reducible refine State.seqFault_keeps ?_
    | with_reducible refine State.satInc_keeps ?_
    | with_reducible refine State.setBit_keeps ?_
    | with_reducible refine State.abort_keeps ?_
    | with_reducible refine ite_keeps ?_ ?_

theorem State.settleInside_keeps {s : State} (h_s : s.Inv) : (State.settleInside s).Inv := by
  unfold State.settleInside; try dsimp only
  repeat' first
    | with_reducible assumption
    | with_reducible refine State.crossing_keeps ?_
    | with_reducible refine ite_keeps ?_ ?_
    | with_reducible refine State.forAll_keeps (fun _ _ _ => ?_) ?_

theorem State.railBad_keeps {s : State} {n : Rail} (h_s : s.Inv) : (State.railBad s n).Inv := by
  unfold State.railBad; try dsimp only
  repeat' first
    | with_reducible assumption
    | with_reducible refine State.forceOff_keeps ?_
    | with_reducible refine State.seqFault_keeps ?_
    | with_reducible refine State.lossRst_keeps ?_
    | with_reducible refine State.setBit_keeps ?_
    | with_reducible refine State.abort_keeps ?_
    | with_reducible refine ite_keeps ?_ ?_

theorem State.upComplete_keeps {s : State} {late : Bool} (h_s : s.Inv) : (State.upComplete s late).Inv := by
  unfold State.upComplete; try dsimp only
  repeat' first
    | with_reducible assumption
    | with_reducible refine State.stretchRst_keeps ?_
    | with_reducible refine State.advance_keeps ?_
    | with_reducible refine State.modRail_keeps ?_
    | with_reducible refine State.modSeq_keeps ?_
    | with_reducible refine State.raise_keeps ?_
    | with_reducible refine ite_keeps ?_ ?_
    | with_reducible refine foldl_keeps (fun _ _ _ => ?_) ?_

theorem State.downComplete_keeps {s : State} (h_s : s.Inv) : (State.downComplete s).Inv := by
  unfold State.downComplete; try dsimp only
  repeat' first
    | with_reducible assumption
    | with_reducible refine State.advance_keeps ?_
    | with_reducible refine State.modRail_keeps ?_
    | with_reducible refine State.setFld_keeps ?_
    | with_reducible refine State.modSeq_keeps ?_
    | with_reducible refine State.setCur_keeps ?_
    | with_reducible refine ite_keeps ?_ ?_
    | with_reducible refine foldl_keeps (fun _ _ _ => ?_) ?_

theorem State.pgTimeout_keeps {s : State} (h_s : s.Inv) : (State.pgTimeout s).Inv := by
  unfold State.pgTimeout; try dsimp only
  repeat' first
    | with_reducible assumption
    | with_reducible refine State.seqFault_keeps ?_
    | with_reducible refine State.abort_keeps ?_
    | split

theorem State.disTimeout_keeps {s : State} (h_s : s.Inv) : (State.disTimeout s).Inv := by
  unfold State.disTimeout; try dsimp only
  repeat' first
    | with_reducible assumption
    | with_reducible refine State.forceOff_keeps ?_
    | with_reducible refine State.seqFault_keeps ?_
    | with_reducible refine State.modRail_keeps ?_
    | with_reducible refine foldl_keeps (fun _ _ _ => ?_) ?_

theorem State.syncStep_keeps {s : State} (h_s : s.Inv) : (State.syncStep s).Inv := by
  unfold State.syncStep; try dsimp only
  repeat' first
    | with_reducible assumption
    | with_reducible refine State.enterDown_keeps ?_
    | with_reducible refine State.enterUp_keeps ?_
    | with_reducible refine State.setBit_keeps ?_
    | with_reducible refine State.modSeq_keeps ?_
    | with_reducible refine ite_keeps ?_ ?_

theorem State.writeRailState_keeps {s : State} {n : Rail} {k : Nat} (h_s : s.Inv) : (State.writeRailState s n k).Inv := by
  unfold State.writeRailState; try dsimp only
  repeat' first
    | with_reducible assumption
    | with_reducible refine State.setFld_keeps ?_
    | with_reducible refine State.setBit_keeps ?_
    | with_reducible refine ite_keeps ?_ ?_

theorem State.clearSeqFault_keeps {s : State} (h_s : s.Inv) : (State.clearSeqFault s).Inv := by
  unfold State.clearSeqFault; try dsimp only
  repeat' first
    | with_reducible assumption
    | with_reducible refine State.setFld_keeps ?_

theorem State.seqStop_keeps {s : State} (h_s : s.Inv) : (State.seqStop s).Inv := by
  unfold State.seqStop; try dsimp only
  repeat' first
    | with_reducible assumption
    | with_reducible refine State.driveRst_keeps ?_
    | with_reducible refine State.modRail_keeps ?_
    | with_reducible refine State.setFld_keeps ?_
    | with_reducible refine State.modSeq_keeps ?_
    | with_reducible refine State.modRst_keeps ?_
    | with_reducible refine State.setBit_keeps ?_
    | with_reducible refine State.forAll_keeps (fun _ _ _ => ?_) ?_

theorem State.seqDrop_keeps {s : State} (h_s : s.Inv) : (State.seqDrop s).Inv :=
  State.driveSync_keeps (State.seqStop_keeps h_s)

theorem State.seqStart_keeps {s : State} (h_s : s.Inv) : (State.seqStart s).Inv := by
  unfold State.seqStart; try dsimp only
  repeat' first
    | with_reducible assumption
    | with_reducible refine State.driveSync_keeps ?_
    | with_reducible refine State.advance_keeps ?_
    | with_reducible refine State.modSeq_keeps ?_

/-! ### CoreOps -/

theorem State.setW_keeps {s : State} {k : Core} {r : Fin 16} {x : Word} (h_s : s.Inv) : (State.setW s k r x).Inv := by
  unfold State.setW
  split
  · exact h_s
  · rename_i ne
    refine State.modCore_keeps h_s ⟨(h_s.cores k).bits, ?_, (h_s.cores k).psr⟩
    have : (r : Nat) ≠ 0 := fun q => ne (Fin.ext q)
    simpa [Vector.getElem_set, this] using (h_s.cores k).w0

theorem State.releaseCore_keeps {s : State} {k : Core} (h_s : s.Inv) : (State.releaseCore s k).Inv := by
  unfold State.releaseCore
  split
  · exact h_s
  · exact State.setFld_keeps (State.setBit_keeps (State.setFld_keeps (State.modCore_keeps h_s
      ⟨CoreState.reset_ok.bits, CoreState.reset_ok.w0, CoreState.reset_ok.psr⟩)))

theorem State.romCore_keeps {s : State} {k : Core} (h_s : s.Inv) : (State.romCore s k).Inv :=
  State.setFld_keeps (State.modCore_keeps h_s CoreState.reset_ok)

theorem State.restartCore_keeps {s : State} {k : Core} (h_s : s.Inv) : (State.restartCore s k).Inv := by
  unfold State.restartCore; try dsimp only
  repeat' first
    | with_reducible assumption
    | with_reducible refine State.releaseCore_keeps ?_
    | with_reducible refine State.romCore_keeps ?_
    | with_reducible refine ite_keeps ?_ ?_

theorem State.holdCore_keeps {s : State} {k : Core} (h_s : s.Inv) : (State.holdCore s k).Inv := by
  unfold State.holdCore; try dsimp only
  repeat' first
    | with_reducible assumption
    | with_reducible refine State.setFld_keeps ?_
    | with_reducible refine State.setBit_keeps ?_

theorem State.coreFault_keeps {s : State} {k : Core} {kind cause : Nat} (h_s : s.Inv) : (State.coreFault s k kind cause).Inv := by
  unfold State.coreFault; try dsimp only
  repeat' first
    | with_reducible assumption
    | with_reducible refine ite_keeps ?_ ?_
    | with_reducible refine State.seqPowerDown_keeps ?_
    | with_reducible refine State.restartCore_keeps ?_
    | with_reducible refine State.endAttempt_keeps ?_
    | with_reducible refine State.holdCore_keeps ?_
    | with_reducible refine State.setFld_keeps ?_
    | with_reducible refine State.satInc_keeps ?_
    | with_reducible refine State.raise_keeps ?_

theorem State.contAddr_keeps {s : State} {addr kind : Nat} (h_s : s.Inv) : (State.contAddr s addr kind).Inv := by
  unfold State.contAddr; try dsimp only
  repeat' first
    | with_reducible assumption
    | with_reducible refine State.setFld_keeps ?_

theorem State.sramRead_keeps {s : State} {a : Nat} {glitch : Bool} (h_s : s.Inv) : (State.sramRead s a glitch).state.Inv := by
  unfold State.sramRead; try dsimp only
  repeat' first
    | with_reducible assumption
    | with_reducible refine State.setSramWord_keeps ?_
    | with_reducible refine State.contAddr_keeps ?_
    | with_reducible refine State.satInc_keeps ?_
    | with_reducible refine State.raise_keeps ?_
    | split

theorem State.sramStore_keeps {s : State} {a : Nat} {bs : List Byte} (h_s : s.Inv) : (State.sramStore s a bs).Inv := by
  unfold State.sramStore; try dsimp only
  repeat' first
    | with_reducible assumption
    | with_reducible refine State.setSramBytes_keeps ?_
    | split

theorem CoreState.land_same {c : CoreState} {m : MulOp} :
    (c.land m).bits = c.bits ∧ (c.land m).w = c.w ∧ (c.land m).psr = c.psr := ⟨rfl, rfl, rfl⟩

theorem CoreState.lands_same {l : List MulOp} {c : CoreState} :
    (l.foldl CoreState.land c).bits = c.bits ∧ (l.foldl CoreState.land c).w = c.w ∧
      (l.foldl CoreState.land c).psr = c.psr := by
  induction l generalizing c with
  | nil => exact ⟨rfl, rfl, rfl⟩
  | cons m l ih => exact ih (c := c.land m)

theorem CoreState.pass_same {c : CoreState} {n : Nat} :
    (c.pass n).bits = c.bits ∧ (c.pass n).w = c.w ∧ (c.pass n).psr = c.psr := CoreState.lands_same

theorem State.spend_keeps {s : State} {k : Core} {n : Nat} (h_s : s.Inv) : (State.spend s k n).Inv := by
  unfold State.spend
  dsimp only
  split
  · exact State.setFld_keeps (State.modCore_same_keeps h_s CoreState.pass_same.1 CoreState.pass_same.2.1
      CoreState.pass_same.2.2)
  · exact State.modCore_same_keeps h_s CoreState.pass_same.1 CoreState.pass_same.2.1 CoreState.pass_same.2.2

/-! ### Irq -/

theorem State.noteView_keeps {s t : State} {k : HostId} (h_s : s.Inv) (h_t : t.Inv) : (State.noteView s t k).Inv := by
  unfold State.noteView; try dsimp only
  repeat' first
    | with_reducible assumption
    | with_reducible refine ite_keeps ?_ ?_
    | exact State.Inv.of_same h_t rfl rfl rfl rfl rfl rfl rfl rfl rfl

theorem State.noteAlerts_keeps {s t : State} {v : Port} (h_s : s.Inv) (h_t : t.Inv) : (State.noteAlerts s t v).Inv := by
  unfold State.noteAlerts; try dsimp only
  repeat' first
    | with_reducible assumption
    | with_reducible refine ite_keeps ?_ ?_
    | exact State.Inv.of_same h_t rfl rfl rfl rfl rfl rfl rfl rfl rfl

theorem State.noteChange_keeps {s t : State} (h_s : s.Inv) (h_t : t.Inv) : (State.noteChange s t).Inv := by
  unfold State.noteChange; try dsimp only
  repeat' first
    | with_reducible assumption
    | with_reducible refine State.noteAlerts_keeps ?_ ?_
    | with_reducible refine State.noteView_keeps ?_ ?_
    | with_reducible refine foldl_keeps (fun _ _ _ => ?_) ?_

/-! ### Load -/

theorem State.setBase_keeps {s : State} {mask : RegAt → Word} {a : Nat} (h_s : s.Inv) : (State.setBase s mask a).Inv := by
  unfold State.setBase; try dsimp only
  repeat' first
    | with_reducible assumption
    | with_reducible refine State.setReg_keeps ?_
    | split

theorem State.readFactory_keeps {s : State} (h_s : s.Inv) : (State.readFactory s).Inv := by
  unfold State.readFactory; try dsimp only
  repeat' first
    | with_reducible assumption
    | with_reducible refine State.kprTouchAll_keeps ?_

theorem State.loadBits_keeps {s : State} {mask : RegAt → Word} {sel : RegAt → Bool} (h_s : s.Inv) :
    (State.loadBits s mask sel).Inv := by
  unfold State.loadBits; dsimp only
  refine State.readFactory_keeps (foldl_keeps (fun t a h => ite_keeps (State.setBase_keeps h) h) ?_)
  exact (foldl_keeps (fun t a h => ite_keeps (State.setBase_keeps h) h) h_s).of_same rfl rfl rfl rfl rfl rfl rfl rfl rfl

theorem State.loadBase_keeps {s : State} {sel : RegAt → Bool} (h_s : s.Inv) : (State.loadBase s sel).Inv := by
  unfold State.loadBase; try dsimp only
  repeat' first
    | with_reducible assumption
    | with_reducible refine State.loadBits_keeps ?_

theorem State.loadTriples_keeps {s : State} {ts : List Triple} {sel : RegAt → Bool} (h_s : s.Inv) : (State.loadTriples s ts sel).Inv := by
  unfold State.loadTriples; try dsimp only
  repeat' first
    | with_reducible assumption
    | with_reducible refine State.setReg_keeps ?_
    | with_reducible refine ite_keeps ?_ ?_
    | with_reducible refine foldl_keeps (fun _ _ _ => ?_) ?_
    | split

theorem State.actFollows_keeps {s : State} {sel : RegAt → Bool} (h_s : s.Inv) : (State.actFollows s sel).Inv := by
  unfold State.actFollows; try dsimp only
  repeat' first
    | with_reducible assumption
    | exact ⟨h_s.regs, Mem.filter_wf _ h_s.act, h_s.sram, h_s.pmem, h_s.cells, h_s.stats, h_s.extremes, h_s.snap, h_s.cores⟩
    | with_reducible refine State.setAct_keeps ?_
    | with_reducible refine ite_keeps ?_ ?_
    | with_reducible refine foldl_keeps (fun _ _ _ => ?_) ?_

theorem State.restoreDomain_keeps {s : State} {d : Nat} (h_s : s.Inv) : (State.restoreDomain s d).Inv := by
  unfold State.restoreDomain; try dsimp only
  repeat' first
    | with_reducible assumption
    | with_reducible refine State.loadTriples_keeps ?_
    | with_reducible refine State.actFollows_keeps ?_
    | with_reducible refine State.loadBase_keeps ?_

theorem State.dropRegs_keeps {s : State} {d : Nat} (h_s : s.Inv) : (State.dropRegs s d).Inv := by
  unfold State.dropRegs; try dsimp only
  repeat' (exact ⟨Mem.filter_wf _ h_s.regs, Mem.filter_wf _ h_s.act, h_s.sram, h_s.pmem, h_s.cells, h_s.stats, h_s.extremes, h_s.snap, h_s.cores⟩)

/-! ### Power -/

theorem State.setDom_keeps {s : State} {k : Nat} {b : Bool} (h_s : s.Inv) : (State.setDom s k b).Inv := by
  unfold State.setDom; try dsimp only
  repeat' first
    | with_reducible assumption
    | with_reducible refine State.setBit_keeps ?_

theorem State.dropCore_keeps {s : State} {k : Core} (h_s : s.Inv) : (State.dropCore s k).Inv := by
  unfold State.dropCore; try dsimp only
  repeat' first
    | with_reducible assumption
    | exact CoreState.reset_ok
    | with_reducible refine State.modCore_keeps ?_ ?_
    | with_reducible refine State.setFld_keeps ?_

theorem State.dropDomain_keeps {s : State} {k : Nat} (h_s : s.Inv) : (State.dropDomain s k).Inv := by
  unfold State.dropDomain; try dsimp only
  repeat' first
    | with_reducible assumption
    | with_reducible refine Mem.filter_wf _ ?_
    | with_reducible refine ite_keeps ?_ ?_
    | (refine ⟨?_, ?_, ?_, ?_, ?_, ?_, ?_, ?_, ?_⟩ <;> dsimp only)
    | with_reducible refine State.unlockConv_keeps ?_
    | with_reducible refine State.dropCore_keeps ?_
    | with_reducible refine State.dropRegs_keeps ?_
    | with_reducible refine State.modChan_keeps ?_
    | with_reducible refine State.setDom_keeps ?_
    | with_reducible refine State.setBit_keeps ?_
    | with_reducible refine State.setReg_keeps ?_
    | with_reducible refine State.forAll_keeps (fun _ _ _ => ?_) ?_
    | with_reducible refine State.Inv.regs ?_
    | with_reducible refine State.Inv.act ?_
    | with_reducible refine State.Inv.sram ?_
    | with_reducible refine State.Inv.pmem ?_
    | with_reducible refine State.Inv.cells ?_
    | with_reducible refine State.Inv.stats ?_
    | with_reducible refine State.Inv.extremes ?_
    | with_reducible refine State.Inv.snap ?_
    | with_reducible refine State.Inv.cores ?_
    | split

theorem State.settleDomains_keeps {s : State} (h_s : s.Inv) : (State.settleDomains s).Inv := by
  unfold State.settleDomains; try dsimp only
  repeat' first
    | with_reducible assumption
    | with_reducible refine State.dropDomain_keeps ?_
    | with_reducible refine ite_keeps ?_ ?_
    | with_reducible refine foldl_keeps (fun _ _ _ => ?_) ?_

theorem State.bootRomCore_keeps {s : State} {k : Core} (h_s : s.Inv) : (State.bootRomCore s k).Inv := by
  unfold State.bootRomCore; try dsimp only
  repeat' first
    | with_reducible assumption
    | with_reducible refine ite_keeps ?_ ?_
    | with_reducible refine State.dropCore_keeps ?_
    | with_reducible refine State.romCore_keeps ?_

theorem State.coreUp_keeps {s : State} {k : Core} (h_s : s.Inv) : (State.coreUp s k).Inv := by
  unfold State.coreUp; try dsimp only
  repeat' first
    | with_reducible assumption
    | with_reducible refine ite_keeps ?_ ?_
    | with_reducible refine State.releaseCore_keeps ?_
    | with_reducible refine State.bootRomCore_keeps ?_

theorem State.resumePort_keeps {s : State} {p : Port} (h_s : s.Inv) : (State.resumePort s p).Inv := by
  unfold State.resumePort; try dsimp only
  repeat' first
    | with_reducible assumption
    | with_reducible refine State.implicitIntake_keeps ?_
    | with_reducible refine State.discoverCable_keeps ?_
    | with_reducible refine State.closeFets_keeps ?_
    | with_reducible refine State.vconnOn_keeps ?_
    | with_reducible refine State.arm_keeps ?_
    | with_reducible refine ite_keeps ?_ ?_

theorem State.resumePorts_keeps {s : State} (h_s : s.Inv) : (State.resumePorts s).Inv := by
  unfold State.resumePorts; try dsimp only
  repeat' first
    | with_reducible assumption
    | with_reducible refine State.resumePort_keeps ?_
    | with_reducible refine State.forAll_keeps (fun _ _ _ => ?_) ?_

theorem State.detectFull_keeps {s : State} (h_s : s.Inv) : (State.detectFull s).Inv := by
  unfold State.detectFull; try dsimp only
  repeat' first
    | with_reducible assumption
    | with_reducible refine State.setPhase_keeps ?_
    | with_reducible refine State.setBit_keeps ?_
    | with_reducible refine ite_keeps ?_ ?_

theorem State.domainUp_keeps {s : State} {k : Nat} (h_s : s.Inv) : (State.domainUp s k).Inv := by
  unfold State.domainUp; try dsimp only
  repeat' first
    | with_reducible assumption
    | with_reducible refine ite_keeps ?_ ?_
    | with_reducible refine State.startTimebase_keeps ?_
    | with_reducible refine State.restoreDomain_keeps ?_
    | with_reducible refine State.bootRomCore_keeps ?_
    | with_reducible refine State.checkPolicy_keeps ?_
    | with_reducible refine State.resumePorts_keeps ?_
    | with_reducible refine State.detectFull_keeps ?_
    | with_reducible refine State.contAddr_keeps ?_
    | with_reducible refine State.modBoot_keeps ?_
    | with_reducible refine State.setDom_keeps ?_
    | with_reducible refine State.coreUp_keeps ?_
    | with_reducible refine State.setBit_keeps ?_
    | with_reducible refine State.satInc_keeps ?_
    | with_reducible refine State.raise_keeps ?_
    | split

theorem State.deadPort_keeps {s : State} {p : Port} (h_s : s.Inv) : (State.deadPort s p).Inv := by
  unfold State.deadPort; try dsimp only
  repeat' first
    | with_reducible assumption
    | with_reducible refine State.openFets_keeps ?_
    | with_reducible refine State.pathOff_keeps ?_
    | with_reducible refine State.modPort_keeps ?_
    | with_reducible refine State.detach_keeps ?_
    | with_reducible refine State.setTc_keeps ?_
    | with_reducible refine ite_keeps ?_ ?_

theorem State.deadPorts_keeps {s : State} (h_s : s.Inv) : (State.deadPorts s).Inv := by
  unfold State.deadPorts; try dsimp only
  repeat' first
    | with_reducible assumption
    | with_reducible refine State.deadPort_keeps ?_
    | with_reducible refine State.forAll_keeps (fun _ _ _ => ?_) ?_

theorem State.writeLfSrc_keeps {s : State} {crystal : Bool} (h_s : s.Inv) : (State.writeLfSrc s crystal).Inv := by
  unfold State.writeLfSrc; try dsimp only
  repeat' first
    | with_reducible assumption
    | with_reducible refine State.modPower_keeps ?_
    | with_reducible refine State.setBit_keeps ?_

theorem State.stopRails_keeps {s : State} (h_s : s.Inv) : (State.stopRails s).Inv := by
  unfold State.stopRails; try dsimp only
  repeat' first
    | with_reducible assumption
    | with_reducible refine State.abandonHandling_keeps ?_
    | with_reducible refine State.setHandling_keeps ?_
    | with_reducible refine State.setLoopSt_keeps ?_
    | with_reducible refine State.setQueue_keeps ?_
    | with_reducible refine State.modLoop_keeps ?_
    | with_reducible refine State.setFld_keeps ?_
    | with_reducible refine State.setBit_keeps ?_
    | with_reducible refine ite_keeps ?_ ?_
    | with_reducible refine State.forAll_keeps (fun _ _ _ => ?_) ?_

theorem State.deviceSafe_keeps {s : State} (h_s : s.Inv) : (State.deviceSafe s).Inv := by
  unfold State.deviceSafe; try dsimp only
  repeat' first
    | with_reducible assumption
    | with_reducible refine State.allNeedLoad_keeps ?_
    | with_reducible refine State.deadPorts_keeps ?_
    | with_reducible refine State.stopRails_keeps ?_
    | with_reducible refine State.seqDrop_keeps ?_

theorem State.safeStart_keeps {s : State} (h_s : s.Inv) : (State.safeStart s).Inv := by
  unfold State.safeStart; try dsimp only
  repeat' first
    | with_reducible assumption
    | with_reducible refine State.endAttempt_keeps ?_
    | with_reducible refine State.setPhase_keeps ?_
    | with_reducible refine State.modBoot_keeps ?_
    | with_reducible refine ite_keeps ?_ ?_

theorem State.endHandover_keeps {s : State} (h_s : s.Inv) : (State.endHandover s).Inv :=
  ⟨h_s.regs, h_s.act, h_s.sram, h_s.pmem, h_s.cells, h_s.stats, h_s.extremes, h_s.snap, h_s.cores⟩

theorem State.supplyBad_keeps {s : State} {m : FullSupply} (h_s : s.Inv) : (State.supplyBad s m).Inv := by
  unfold State.supplyBad; try dsimp only
  repeat' first
    | with_reducible assumption
    | with_reducible refine State.modPower_keeps ?_
    | with_reducible refine State.setBit_keeps ?_
    | with_reducible refine ite_keeps ?_ ?_

theorem State.toHouse_keeps {s : State} (h_s : s.Inv) : (State.toHouse s).Inv := by
  unfold State.toHouse; try dsimp only
  repeat' first
    | with_reducible assumption
    | with_reducible refine State.bootRomCore_keeps ?_
    | with_reducible refine State.dropDomain_keeps ?_
    | with_reducible refine State.modBoot_keeps ?_
    | with_reducible refine State.pllOff_keeps ?_
    | with_reducible refine State.setBit_keeps ?_
    | with_reducible refine ite_keeps ?_ ?_
    | with_reducible refine foldl_keeps (fun _ _ _ => ?_) ?_

theorem State.loaded_keeps {s old : State} (h_s : s.Inv) : (State.loaded s old).Inv := by
  have h : ({ s with tenancy := [], live := Live.reset } : State).Inv :=
    ⟨h_s.regs, h_s.act, h_s.sram, h_s.pmem, h_s.cells, h_s.stats, h_s.extremes, h_s.snap, h_s.cores⟩
  unfold State.loaded; try dsimp only
  repeat' first
    | with_reducible assumption
    | with_reducible refine State.driveSync_keeps ?_
    | with_reducible refine State.writeLfSrc_keeps ?_
    | with_reducible refine State.chooseRef_keeps ?_
    | with_reducible refine ite_keeps ?_ ?_

theorem State.factoryImg_keeps {s : State} (h_s : s.Inv) : (State.factoryImg s).Inv := by
  unfold State.factoryImg; try dsimp only
  repeat' first
    | with_reducible assumption
    | with_reducible refine State.actFollows_keeps ?_
    | with_reducible refine State.loadBits_keeps ?_
    | with_reducible refine State.loaded_keeps ?_

theorem State.supplyLoss_keeps {s : State} {m : FullSupply} (h_s : s.Inv) : (State.supplyLoss s m).Inv := by
  unfold State.supplyLoss; try dsimp only
  repeat' first
    | with_reducible assumption
    | with_reducible refine State.endHandover_keeps ?_
    | with_reducible refine State.deviceSafe_keeps ?_
    | with_reducible refine State.factoryImg_keeps ?_
    | with_reducible refine State.supplyBad_keeps ?_
    | with_reducible refine State.safeStart_keeps ?_
    | with_reducible refine State.modPower_keeps ?_
    | with_reducible refine State.toHouse_keeps ?_
    | with_reducible refine State.setBit_keeps ?_
    | with_reducible refine State.report_keeps ?_
    | with_reducible refine State.raise_keeps ?_

theorem State.setHouseOp_keeps {s : State} (h_s : s.Inv) : (State.setHouseOp s).Inv := by
  unfold State.setHouseOp; try dsimp only
  repeat' first
    | with_reducible assumption
    | with_reducible refine State.modPower_keeps ?_
    | with_reducible refine State.setBit_keeps ?_

theorem State.beginFull_keeps {s : State} (h_s : s.Inv) : (State.beginFull s).Inv := by
  unfold State.beginFull; try dsimp only
  repeat' first
    | with_reducible assumption
    | with_reducible refine State.detectFull_keeps ?_
    | with_reducible refine State.kprTake_keeps ?_
    | with_reducible refine State.fault_keeps ?_
    | with_reducible refine foldl_keeps (fun _ _ _ => ?_) ?_
    | exact State.Inv.of_same h_s rfl rfl rfl rfl rfl rfl rfl rfl rfl

theorem State.enterFull_keeps {s : State} {was : Bool} (h_s : s.Inv) : (State.enterFull s was).Inv := by
  unfold State.enterFull; try dsimp only
  repeat' first
    | with_reducible assumption
    | with_reducible refine ite_keeps ?_ ?_
    | with_reducible refine State.setHouseOp_keeps ?_
    | with_reducible refine State.beginFull_keeps ?_

theorem State.vconnBad_keeps {s : State} (h_s : s.Inv) : (State.vconnBad s).Inv := by
  unfold State.vconnBad; try dsimp only
  repeat' first
    | with_reducible assumption
    | with_reducible refine State.vconnOffNow_keeps ?_
    | with_reducible refine State.setBit_keeps ?_
    | with_reducible refine State.raise_keeps ?_
    | with_reducible refine ite_keeps ?_ ?_
    | with_reducible refine State.forAll_keeps (fun _ _ _ => ?_) ?_

theorem State.vconnGood_keeps {s : State} (h_s : s.Inv) : (State.vconnGood s).Inv := by
  unfold State.vconnGood; try dsimp only
  repeat' first
    | with_reducible assumption
    | with_reducible refine State.vconnOn_keeps ?_
    | with_reducible refine State.setBit_keeps ?_
    | with_reducible refine ite_keeps ?_ ?_
    | with_reducible refine State.forAll_keeps (fun _ _ _ => ?_) ?_

theorem State.vbusChange_keeps {s : State} {p : Port} {good : Bool} (h_s : s.Inv) : (State.vbusChange s p good).Inv := by
  unfold State.vbusChange; try dsimp only
  repeat' first
    | with_reducible assumption
    | with_reducible refine ite_keeps ?_ ?_
    | with_reducible refine State.implicitIntake_keeps ?_
    | with_reducible refine State.closeFets_keeps ?_
    | with_reducible refine State.vbusLost_keeps ?_
    | with_reducible refine State.tryPass_keeps ?_
    | with_reducible refine State.endSpan_keeps ?_
    | with_reducible refine State.modPath_keeps ?_
    | with_reducible refine State.setFld_keeps ?_
    | with_reducible refine State.arm_keeps ?_

theorem State.wakeUp_keeps {s : State} (h_s : s.Inv) : (State.wakeUp s).Inv := by
  unfold State.wakeUp; try dsimp only
  repeat' first
    | with_reducible assumption
    | with_reducible refine State.setHouseOp_keeps ?_
    | with_reducible refine State.driveSync_keeps ?_
    | with_reducible refine State.modPower_keeps ?_

theorem State.wakeBit_keeps {s : State} {f : Fld} (h_s : s.Inv) : (State.wakeBit s f).Inv := by
  unfold State.wakeBit; try dsimp only
  repeat' first
    | with_reducible assumption
    | with_reducible refine State.wakeUp_keeps ?_
    | with_reducible refine State.setFld_keeps ?_
    | with_reducible refine ite_keeps ?_ ?_

theorem State.wakeBy_keeps {s : State} {bit : Nat} (h_s : s.Inv) : (State.wakeBy s bit).Inv := by
  unfold State.wakeBy; try dsimp only
  repeat' first
    | with_reducible assumption
    | with_reducible refine State.wakeBit_keeps ?_
    | with_reducible refine ite_keeps ?_ ?_

theorem State.timerExpires_keeps {s : State} (h_s : s.Inv) : (State.timerExpires s).Inv := by
  unfold State.timerExpires; try dsimp only
  repeat' first
    | with_reducible assumption
    | with_reducible refine State.modPower_keeps ?_
    | with_reducible refine State.wakeBy_keeps ?_

theorem State.noteSrc_keeps {s : State} {src : Nat} (h_s : s.Inv) : (State.noteSrc s src).Inv := by
  unfold State.noteSrc; try dsimp only
  repeat' first
    | with_reducible assumption
    | with_reducible refine State.setFld_keeps ?_
    | with_reducible refine ite_keeps ?_ ?_

theorem State.noteBank_keeps {s : State} {m : FullSupply} {hi : Bool} (h_s : s.Inv) : (State.noteBank s m hi).Inv := by
  unfold State.noteBank; try dsimp only
  repeat' first
    | with_reducible assumption
    | with_reducible refine State.setBit_keeps ?_
    | split

theorem State.supplyChange_keeps {s : State} {m : FullSupply} {good hi : Bool} (h_s : s.Inv) : (State.supplyChange s m good hi).Inv := by
  unfold State.supplyChange; try dsimp only
  repeat' first
    | with_reducible assumption
    | with_reducible refine State.supplyLoss_keeps ?_
    | with_reducible refine State.enterFull_keeps ?_
    | with_reducible refine State.supplyBad_keeps ?_
    | with_reducible refine State.noteBank_keeps ?_
    | with_reducible refine State.toHouse_keeps ?_
    | with_reducible refine State.setBit_keeps ?_
    | with_reducible refine ite_keeps ?_ ?_

theorem State.monitorChange_keeps {s : State} {m : Monitor} {good hi : Bool} (h_s : s.Inv) : (State.monitorChange s m good hi).Inv := by
  unfold State.monitorChange; try dsimp only
  repeat' first
    | with_reducible assumption
    | with_reducible refine ite_keeps ?_ ?_
    | with_reducible refine State.supplyChange_keeps ?_
    | with_reducible refine State.vbusChange_keeps ?_
    | with_reducible refine State.vconnGood_keeps ?_
    | with_reducible refine State.vconnBad_keeps ?_
    | with_reducible refine State.setBit_keeps ?_
    | with_reducible refine State.wakeBy_keeps ?_
    | split

theorem State.cores_reset_ok (k : Core) : (State.reset.cores[k]).Ok := by
  have : State.reset.cores[k] = CoreState.reset := by simp [State.reset]
  rw [this]; exact CoreState.reset_ok

theorem State.allOff_keeps {s : State} (h_s : s.Inv) : (State.allOff s).Inv := by
  unfold State.allOff
  dsimp only
  refine State.driveSync_keeps (State.setBit_keeps (State.forAll_keeps (fun _ _ h => State.modPath_keeps (State.setTc_keeps h))
    (State.pllOff_keeps (State.setBit_keeps (State.setFld_keeps ?_)))))
  exact ⟨Mem.filter_wf _ h_s.regs, rfl, rfl, rfl, h_s.cells, rfl, rfl, rfl, State.cores_reset_ok⟩

theorem State.houseGood_keeps {s : State} {src : Nat} (h_s : s.Inv) : (State.houseGood s src).Inv := by
  unfold State.houseGood; try dsimp only
  repeat' first
    | with_reducible assumption
    | with_reducible refine State.setHouseOp_keeps ?_
    | with_reducible refine State.kprSpread_keeps ?_
    | with_reducible refine State.driveSync_keeps ?_
    | with_reducible refine State.modPower_keeps ?_
    | with_reducible refine State.setFld_keeps ?_
    | with_reducible refine State.setBit_keeps ?_
    | with_reducible refine State.setTc_keeps ?_
    | with_reducible refine ite_keeps ?_ ?_
    | with_reducible refine State.forAll_keeps (fun _ _ _ => ?_) ?_

theorem State.houseFail_keeps {s : State} {fast : Bool} (h_s : s.Inv) : (State.houseFail s fast).Inv := by
  unfold State.houseFail; try dsimp only
  repeat' first
    | with_reducible assumption
    | with_reducible refine State.modPower_keeps ?_
    | with_reducible refine State.kprCut_keeps ?_
    | with_reducible refine State.setBit_keeps ?_
    | with_reducible refine State.allOff_keeps ?_

theorem State.d0Reset_keeps {s : State} (h_s : s.Inv) : (State.d0Reset s).Inv :=
  ⟨rfl, rfl, rfl, rfl, h_s.cells, rfl, rfl, rfl, State.cores_reset_ok⟩

theorem State.resetnFall_keeps {s : State} (h_s : s.Inv) : (State.resetnFall s).Inv := by
  unfold State.resetnFall; try dsimp only
  repeat' first
    | with_reducible assumption
    | with_reducible refine State.modPower_keeps ?_
    | with_reducible refine State.kprCut_keeps ?_
    | with_reducible refine State.setBit_keeps ?_
    | with_reducible refine State.allOff_keeps ?_

theorem State.persistCounters_keeps {s : State} (h_s : s.Inv) : (State.persistCounters s).Inv := by
  unfold State.persistCounters; try dsimp only
  repeat' first
    | with_reducible assumption
    | with_reducible refine State.kprStore_keeps ?_
    | with_reducible refine State.modKpr_keeps ?_ ?_
    | with_reducible refine ite_keeps ?_ ?_
    | with_reducible refine foldl_keeps (fun _ _ _ => ?_) ?_
    | with_reducible rfl

theorem State.enterDormant_keeps {s : State} (h_s : s.Inv) : (State.enterDormant s).Inv := by
  unfold State.enterDormant; try dsimp only
  repeat' first
    | with_reducible assumption
    | with_reducible refine State.driveSync_keeps ?_
    | with_reducible refine State.persistCounters_keeps ?_
    | with_reducible refine State.modPower_keeps ?_
    | with_reducible refine State.setFld_keeps ?_
    | with_reducible refine State.allOff_keeps ?_
    | with_reducible refine State.setBit_keeps ?_
    | with_reducible refine ite_keeps ?_ ?_

/-! ### Start -/

theorem State.readStart_keeps {s : State} (h_s : s.Inv) : (State.readStart s).Inv := by
  unfold State.readStart; try dsimp only
  repeat' first
    | with_reducible assumption
    | with_reducible refine State.kprStartRec_keeps ?_
    | with_reducible refine State.readRecord_keeps ?_
    | with_reducible refine State.modBoot_keeps ?_
    | with_reducible refine State.setBit_keeps ?_
    | with_reducible refine State.raise_keeps ?_
    | with_reducible refine ite_keeps ?_ ?_

theorem State.loadPayload_wf {s : State} {k : RecordKind} {d : Nat → Word} : (s.loadPayload k d).wf d = true := by
  unfold State.loadPayload
  split
  · rfl
  · exact Mem.foldl_wf (fun m j hm => Mem.set_wf _ _ hm) rfl

theorem State.readRecorder_keeps {s : State} (h_s : s.Inv) : (State.readRecorder s).Inv := by
  have h2 : (((((s.readRecord statsKind).readRecord extremesKind).kprTouchAll (logBase true) 512).kprTouchAll
      (logBase false) 512)).Inv :=
    State.kprTouchAll_keeps (State.kprTouchAll_keeps (State.readRecord_keeps (State.readRecord_keeps h_s)))
  unfold State.readRecorder
  dsimp only
  revert h2
  generalize ((((s.readRecord statsKind).readRecord extremesKind).kprTouchAll (logBase true) 512).kprTouchAll
      (logBase false) 512) = t
  intro h2
  have e1 : Mem.wf statsDefault (t.loadPayload statsKind statsDefault) = true := State.loadPayload_wf
  have e2 : Mem.wf extremesDefault (t.loadPayload extremesKind extremesDefault) = true := State.loadPayload_wf
  revert e1 e2
  generalize t.loadPayload statsKind statsDefault = a
  generalize t.loadPayload extremesKind extremesDefault = b
  intro e1 e2
  exact State.modRec_mems_keeps h2 e1 e2 h2.snap

theorem State.keeperRead_keeps {s : State} (h_s : s.Inv) : (State.keeperRead s).Inv := by
  unfold State.keeperRead; try dsimp only
  repeat' first
    | with_reducible assumption
    | with_reducible refine State.readRecorder_keeps ?_
    | with_reducible refine State.actFollows_keeps ?_
    | with_reducible refine State.detectFull_keeps ?_
    | with_reducible refine State.readStart_keeps ?_
    | with_reducible refine State.loadBase_keeps ?_
    | with_reducible refine State.calCheck_keeps ?_
    | with_reducible refine State.modBoot_keeps ?_
    | with_reducible refine State.loaded_keeps ?_

theorem State.idleCore_keeps {s : State} {k : Core} (h_s : s.Inv) : (State.idleCore s k).Inv := by
  unfold State.idleCore; try dsimp only
  repeat' first
    | with_reducible assumption
    | with_reducible refine State.bootRomCore_keeps ?_
    | with_reducible refine State.dropCore_keeps ?_
    | with_reducible refine ite_keeps ?_ ?_

theorem State.unloadCores_keeps {s : State} (h_s : s.Inv) : (State.unloadCores s).Inv := by
  unfold State.unloadCores; try dsimp only
  repeat' first
    | with_reducible assumption
    | with_reducible refine State.endHandover_keeps ?_
    | with_reducible refine State.idleCore_keeps ?_
    | with_reducible refine State.modBoot_keeps ?_
    | with_reducible refine State.setBit_keeps ?_
    | with_reducible refine State.forAll_keeps (fun _ _ _ => ?_) ?_

theorem State.relock_keeps {s : State} (h_s : s.Inv) : (State.relock s).Inv := by
  unfold State.relock; try dsimp only
  repeat' first
    | with_reducible assumption
    | with_reducible refine State.setBit_keeps ?_
    | with_reducible refine State.setReg_keeps ?_
    | with_reducible refine State.raise_keeps ?_
    | with_reducible refine ite_keeps ?_ ?_
    | with_reducible refine foldl_keeps (fun _ _ _ => ?_) ?_

theorem State.enterSeedling_keeps {s : State} (h_s : s.Inv) : (State.enterSeedling s).Inv := by
  unfold State.enterSeedling; try dsimp only
  repeat' first
    | with_reducible assumption
    | with_reducible refine ite_keeps ?_ ?_
    | with_reducible refine State.allNeedLoad_keeps ?_
    | with_reducible refine State.unloadCores_keeps ?_
    | with_reducible refine State.actFollows_keeps ?_
    | with_reducible refine State.stopRails_keeps ?_
    | with_reducible refine State.deadPorts_keeps ?_
    | with_reducible refine State.driveSync_keeps ?_
    | with_reducible refine State.setPhase_keeps ?_
    | with_reducible refine State.loadBase_keeps ?_
    | with_reducible refine State.seqStop_keeps ?_
    | with_reducible refine State.modBoot_keeps ?_
    | with_reducible refine State.pllOff_keeps ?_
    | with_reducible refine State.relock_keeps ?_
    | with_reducible refine State.setBit_keeps ?_
    | with_reducible refine State.loaded_keeps ?_

theorem State.beginAttempt_keeps {s : State} (h_s : s.Inv) : (State.beginAttempt s).Inv := by
  unfold State.beginAttempt; try dsimp only
  repeat' first
    | with_reducible assumption
    | with_reducible refine State.kprStartRec_keeps ?_
    | with_reducible refine State.unloadCores_keeps ?_
    | with_reducible refine State.setPhase_keeps ?_
    | with_reducible refine State.modBoot_keeps ?_
    | with_reducible refine State.relock_keeps ?_
    | with_reducible refine State.setBit_keeps ?_
    | with_reducible refine State.setReg_keeps ?_

theorem State.startOrSeedling_keeps {s : State} (h_s : s.Inv) : (State.startOrSeedling s).Inv := by
  unfold State.startOrSeedling; try dsimp only
  repeat' first
    | with_reducible assumption
    | with_reducible refine ite_keeps ?_ ?_
    | with_reducible refine State.enterSeedling_keeps ?_
    | with_reducible refine State.beginAttempt_keeps ?_
    | with_reducible refine State.readStart_keeps ?_
    | with_reducible refine State.modBoot_keeps ?_

theorem State.failImage_keeps {s : State} {code : Nat} (h_s : s.Inv) : (State.failImage s code).Inv := by
  unfold State.failImage; try dsimp only
  repeat' first
    | with_reducible assumption
    | with_reducible refine State.enterSeedling_keeps ?_
    | with_reducible refine State.endAttempt_keeps ?_

theorem State.failAttempt_keeps {s : State} {code : Nat} (h_s : s.Inv) : (State.failAttempt s code).Inv := by
  unfold State.failAttempt; try dsimp only
  repeat' first
    | with_reducible assumption
    | with_reducible refine State.seqPowerDown_keeps ?_
    | with_reducible refine State.endAttempt_keeps ?_

theorem State.readFlash_keeps {s : State} {a n : Nat} (h_s : s.Inv) : (State.readFlash s a n).Inv := by
  unfold State.readFlash; try dsimp only
  repeat' first
    | with_reducible assumption
    | with_reducible refine State.emit_keeps ?_
    | split

theorem State.probeCmds_keeps {s : State} (h_s : s.Inv) : (State.probeCmds s).Inv := by
  unfold State.probeCmds; try dsimp only
  repeat' first
    | with_reducible assumption
    | with_reducible refine State.emit_keeps ?_

theorem State.flashProbe_keeps {s : State} {sfdp : Option Sfdp} (h_s : s.Inv) : (State.flashProbe s sfdp).Inv := by
  unfold State.flashProbe; try dsimp only
  repeat' first
    | with_reducible assumption
    | with_reducible refine State.readFlash_keeps ?_
    | with_reducible refine State.failImage_keeps ?_
    | with_reducible refine State.probeCmds_keeps ?_
    | with_reducible refine State.setPhase_keeps ?_
    | with_reducible refine State.modBoot_keeps ?_
    | with_reducible refine State.emit_keeps ?_
    | with_reducible refine ite_keeps ?_ ?_
    | with_reducible refine foldl_keeps (fun _ _ _ => ?_) ?_
    | split

theorem State.placeSection_keeps {s : State} {img : List Byte} {x : Section} (h_s : s.Inv) : (State.placeSection s img x).Inv := by
  unfold State.placeSection; try dsimp only
  repeat' first
    | with_reducible assumption
    | with_reducible refine State.setSramBytes_keeps ?_
    | with_reducible refine ite_keeps ?_ ?_
    | with_reducible refine foldl_keeps (fun _ _ _ => ?_) ?_

theorem State.keepRegs_keeps {s : State} {ts : List Triple} (h_s : s.Inv) : (State.keepRegs s ts).Inv := by
  unfold State.keepRegs; try dsimp only
  repeat' first
    | with_reducible assumption
    | with_reducible refine State.setSramBytes_keeps ?_
    | with_reducible refine State.modBoot_keeps ?_

theorem State.registerLoad_keeps {s : State} {ts : List Triple} (h_s : s.Inv) : (State.registerLoad s ts).Inv := by
  unfold State.registerLoad; try dsimp only
  repeat' first
    | with_reducible assumption
    | with_reducible refine State.loaded_keeps ?_
    | with_reducible refine State.loadTriples_keeps ?_
    | with_reducible refine State.actFollows_keeps ?_
    | with_reducible refine State.loadBase_keeps ?_
    | with_reducible refine State.setFld_keeps ?_
    | with_reducible refine State.Inv.regs ?_
    | with_reducible refine State.Inv.act ?_
    | with_reducible refine State.Inv.sram ?_
    | with_reducible refine State.Inv.pmem ?_
    | with_reducible refine State.Inv.cells ?_
    | with_reducible refine State.Inv.stats ?_
    | with_reducible refine State.Inv.extremes ?_
    | with_reducible refine State.Inv.snap ?_
    | with_reducible refine State.Inv.cores ?_
    | (refine ⟨?_, ?_, ?_, ?_, ?_, ?_, ?_, ?_, ?_⟩ <;> dsimp only)

theorem State.takePort_keeps {s : State} {p : Port} (h_s : s.Inv) : (State.takePort s p).Inv := by
  unfold State.takePort; try dsimp only
  repeat' first
    | with_reducible assumption
    | with_reducible refine State.unattached_keeps ?_
    | with_reducible refine ite_keeps ?_ ?_

theorem State.releaseCores_keeps {s : State} (h_s : s.Inv) : (State.releaseCores s).Inv := by
  unfold State.releaseCores; try dsimp only
  repeat' first
    | with_reducible assumption
    | with_reducible refine State.releaseCore_keeps ?_
    | with_reducible refine State.dropCore_keeps ?_
    | with_reducible refine ite_keeps ?_ ?_
    | with_reducible refine State.forAll_keeps (fun _ _ _ => ?_) ?_
    | split

theorem State.acceptImage_keeps {s : State} {slotB : Bool} {img : List Byte} (h_s : s.Inv) : (State.acceptImage s slotB img).Inv := by
  unfold State.acceptImage; try dsimp only
  repeat' first
    | with_reducible assumption
    | with_reducible refine ite_keeps ?_ ?_
    | with_reducible refine foldl_keeps (fun _ _ _ => ?_) ?_
    | with_reducible refine State.releaseCores_keeps ?_
    | with_reducible refine State.registerLoad_keeps ?_
    | with_reducible refine State.placeSection_keeps ?_
    | with_reducible refine State.failAttempt_keeps ?_
    | with_reducible refine State.checkPolicy_keeps ?_
    | with_reducible refine State.resumePort_keeps ?_
    | with_reducible refine State.settlePll_keeps ?_
    | with_reducible refine State.setPhase_keeps ?_
    | with_reducible refine State.placeSeeds_keeps ?_
    | with_reducible refine State.loadPmem_keeps ?_
    | with_reducible refine State.takePort_keeps ?_
    | with_reducible refine State.seqStart_keeps ?_
    | with_reducible refine State.keepRegs_keeps ?_
    | with_reducible refine State.modBoot_keeps ?_
    | with_reducible refine State.setBit_keeps ?_
    | with_reducible refine State.setFld_keeps ?_
    | with_reducible refine State.emit_keeps ?_
    | with_reducible refine State.forAll_keeps (fun _ _ _ => ?_) ?_

theorem State.readKey_keeps {s : State} {img : List Byte} (h_s : s.Inv) : (State.readKey s img).Inv := by
  unfold State.readKey; try dsimp only
  repeat' first
    | with_reducible assumption
    | with_reducible refine State.kprTouchAll_keeps ?_
    | with_reducible refine ite_keeps ?_ ?_

theorem State.readBody_keeps {s : State} {slotB : Bool} {img : List Byte} (h_s : s.Inv) : (State.readBody s slotB img).Inv := by
  unfold State.readBody; try dsimp only
  repeat' first
    | with_reducible assumption
    | with_reducible refine State.readFlash_keeps ?_
    | with_reducible refine ite_keeps ?_ ?_

theorem State.candidate_keeps {s : State} {slotB : Bool} {img : List Byte} {other : Option Nat} (h_s : s.Inv) : (State.candidate s slotB img other).Inv := by
  unfold State.candidate; try dsimp only
  repeat' first
    | with_reducible assumption
    | with_reducible refine ite_keeps ?_ ?_
    | with_reducible refine State.acceptImage_keeps ?_
    | with_reducible refine State.failImage_keeps ?_
    | with_reducible refine State.setPhase_keeps ?_
    | with_reducible refine State.readBody_keeps ?_
    | with_reducible refine State.readKey_keeps ?_
    | with_reducible refine State.modBoot_keeps ?_
    | with_reducible refine State.setFld_keeps ?_
    | with_reducible refine State.raise_keeps ?_
    | split

theorem State.retryEnd_keeps {s : State} (h_s : s.Inv) : (State.retryEnd s).Inv := by
  unfold State.retryEnd; try dsimp only
  repeat' first
    | with_reducible assumption
    | with_reducible refine ite_keeps ?_ ?_
    | with_reducible refine State.enterSeedling_keeps ?_
    | with_reducible refine State.detectFull_keeps ?_
    | with_reducible refine State.setPhase_keeps ?_
    | with_reducible refine State.modBoot_keeps ?_

theorem State.completeStart_keeps {s : State} (h_s : s.Inv) : (State.completeStart s).Inv := by
  unfold State.completeStart; try dsimp only
  repeat' first
    | with_reducible assumption
    | with_reducible refine State.kprStartRec_keeps ?_
    | with_reducible refine State.setPhase_keeps ?_
    | with_reducible refine State.modBoot_keeps ?_
    | with_reducible refine State.setBit_keeps ?_
    | with_reducible refine State.raise_keeps ?_

theorem State.healthy_keeps {s : State} {k : Core} (h_s : s.Inv) : (State.healthy s k).Inv := by
  unfold State.healthy; try dsimp only
  repeat' first
    | with_reducible assumption
    | with_reducible refine State.setFld_keeps ?_

theorem State.restart_keeps {s : State} (h_s : s.Inv) : (State.restart s).Inv := by
  unfold State.restart; try dsimp only
  repeat' first
    | with_reducible assumption
    | with_reducible refine State.setHouseOp_keeps ?_
    | with_reducible refine State.kprCut_keeps ?_
    | with_reducible refine State.allOff_keeps ?_

theorem State.settleStart_keeps {s : State} (h_s : s.Inv) : (State.settleStart s).Inv := by
  unfold State.settleStart; try dsimp only
  repeat' first
    | with_reducible assumption
    | with_reducible refine State.completeStart_keeps ?_
    | with_reducible refine State.setPhase_keeps ?_
    | with_reducible refine State.restart_keeps ?_
    | with_reducible refine ite_keeps ?_ ?_

theorem State.storeStartRec_keeps {s : State} {r : StartRec} (h_s : s.Inv) : (State.storeStartRec s r).Inv := by
  unfold State.storeStartRec; try dsimp only
  repeat' first
    | with_reducible assumption
    | with_reducible refine State.kprStore_keeps ?_
    | with_reducible refine State.modBoot_keeps ?_
    | with_reducible refine foldl_keeps (fun _ _ _ => ?_) ?_

theorem State.restartOrderly_keeps {s : State} (h_s : s.Inv) : (State.restartOrderly s).Inv := by
  unfold State.restartOrderly; try dsimp only
  repeat' first
    | with_reducible assumption
    | with_reducible refine State.seqPowerDown_keeps ?_
    | with_reducible refine State.kprRecord_keeps ?_
    | with_reducible refine State.modBoot_keeps ?_
    | with_reducible refine ite_keeps ?_ ?_

theorem State.startCtrl_keeps {s : State} {key : Nat} {orderly now clear : Bool} (h_s : s.Inv) : (State.startCtrl s key orderly now clear).Inv := by
  unfold State.startCtrl; try dsimp only
  repeat' first
    | with_reducible assumption
    | with_reducible refine State.restartOrderly_keeps ?_
    | with_reducible refine State.storeStartRec_keeps ?_
    | with_reducible refine State.kprStartRec_keeps ?_
    | with_reducible refine State.restart_keeps ?_
    | with_reducible refine ite_keeps ?_ ?_

theorem State.xferGo_keeps {s : State} (h_s : s.Inv) : (State.xferGo s).Inv := by
  unfold State.xferGo; try dsimp only
  repeat' first
    | with_reducible assumption
    | with_reducible refine ite_keeps ?_ ?_
    | with_reducible refine State.modBoot_keeps ?_
    | with_reducible refine State.setBit_keeps ?_
    | with_reducible refine State.emit_keeps ?_

theorem State.xferDone_keeps {s : State} {x : FlashXfer} {data : List Byte} (h_s : s.Inv) : (State.xferDone s x data).Inv := by
  unfold State.xferDone; try dsimp only
  repeat' first
    | with_reducible assumption
    | with_reducible refine foldl_keeps (fun _ _ _ => ?_) ?_
    | with_reducible refine State.modBoot_keeps ?_
    | with_reducible refine State.setBit_keeps ?_
    | with_reducible refine State.setFld_keeps ?_

end Sys2Proof.Machine
end

