-- ==== Sys2Proof/Laws/Keeps5.lean ====
section
/-!
SUPPORT. What the operations of telemetry, the keeper rows, live service, the link, mailboxes and register writes keep: the invariant of the state, one lemma for each.
Each proof opens the operation and cites the lemmas of what it calls.
-/

set_option linter.unusedTactic false
set_option linter.unreachableTactic false

namespace Sys2Proof.Machine

/-! ### Tele -/

theorem State.applyRef_keeps {s : State} (h_s : s.Inv) : (State.applyRef s).Inv := by
  unfold State.applyRef; try dsimp only
  repeat' first
    | with_reducible assumption
    | with_reducible refine State.modTcv_keeps ?_
    | with_reducible refine State.setBit_keeps ?_
    | with_reducible refine ite_keeps ?_ ?_

theorem State.beginConv_keeps {s : State} {n : Fin 32} {kind : TcvKind} (h_s : s.Inv) : (State.beginConv s n kind).Inv := by
  unfold State.beginConv; try dsimp only
  repeat' first
    | with_reducible assumption
    | with_reducible refine State.applyRef_keeps ?_
    | with_reducible refine State.modTcv_keeps ?_

theorem State.endPass_keeps {s : State} (h_s : s.Inv) : (State.endPass s).Inv := by
  unfold State.endPass; try dsimp only
  repeat' first
    | with_reducible assumption
    | with_reducible refine ite_keeps ?_ ?_
    | with_reducible refine State.modTcv_keeps ?_
    | with_reducible refine State.setBit_keeps ?_
    | with_reducible refine State.raise_keeps ?_

theorem State.selectConv_keeps {s : State} (h_s : s.Inv) : (State.selectConv s).Inv := by
  unfold State.selectConv; try dsimp only
  repeat' first
    | with_reducible assumption
    | with_reducible refine ite_keeps ?_ ?_
    | with_reducible refine State.beginConv_keeps ?_
    | with_reducible refine State.endPass_keeps ?_
    | with_reducible refine State.modTcv_keeps ?_
    | split

theorem State.average_keeps {s : State} {n : Fin 32} {code : Nat} {ovr : Bool} (h_s : s.Inv) : (State.average s n code ovr).Inv := by
  unfold State.average; try dsimp only
  repeat' first
    | with_reducible assumption
    | with_reducible refine State.modTcv_keeps ?_
    | with_reducible refine State.setFld_keeps ?_
    | with_reducible refine State.raise_keeps ?_
    | with_reducible refine ite_keeps ?_ ?_

theorem State.scanResult_keeps {s : State} {r : TcvRun} {code : Nat} {ovr fb : Bool} (h_s : s.Inv) : (State.scanResult s r code ovr fb).Inv := by
  unfold State.scanResult; try dsimp only
  repeat' first
    | with_reducible assumption
    | with_reducible refine State.average_keeps ?_
    | with_reducible refine State.modTcv_keeps ?_
    | with_reducible refine State.setReg_keeps ?_
    | with_reducible refine State.raise_keeps ?_
    | with_reducible refine ite_keeps ?_ ?_

theorem State.calResult_keeps {s : State} {result : Nat} (h_s : s.Inv) : (State.calResult s result).Inv := by
  unfold State.calResult; try dsimp only
  repeat' first
    | with_reducible assumption
    | with_reducible refine State.modTcv_keeps ?_
    | with_reducible refine State.setFld_keeps ?_
    | with_reducible refine State.setBit_keeps ?_
    | with_reducible refine State.raise_keeps ?_
    | with_reducible refine ite_keeps ?_ ?_

theorem State.calEnd_keeps {s : State} {r : TcvRun} (h_s : s.Inv) : (State.calEnd s r).Inv := by
  unfold State.calEnd; try dsimp only
  repeat' first
    | with_reducible assumption
    | with_reducible refine State.calResult_keeps ?_
    | with_reducible refine State.setSFld_keeps ?_
    | with_reducible refine State.modTcv_keeps ?_
    | with_reducible refine State.setFld_keeps ?_
    | with_reducible refine ite_keeps ?_ ?_
    | split

theorem State.calSample_keeps {s : State} {r : TcvRun} {raw : Nat} {ovr : Bool} (h_s : s.Inv) : (State.calSample s r raw ovr).Inv := by
  unfold State.calSample; try dsimp only
  repeat' first
    | with_reducible assumption
    | with_reducible refine State.beginConv_keeps ?_
    | with_reducible refine State.modTcv_keeps ?_
    | with_reducible refine State.calEnd_keeps ?_
    | with_reducible refine ite_keeps ?_ ?_

theorem State.conversion_keeps {s : State} {r : TcvRun} {mean : Rat} {wild stopped : Bool} (h_s : s.Inv) : (State.conversion s r mean wild stopped).Inv := by
  unfold State.conversion; try dsimp only
  repeat' first
    | with_reducible assumption
    | with_reducible refine ite_keeps ?_ ?_
    | with_reducible refine State.scanResult_keeps ?_
    | with_reducible refine State.calSample_keeps ?_
    | with_reducible refine State.modTcv_keeps ?_
    | with_reducible refine State.setBit_keeps ?_
    | with_reducible refine State.setReg_keeps ?_
    | with_reducible refine State.raise_keeps ?_
    | split

theorem State.beginWaiting_keeps {s : State} (h_s : s.Inv) : (State.beginWaiting s).Inv := by
  unfold State.beginWaiting; try dsimp only
  repeat' first
    | with_reducible assumption
    | with_reducible refine State.modTcv_keeps ?_

theorem State.settleRef_keeps {s : State} (h_s : s.Inv) : (State.settleRef s).Inv := by
  unfold State.settleRef; try dsimp only
  repeat' first
    | with_reducible assumption
    | with_reducible refine State.beginWaiting_keeps ?_
    | with_reducible refine State.setBit_keeps ?_

theorem State.clearAvg_keeps {s : State} {n : Fin 32} (h_s : s.Inv) : (State.clearAvg s n).Inv := by
  unfold State.clearAvg; try dsimp only
  repeat' first
    | with_reducible assumption
    | with_reducible refine State.modTcv_keeps ?_

theorem State.ctrlWritten_keeps {s : State} {was : Bool} (h_s : s.Inv) : (State.ctrlWritten s was).Inv := by
  unfold State.ctrlWritten; try dsimp only
  repeat' first
    | with_reducible assumption
    | with_reducible refine State.modTcv_keeps ?_
    | with_reducible refine State.setBit_keeps ?_
    | with_reducible refine ite_keeps ?_ ?_

theorem State.urgentGo_keeps {s : State} {busy : Bool} (h_s : s.Inv) : (State.urgentGo s busy).Inv := by
  unfold State.urgentGo; try dsimp only
  repeat' first
    | with_reducible assumption
    | with_reducible refine State.modTcv_keeps ?_
    | with_reducible refine State.setBit_keeps ?_
    | with_reducible refine ite_keeps ?_ ?_

theorem State.syscalGo_keeps {s : State} {busy : Bool} {key : Nat} (h_s : s.Inv) : (State.syscalGo s busy key).Inv := by
  unfold State.syscalGo; try dsimp only
  repeat' first
    | with_reducible assumption
    | with_reducible refine State.calResult_keeps ?_
    | with_reducible refine State.modTcv_keeps ?_
    | with_reducible refine State.setBit_keeps ?_
    | with_reducible refine State.kprCal_keeps ?_
    | with_reducible refine ite_keeps ?_ ?_
    | split

theorem State.syscalWritten_keeps {s : State} (h_s : s.Inv) : (State.syscalWritten s).Inv := by
  unfold State.syscalWritten; try dsimp only
  repeat' first
    | with_reducible assumption
    | with_reducible refine State.calResult_keeps ?_
    | with_reducible refine State.raise_keeps ?_

theorem State.thmDemand_keeps {s : State} (h_s : s.Inv) : (State.thmDemand s).Inv := by
  unfold State.thmDemand; try dsimp only
  repeat' first
    | with_reducible assumption
    | with_reducible refine State.setBit_keeps ?_
    | with_reducible refine ite_keeps ?_ ?_

theorem State.capThrottle_keeps {s : State} (h_s : s.Inv) : (State.capThrottle s).Inv := by
  unfold State.capThrottle; try dsimp only
  repeat' first
    | with_reducible assumption
    | with_reducible refine State.setFld_keeps ?_
    | with_reducible refine State.raise_keeps ?_
    | with_reducible refine ite_keeps ?_ ?_

theorem State.thmGo_keeps {s : State} (h_s : s.Inv) : (State.thmGo s).Inv := by
  unfold State.thmGo; try dsimp only
  repeat' first
    | with_reducible assumption
    | with_reducible refine State.thmDemand_keeps ?_
    | with_reducible refine State.setBit_keeps ?_

theorem State.tempCode_keeps {s : State} {t : Rat} (h_s : s.Inv) : (State.tempCode s t).2.Inv := by
  unfold State.tempCode; try dsimp only
  repeat' first
    | with_reducible assumption
    | with_reducible refine State.fresh_keeps ?_
    | split

theorem State.tempCode_keeps_eq {s : State} {t : Rat} {r₁ : Int} {r₂ : State} (h_s : s.Inv) (e : State.tempCode s t = (r₁, r₂)) : r₂.Inv := by
  have := State.tempCode_keeps (s := s) (t := t) h_s; rw [e] at this; exact this

theorem State.latchTemp_keeps {s : State} {b : Nat} (h_s : s.Inv) : (State.latchTemp s b).Inv := by
  unfold State.latchTemp; try dsimp only
  repeat' first
    | with_reducible assumption
    | with_reducible refine State.latchAll_keeps ?_
    | with_reducible refine State.forAll_keeps (fun _ _ _ => ?_) ?_

theorem State.warn_keeps {s : State} {tmax : Option Rat} (h_s : s.Inv) : (State.warn s tmax).Inv := by
  unfold State.warn; try dsimp only
  repeat' first
    | with_reducible assumption
    | with_reducible refine State.latchTemp_keeps ?_
    | with_reducible refine State.setBit_keeps ?_
    | with_reducible refine ite_keeps ?_ ?_
    | split

theorem State.throttleStep_keeps {s : State} {tmax : Option Rat} (h_s : s.Inv) : (State.throttleStep s tmax).Inv := by
  unfold State.throttleStep; try dsimp only
  repeat' first
    | with_reducible assumption
    | with_reducible refine State.setFld_keeps ?_
    | with_reducible refine State.raise_keeps ?_
    | with_reducible refine ite_keeps ?_ ?_

theorem State.shutdown_keeps {s : State} {t : Rat} (h_s : s.Inv) : (State.shutdown s t).Inv := by
  unfold State.shutdown; try dsimp only
  repeat' first
    | with_reducible assumption
    | with_reducible refine State.deviceSafe_keeps ?_
    | with_reducible refine State.safeStart_keeps ?_
    | with_reducible refine State.latchTemp_keeps ?_
    | with_reducible refine State.report_keeps ?_
    | with_reducible refine State.setBit_keeps ?_
    | with_reducible refine State.raise_keeps ?_
    | with_reducible refine ite_keeps ?_ ?_

theorem State.tmaxStats_keeps {s : State} {t : Rat} {code : Int} (h_s : s.Inv) : (State.tmaxStats s t code).Inv := by
  unfold State.tmaxStats; try dsimp only
  repeat' first
    | with_reducible assumption
    | with_reducible refine State.extreme_keeps ?_
    | with_reducible refine State.count_keeps ?_

theorem State.thermal_keeps {s : State} {counts : Vector (BitVec 16) 9} (h_s : s.Inv) : (State.thermal s counts).Inv := by
  unfold State.thermal
  extract_lets s0 c s1 s2 s3 s4 j tmax code s5
  have h0 : s0.Inv := State.raise_keeps (State.setBit_keeps (State.setBit_keeps h_s))
  clear_value s0
  have h1 : s1.Inv := foldl_keeps (fun _ _ h => State.setFld_keeps h) h0
  clear_value s1
  have h2 : s2.Inv := ite_keeps h1 (State.raise_keeps h1)
  clear_value s2
  have h3 : s3.Inv := h2.of_same rfl rfl rfl rfl rfl rfl rfl rfl rfl
  clear_value s3
  have h4 : s4.Inv := State.forAll_keeps (fun i t h => State.setFld_keeps (State.setBit_keeps (State.setSFld_keeps
    (State.tempCode_keeps h)))) h3
  clear_value s4
  have h5 : s5.Inv := State.tmaxStats_keeps (State.setFld_keeps (State.setSFld_keeps h4))
  clear_value s5
  exact ite_keeps (State.throttleStep_keeps (State.warn_keeps (State.setBit_keeps h3)))
    (State.shutdown_keeps (State.throttleStep_keeps (State.warn_keeps h5)))

/-! ### Keeper -/

theorem State.kprGo_keeps {s : State} {who : Writer} {op key : Nat} (h_s : s.Inv) : (State.kprGo s who op key).Inv := by
  unfold State.kprGo; try dsimp only
  repeat' first
    | with_reducible assumption
    | with_reducible refine State.kprTake_keeps ?_
    | with_reducible refine State.setFld_keeps ?_
    | with_reducible refine State.modKpr_keeps ?_ ?_
    | with_reducible refine State.setBit_keeps ?_
    | with_reducible refine State.raise_keeps ?_
    | with_reducible refine ite_keeps ?_ ?_
    | with_reducible rfl

theorem State.groupDone_keeps {s : State} {op : KprOp} {a : Nat} {w : Word} {rest : List (Nat × Word)} {same : Bool} (h_s : s.Inv) : (State.groupDone s op a w rest same).Inv := by
  unfold State.groupDone; try dsimp only
  repeat' first
    | with_reducible assumption
    | with_reducible refine State.kprStore_keeps ?_
    | with_reducible refine State.recGen_keeps ?_
    | with_reducible refine State.modKpr_keeps ?_ ?_
    | with_reducible rfl
    | split

theorem State.commandDone_keeps {s : State} {c : KprCmd} (h_s : s.Inv) : (State.commandDone s c).Inv := by
  unfold State.commandDone; try dsimp only
  repeat' first
    | with_reducible assumption
    | with_reducible refine State.calCheck_keeps ?_
    | with_reducible refine State.modBoot_keeps ?_
    | with_reducible refine State.setFld_keeps ?_
    | with_reducible refine State.setBit_keeps ?_
    | with_reducible refine State.raise_keeps ?_
    | with_reducible refine ite_keeps ?_ ?_
    | split

theorem State.flushDone_keeps {s : State} (h_s : s.Inv) : (State.flushDone s).Inv := by
  unfold State.flushDone; try dsimp only
  repeat' first
    | with_reducible assumption
    | with_reducible refine State.modRec_keeps ?_ ?_ ?_ ?_
    | with_reducible refine State.setBit_keeps ?_
    | with_reducible refine ite_keeps ?_ ?_
    | with_reducible rfl

theorem State.operationDone_keeps {s : State} {op : KprOp} (h_s : s.Inv) : (State.operationDone s op).Inv := by
  unfold State.operationDone; try dsimp only
  repeat' first
    | with_reducible assumption
    | with_reducible refine State.syscalWritten_keeps ?_
    | with_reducible refine State.commandDone_keeps ?_
    | with_reducible refine State.flushDone_keeps ?_
    | with_reducible refine State.calCheck_keeps ?_
    | with_reducible refine State.kprTake_keeps ?_
    | with_reducible refine State.modKpr_keeps ?_ ?_
    | with_reducible refine State.modRec_keeps ?_ ?_ ?_ ?_
    | with_reducible refine State.raise_keeps ?_
    | with_reducible refine ite_keeps ?_ ?_
    | with_reducible rfl
    | split

theorem State.readGroup_keeps {s : State} (h_s : s.Inv) : (State.readGroup s).2.Inv := by
  unfold State.readGroup; try dsimp only
  repeat' first
    | with_reducible assumption
    | with_reducible refine State.kprTouch_keeps ?_
    | with_reducible refine State.setFld_keeps ?_

theorem State.readGroup_keeps_eq {s : State} {r₁ : Word} {r₂ : State} (h_s : s.Inv) (e : State.readGroup s = (r₁, r₂)) : r₂.Inv := by
  have := State.readGroup_keeps (s := s) h_s; rw [e] at this; exact this

theorem State.persist_keeps {s : State} (h_s : s.Inv) : (State.persist s).Inv := by
  unfold State.persist; try dsimp only
  repeat' first
    | with_reducible assumption
    | with_reducible refine State.kprRecord_keeps ?_
    | with_reducible refine ite_keeps ?_ ?_

theorem State.flush_keeps {s : State} (h_s : s.Inv) : (State.flush s).Inv := by
  unfold State.flush; try dsimp only
  repeat' first
    | with_reducible assumption
    | with_reducible refine State.flushDone_keeps ?_
    | with_reducible refine State.persist_keeps ?_
    | with_reducible refine State.modRec_keeps ?_ ?_ ?_ ?_
    | with_reducible refine State.setBit_keeps ?_
    | with_reducible rfl

theorem State.takeSnap_keeps {s : State} (h_s : s.Inv) : (State.takeSnap s).Inv := by
  unfold State.takeSnap; try dsimp only
  repeat' first
    | with_reducible assumption
    | exact h_s.stats
    | exact h_s.extremes
    | with_reducible refine State.modRec_mems_keeps ?_ ?_ ?_ ?_
    | with_reducible refine State.setBit_keeps ?_
    | with_reducible refine State.recGen_keeps ?_

theorem State.railSample_keeps {s : State} {l : Loop} (h_s : s.Inv) : (State.railSample s l).Inv := by
  unfold State.railSample; try dsimp only
  repeat' first
    | with_reducible assumption
    | with_reducible refine ite_keeps ?_ ?_
    | with_reducible refine State.extreme_keeps ?_
    | with_reducible refine State.count_keeps ?_

theorem State.portSample_keeps {s : State} {p : Port} {w : Nat} (h_s : s.Inv) : (State.portSample s p w).Inv := by
  unfold State.portSample; try dsimp only
  repeat' first
    | with_reducible assumption
    | with_reducible refine State.extreme_keeps ?_
    | with_reducible refine State.count_keeps ?_
    | with_reducible refine ite_keeps ?_ ?_

theorem State.sample_keeps {s : State} {power : Vector Nat 4} {vin vsys : Nat} (h_s : s.Inv) : (State.sample s power vin vsys).Inv := by
  unfold State.sample; try dsimp only
  repeat' first
    | with_reducible assumption
    | with_reducible refine State.railSample_keeps ?_
    | with_reducible refine State.portSample_keeps ?_
    | with_reducible refine State.extreme_keeps ?_
    | with_reducible refine State.forAll_keeps (fun _ _ _ => ?_) ?_

/-! ### Live -/

theorem State.stageWord_keeps {s : State} {w : Word} (h_s : s.Inv) : (State.stageWord s w).Inv := by
  unfold State.stageWord; try dsimp only
  repeat' first
    | with_reducible assumption
    | with_reducible refine State.setSramWord_keeps ?_
    | with_reducible refine State.setFld_keeps ?_
    | with_reducible refine State.setBit_keeps ?_
    | with_reducible refine State.setReg_keeps ?_

theorem State.verify_keeps {s : State} (h_s : s.Inv) : (State.verify s).Inv := by
  unfold State.verify; try dsimp only
  repeat' first
    | with_reducible assumption
    | with_reducible refine State.modLive_keeps ?_
    | with_reducible refine State.setFld_keeps ?_
    | with_reducible refine State.setBit_keeps ?_
    | with_reducible refine State.raise_keeps ?_
    | with_reducible refine ite_keeps ?_ ?_

theorem State.settleVerify_keeps {s : State} (h_s : s.Inv) : (State.settleVerify s).Inv := by
  unfold State.settleVerify; try dsimp only
  repeat' first
    | with_reducible assumption
    | with_reducible refine State.verify_keeps ?_
    | with_reducible refine ite_keeps ?_ ?_

theorem State.setHo_keeps {s : State} {k : Core} {st result : Nat} (h_s : s.Inv) : (State.setHo s k st result).Inv := by
  unfold State.setHo; try dsimp only
  repeat' first
    | with_reducible assumption
    | with_reducible refine State.setFld_keeps ?_

theorem State.handoverReq_keeps {s : State} {k : Core} (h_s : s.Inv) : (State.handoverReq s k).Inv := by
  unfold State.handoverReq; try dsimp only
  repeat' first
    | with_reducible assumption
    | with_reducible refine State.modLive_keeps ?_
    | with_reducible refine State.setFld_keeps ?_
    | with_reducible refine State.setHo_keeps ?_
    | with_reducible refine ite_keeps ?_ ?_

theorem State.ready_keeps {s : State} {k : Core} (h_s : s.Inv) : (State.ready s k).Inv := by
  unfold State.ready; try dsimp only
  repeat' first
    | with_reducible assumption
    | exact CoreState.reset_ok
    | with_reducible refine State.modCore_keeps ?_ ?_
    | with_reducible refine State.setFld_keeps ?_
    | with_reducible refine ite_keeps ?_ ?_

theorem State.handoverFails_keeps {s : State} {k : Core} {result : Nat} (h_s : s.Inv) : (State.handoverFails s k result).Inv := by
  unfold State.handoverFails; try dsimp only
  repeat' first
    | with_reducible assumption
    | with_reducible refine State.modLive_keeps ?_
    | with_reducible refine State.setHo_keeps ?_
    | with_reducible refine State.raise_keeps ?_

theorem State.copySection_keeps {s : State} {x : Section} (h_s : s.Inv) : (State.copySection s x).Inv := by
  unfold State.copySection; try dsimp only
  repeat' first
    | with_reducible assumption
    | with_reducible refine State.setSramBytes_keeps ?_
    | with_reducible refine foldl_keeps (fun _ _ _ => ?_) ?_
    | split

theorem State.copyDone_keeps {s : State} {k : Core} (h_s : s.Inv) : (State.copyDone s k).Inv := by
  unfold State.copyDone; try dsimp only
  repeat' first
    | with_reducible assumption
    | with_reducible refine State.copySection_keeps ?_
    | with_reducible refine State.releaseCore_keeps ?_
    | with_reducible refine State.setFld_keeps ?_
    | with_reducible refine foldl_keeps (fun _ _ _ => ?_) ?_

theorem State.alive_keeps {s : State} {k : Core} (h_s : s.Inv) : (State.alive s k).Inv := by
  unfold State.alive; try dsimp only
  repeat' first
    | with_reducible assumption
    | with_reducible refine State.modLive_keeps ?_
    | with_reducible refine State.setHo_keeps ?_
    | with_reducible refine State.raise_keeps ?_
    | with_reducible refine ite_keeps ?_ ?_

theorem State.notAlive_keeps {s : State} {k : Core} (h_s : s.Inv) : (State.notAlive s k).Inv := by
  unfold State.notAlive; try dsimp only
  repeat' first
    | with_reducible assumption
    | with_reducible refine State.handoverFails_keeps ?_
    | with_reducible refine State.releaseCore_keeps ?_
    | with_reducible refine State.satInc_keeps ?_

theorem State.hoWritten_keeps {s : State} {who : Writer} {k : Core} {req ready alive : Bool} (h_s : s.Inv) : (State.hoWritten s who k req ready alive).Inv := by
  unfold State.hoWritten; try dsimp only
  repeat' first
    | with_reducible assumption
    | with_reducible refine State.handoverReq_keeps ?_
    | with_reducible refine State.ready_keeps ?_
    | with_reducible refine State.alive_keeps ?_
    | with_reducible refine ite_keeps ?_ ?_

theorem State.retireGo_keeps {s : State} (h_s : s.Inv) : (State.retireGo s).Inv := by
  unfold State.retireGo; try dsimp only
  repeat' first
    | with_reducible assumption
    | with_reducible refine State.modChan_keeps ?_
    | with_reducible refine State.modLive_keeps ?_
    | with_reducible refine State.setFld_keeps ?_
    | split

theorem State.setRetrim_keeps {s : State} {r : Option Retrim} (h_s : s.Inv) : (State.setRetrim s r).Inv := by
  unfold State.setRetrim; try dsimp only
  repeat' first
    | with_reducible assumption
    | with_reducible refine State.modLive_keeps ?_
    | with_reducible refine State.setBit_keeps ?_

theorem State.retrimGo_keeps {s : State} (h_s : s.Inv) : (State.retrimGo s).Inv := by
  unfold State.retrimGo; try dsimp only
  repeat' first
    | with_reducible assumption
    | with_reducible refine State.setRetrim_keeps ?_
    | with_reducible refine State.modLive_keeps ?_
    | with_reducible refine State.setFld_keeps ?_
    | with_reducible refine ite_keeps ?_ ?_
    | split

theorem State.retrimBack_keeps {s : State} {r : Retrim} {result : Nat} (h_s : s.Inv) : (State.retrimBack s r result).Inv := by
  unfold State.retrimBack; try dsimp only
  repeat' first
    | with_reducible assumption
    | with_reducible refine State.setRetrim_keeps ?_
    | with_reducible refine State.setFld_keeps ?_
    | with_reducible refine State.setReg_keeps ?_
    | split

theorem State.commitTrims_keeps {s : State} {key : Nat} (h_s : s.Inv) : (State.commitTrims s key).Inv := by
  unfold State.commitTrims; try dsimp only
  repeat' first
    | with_reducible assumption
    | with_reducible refine State.setFld_keeps ?_
    | with_reducible refine State.kprCal_keeps ?_
    | with_reducible refine ite_keeps ?_ ?_

theorem State.retrimValley_keeps {s : State} (h_s : s.Inv) : (State.retrimValley s).Inv := by
  unfold State.retrimValley; try dsimp only
  repeat' first
    | with_reducible assumption
    | with_reducible refine State.setRetrim_keeps ?_
    | with_reducible refine State.modLive_keeps ?_
    | with_reducible refine State.setFld_keeps ?_
    | with_reducible refine State.raise_keeps ?_
    | with_reducible refine ite_keeps ?_ ?_
    | split

theorem State.retireValley_keeps {s : State} (h_s : s.Inv) : (State.retireValley s).Inv := by
  unfold State.retireValley; try dsimp only
  repeat' first
    | with_reducible assumption
    | with_reducible refine State.modLive_keeps ?_
    | with_reducible refine State.setFld_keeps ?_
    | with_reducible refine ite_keeps ?_ ?_
    | split

theorem State.keyBad_keeps {s : State} (h_s : s.Inv) : (State.keyBad s).Inv := by
  unfold State.keyBad; try dsimp only
  repeat' first
    | with_reducible assumption
    | with_reducible refine State.modTst_keeps ?_
    | with_reducible refine State.raise_keeps ?_

theorem State.unlock_keeps {s : State} (h_s : s.Inv) : (State.unlock s).Inv := by
  unfold State.unlock; try dsimp only
  repeat' first
    | with_reducible assumption
    | with_reducible refine State.report_keeps ?_
    | with_reducible refine State.setBit_keeps ?_
    | with_reducible refine State.modTst_keeps ?_

theorem State.tstKey_keeps {s : State} {v : Nat} (h_s : s.Inv) : (State.tstKey s v).Inv := by
  unfold State.tstKey; try dsimp only
  repeat' first
    | with_reducible assumption
    | with_reducible refine State.keyBad_keeps ?_
    | with_reducible refine State.modTst_keeps ?_
    | with_reducible refine State.unlock_keeps ?_
    | with_reducible refine ite_keeps ?_ ?_

theorem State.logUse_keeps {s : State} {off : Nat} {w : Word} (h_s : s.Inv) : (State.logUse s off w).Inv := by
  unfold State.logUse; try dsimp only
  repeat' first
    | with_reducible assumption
    | with_reducible refine State.setFld_keeps ?_
    | with_reducible refine State.setBit_keeps ?_
    | with_reducible refine State.setReg_keeps ?_
    | with_reducible refine State.raise_keeps ?_
    | with_reducible refine ite_keeps ?_ ?_

theorem State.logClr_keeps {s : State} (h_s : s.Inv) : (State.logClr s).Inv := by
  unfold State.logClr; try dsimp only
  repeat' first
    | with_reducible assumption
    | with_reducible refine State.setReg_keeps ?_
    | with_reducible refine foldl_keeps (fun _ _ _ => ?_) ?_

theorem State.inject_keeps {s : State} {w : Word} (h_s : s.Inv) : (State.inject s w).Inv := by
  unfold State.inject; try dsimp only
  repeat' first
    | with_reducible assumption
    | with_reducible refine State.logUse_keeps ?_
    | with_reducible refine ite_keeps ?_ ?_
    | with_reducible refine State.Inv.regs ?_
    | with_reducible refine State.Inv.act ?_
    | with_reducible refine State.Inv.sram ?_
    | with_reducible refine State.Inv.pmem ?_
    | with_reducible refine State.Inv.cells ?_
    | with_reducible refine State.Inv.stats ?_
    | with_reducible refine State.Inv.extremes ?_
    | with_reducible refine State.Inv.snap ?_
    | with_reducible refine State.Inv.cores ?_
    | (refine ⟨?_, ?_, ?_, ?_, ?_, ?_, ?_, ?_, ?_⟩ <;> dsimp only)

/-! ### Link -/

theorem State.noteSettled_keeps {s was : State} (h_s : s.Inv) (h_was : was.Inv) : (State.noteSettled s was).Inv := by
  unfold State.noteSettled; try dsimp only
  repeat' first
    | with_reducible assumption
    | with_reducible refine State.alertSlot_keeps ?_
    | with_reducible refine ite_keeps ?_ ?_
    | with_reducible refine State.forAll_keeps (fun _ _ _ => ?_) ?_

theorem State.linkTarget_keeps {s : State} {v : Port} {k : Fin 2} {l : Loop} {code : Nat} (h_s : s.Inv) : (State.linkTarget s v k l code).Inv := by
  unfold State.linkTarget; try dsimp only
  repeat' first
    | with_reducible assumption
    | with_reducible refine State.writeVref_keeps ?_
    | with_reducible refine State.setFld_keeps ?_

theorem State.linkNotice_keeps {s : State} {v : Port} {l : Loop} {di : Int} (h_s : s.Inv) : (State.linkNotice s v l di).Inv := by
  unfold State.linkNotice; try dsimp only
  repeat' first
    | with_reducible assumption
    | with_reducible refine ite_keeps ?_ ?_
    | with_reducible refine State.stopInject_keeps ?_
    | with_reducible refine State.modLoop_keeps ?_

theorem State.clearAlert_keeps {s : State} {v : Port} {k : Fin 2} {mask : Nat} (h_s : s.Inv) : (State.clearAlert s v k mask).Inv := by
  unfold State.clearAlert; try dsimp only
  repeat' first
    | with_reducible assumption
    | with_reducible refine State.setFld_keeps ?_

theorem State.linkApply_keeps {s : State} {v : Port} {cmd pay : Nat} {k : Fin 2} (h_s : s.Inv) : (State.linkApply s v cmd pay k).Inv := by
  unfold State.linkApply; try dsimp only
  repeat' first
    | with_reducible assumption
    | with_reducible refine State.linkTarget_keeps ?_
    | with_reducible refine State.clearAlert_keeps ?_
    | with_reducible refine State.stopInject_keeps ?_
    | with_reducible refine State.linkNotice_keeps ?_
    | with_reducible refine State.setFld_keeps ?_
    | split

theorem State.respond_keeps {s : State} {v : Port} {resp tag low : Nat} {trailer : Option (BitVec 24)} (h_s : s.Inv) : (State.respond s v resp tag low trailer).Inv := by
  unfold State.respond; try dsimp only
  repeat' first
    | with_reducible assumption
    | with_reducible refine State.setFld_keeps ?_
    | with_reducible refine State.emit_keeps ?_

theorem State.linkErr_keeps {s : State} {v : Port} (h_s : s.Inv) : (State.linkErr s v).Inv := by
  unfold State.linkErr; try dsimp only
  repeat' first
    | with_reducible assumption
    | with_reducible refine State.alertSlot_keeps ?_
    | with_reducible refine State.raise_keeps ?_

theorem State.linkAck_keeps {s : State} {v : Port} {w : Word} {trailer : Option (BitVec 24)} (h_s : s.Inv) : (State.linkAck s v w trailer).Inv := by
  unfold State.linkAck; try dsimp only
  repeat' first
    | with_reducible assumption
    | with_reducible refine State.respond_keeps ?_

theorem State.linkRej_keeps {s : State} {v : Port} {w : Word} {cause : Nat} (h_s : s.Inv) : (State.linkRej s v w cause).Inv := by
  unfold State.linkRej; try dsimp only
  repeat' first
    | with_reducible assumption
    | with_reducible refine State.respond_keeps ?_
    | with_reducible refine State.satInc_keeps ?_

theorem State.linkNak_keeps {s : State} {v : Port} {w : Word} {cause : Nat} (h_s : s.Inv) : (State.linkNak s v w cause).Inv := by
  unfold State.linkNak; try dsimp only
  repeat' first
    | with_reducible assumption
    | with_reducible refine State.linkErr_keeps ?_
    | with_reducible refine State.respond_keeps ?_

theorem State.linkExecute_keeps {s : State} {v : Port} {w : Word} (h_s : s.Inv) : (State.linkExecute s v w).Inv := by
  unfold State.linkExecute; try dsimp only
  repeat' first
    | with_reducible assumption
    | with_reducible refine State.linkApply_keeps ?_
    | with_reducible refine State.modLink_keeps ?_
    | with_reducible refine State.linkAck_keeps ?_
    | with_reducible refine State.linkRej_keeps ?_
    | with_reducible refine foldl_keeps (fun _ _ _ => ?_) ?_
    | split

theorem State.linkNote_keeps {s : State} {v : Port} {w : Word} (h_s : s.Inv) : (State.linkNote s v w).Inv := by
  unfold State.linkNote; try dsimp only
  repeat' first
    | with_reducible assumption
    | with_reducible refine State.modLink_keeps ?_
    | with_reducible refine State.setReg_keeps ?_

theorem State.endPulse_keeps {s : State} {v : Port} (h_s : s.Inv) : (State.endPulse s v).Inv := by
  unfold State.endPulse; try dsimp only
  repeat' first
    | with_reducible assumption
    | with_reducible refine State.setFld_keeps ?_

theorem State.linkReceive_keeps {s : State} {v : Port} {w : Word} {waited : Bool} (h_s : s.Inv) : (State.linkReceive s v w waited).Inv := by
  unfold State.linkReceive; try dsimp only
  repeat' first
    | with_reducible assumption
    | with_reducible refine State.linkExecute_keeps ?_
    | with_reducible refine State.endPulse_keeps ?_
    | with_reducible refine State.linkNote_keeps ?_
    | with_reducible refine State.linkNak_keeps ?_
    | with_reducible refine State.linkAck_keeps ?_
    | with_reducible refine State.satInc_keeps ?_
    | with_reducible refine ite_keeps ?_ ?_

theorem State.mapWritten_keeps {s : State} {v : Port} (h_s : s.Inv) : (State.mapWritten s v).Inv := by
  unfold State.mapWritten; try dsimp only
  repeat' first
    | with_reducible assumption
    | with_reducible refine State.setFld_keeps ?_

theorem State.clearErr_keeps {s : State} {v : Port} (h_s : s.Inv) : (State.clearErr s v).Inv := by
  unfold State.clearErr; try dsimp only
  repeat' first
    | with_reducible assumption
    | with_reducible refine State.setReg_keeps ?_

/-! ### Reads -/

theorem State.readReg_keeps {s : State} {who : Writer} {a : Nat} (h_s : s.Inv) : (State.readReg s who a).state.Inv := by
  unfold State.readReg; try dsimp only
  repeat' first
    | with_reducible assumption
    | with_reducible refine State.readGroup_keeps ?_
    | split

/-! ### Mailbox -/

theorem State.mbxPut_keeps {s : State} {n : Nat} {w : Word} (h_s : s.Inv) : (State.mbxPut s n w).Inv := by
  unfold State.mbxPut; try dsimp only
  repeat' first
    | with_reducible assumption
    | with_reducible refine State.setFld_keeps ?_
    | with_reducible refine State.setReg_keeps ?_
    | with_reducible refine State.raise_keeps ?_
    | with_reducible refine ite_keeps ?_ ?_
    | split
    | with_reducible refine State.Inv.regs ?_
    | with_reducible refine State.Inv.act ?_
    | with_reducible refine State.Inv.sram ?_
    | with_reducible refine State.Inv.pmem ?_
    | with_reducible refine State.Inv.cells ?_
    | with_reducible refine State.Inv.stats ?_
    | with_reducible refine State.Inv.extremes ?_
    | with_reducible refine State.Inv.snap ?_
    | with_reducible refine State.Inv.cores ?_
    | (refine ⟨?_, ?_, ?_, ?_, ?_, ?_, ?_, ?_, ?_⟩ <;> dsimp only)

theorem State.mbxSend_keeps {s : State} {who : Writer} {n : Nat} {w : Word} (h_s : s.Inv) : (State.mbxSend s who n w).1.Inv := by
  unfold State.mbxSend; try dsimp only
  repeat' first
    | with_reducible assumption
    | with_reducible refine State.mbxPut_keeps ?_
    | with_reducible refine State.raise_keeps ?_
    | split

theorem State.mbxSend_keeps_eq {s : State} {who : Writer} {n : Nat} {w : Word} {r₁ : State} {r₂ : Nat} (h_s : s.Inv) (e : State.mbxSend s who n w = (r₁, r₂)) : r₁.Inv := by
  have := State.mbxSend_keeps (s := s) (who := who) (n := n) (w := w) h_s; rw [e] at this; exact this

theorem State.mbxAnswer_keeps {s : State} {n code : Nat} (h_s : s.Inv) : (State.mbxAnswer s n code).Inv := by
  unfold State.mbxAnswer; try dsimp only
  repeat' first
    | with_reducible assumption
    | with_reducible refine State.setFld_keeps ?_
    | split
    | with_reducible refine State.Inv.regs ?_
    | with_reducible refine State.Inv.act ?_
    | with_reducible refine State.Inv.sram ?_
    | with_reducible refine State.Inv.pmem ?_
    | with_reducible refine State.Inv.cells ?_
    | with_reducible refine State.Inv.stats ?_
    | with_reducible refine State.Inv.extremes ?_
    | with_reducible refine State.Inv.snap ?_
    | with_reducible refine State.Inv.cores ?_
    | (refine ⟨?_, ?_, ?_, ?_, ?_, ?_, ?_, ?_, ?_⟩ <;> dsimp only)

theorem State.mbxAck_keeps {s : State} {who : Writer} {n code : Nat} (h_s : s.Inv) : (State.mbxAck s who n code).1.Inv := by
  unfold State.mbxAck; try dsimp only
  repeat' first
    | with_reducible assumption
    | with_reducible refine State.mbxAnswer_keeps ?_
    | split

theorem State.mbxAck_keeps_eq {s : State} {who : Writer} {n code : Nat} {r₁ : State} {r₂ : Nat} (h_s : s.Inv) (e : State.mbxAck s who n code = (r₁, r₂)) : r₁.Inv := by
  have := State.mbxAck_keeps (s := s) (who := who) (n := n) (code := code) h_s; rw [e] at this; exact this

theorem State.setOwner_keeps {s : State} {r o : Nat} (h_s : s.Inv) : (State.setOwner s r o).Inv := by
  unfold State.setOwner; try dsimp only
  repeat' first
    | with_reducible assumption
    | with_reducible refine State.setFld_keeps ?_
    | with_reducible refine State.raise_keeps ?_
    | with_reducible refine ite_keeps ?_ ?_

theorem State.tenancy__keeps {s : State} {i : Fin 6} (h_s : s.Inv) : (State.tenancy_ s i).Inv := by
  unfold State.tenancy_; try dsimp only
  repeat' first
    | with_reducible assumption
    | with_reducible refine State.mbxAnswer_keeps ?_
    | with_reducible refine State.setOwner_keeps ?_
    | with_reducible refine State.raise_keeps ?_
    | with_reducible refine ite_keeps ?_ ?_

/-! ### RegWrite -/

theorem State.storeWord_keeps {s : State} {r : RegAt} {a : Nat} {x : RegWr} (h_s : s.Inv) : (State.storeWord s r a x).Inv := by
  unfold State.storeWord; try dsimp only
  repeat' first
    | with_reducible assumption
    | with_reducible refine State.writeShadow_keeps ?_
    | with_reducible refine State.mendReg_keeps ?_
    | with_reducible refine State.setReg_keeps ?_
    | with_reducible refine ite_keeps ?_ ?_

theorem State.lfWritten_keeps {s : State} {x : RegWr} (h_s : s.Inv) : (State.lfWritten s x).Inv := by
  unfold State.lfWritten; try dsimp only
  repeat' first
    | with_reducible assumption
    | with_reducible refine State.writeLfSrc_keeps ?_
    | with_reducible refine ite_keeps ?_ ?_

theorem State.sysEffect_keeps {s : State} {n : RegName} {old : Word} {x : RegWr} (h_s : s.Inv) : (State.sysEffect s n old x).Inv := by
  unfold State.sysEffect; try dsimp only
  repeat' first
    | with_reducible assumption
    | with_reducible refine ite_keeps ?_ ?_
    | with_reducible refine State.enterDormant_keeps ?_
    | with_reducible refine State.lfWritten_keeps ?_
    | with_reducible refine State.startCtrl_keeps ?_
    | with_reducible refine State.chooseRef_keeps ?_
    | with_reducible refine State.healthy_keeps ?_
    | with_reducible refine State.pllOff_keeps ?_
    | with_reducible refine State.xferGo_keeps ?_
    | split

theorem State.goCal_keeps {s : State} {h : Half} (h_s : s.Inv) : (State.goCal s h).Inv := by
  unfold State.goCal; try dsimp only
  repeat' first
    | with_reducible assumption
    | with_reducible refine State.recalibrate_keeps ?_
    | with_reducible refine State.setBit_keeps ?_
    | with_reducible refine State.fresh_keeps ?_
    | with_reducible refine ite_keeps ?_ ?_

theorem State.engineEffect_keeps {s : State} {n : RegName} {old : Word} {x : RegWr} (h_s : s.Inv) : (State.engineEffect s n old x).Inv := by
  unfold State.engineEffect; try dsimp only
  repeat' first
    | with_reducible assumption
    | with_reducible refine ite_keeps ?_ ?_
    | with_reducible refine State.maskWritten_keeps ?_
    | with_reducible refine State.allNeedLoad_keeps ?_
    | with_reducible refine State.settleSync_keeps ?_
    | with_reducible refine State.allPllLoad_keeps ?_
    | with_reducible refine State.engineOff_keeps ?_
    | with_reducible refine State.clearMinp_keeps ?_
    | with_reducible refine State.setBit_keeps ?_
    | with_reducible refine State.setReg_keeps ?_
    | with_reducible refine State.goCal_keeps ?_
    | split

theorem State.loopCtrl_keeps {s : State} {l : Loop} {x : RegWr} (h_s : s.Inv) : (State.loopCtrl s l x).Inv := by
  unfold State.loopCtrl; try dsimp only
  repeat' first
    | with_reducible assumption
    | with_reducible refine State.fbForce_keeps ?_
    | with_reducible refine State.setBit_keeps ?_
    | with_reducible refine ite_keeps ?_ ?_

theorem State.blkCtrl_keeps {s : State} {l : Loop} {x : RegWr} (h_s : s.Inv) : (State.blkCtrl s l x).Inv := by
  unfold State.blkCtrl; try dsimp only
  repeat' first
    | with_reducible assumption
    | with_reducible refine State.blkGo_keeps ?_
    | with_reducible refine State.raise_keeps ?_
    | with_reducible refine ite_keeps ?_ ?_

theorem State.loopEffect_keeps {s : State} {r : RegAt} {x : RegWr} (h_s : s.Inv) : (State.loopEffect s r x).Inv := by
  unfold State.loopEffect; try dsimp only
  repeat' first
    | with_reducible assumption
    | with_reducible refine ite_keeps ?_ ?_
    | with_reducible refine State.retiredClear_keeps ?_
    | with_reducible refine State.stopInject_keeps ?_
    | with_reducible refine State.writeVref_keeps ?_
    | with_reducible refine State.loopCtrl_keeps ?_
    | with_reducible refine State.blkCtrl_keeps ?_
    | with_reducible refine State.setBit_keeps ?_
    | split

theorem State.linkEffect_keeps {s : State} {r : RegAt} {x : RegWr} (h_s : s.Inv) : (State.linkEffect s r x).Inv := by
  unfold State.linkEffect; try dsimp only
  repeat' first
    | with_reducible assumption
    | with_reducible refine State.mapWritten_keeps ?_
    | with_reducible refine State.clearErr_keeps ?_
    | with_reducible refine State.endPulse_keeps ?_
    | with_reducible refine ite_keeps ?_ ?_
    | split

theorem State.protEffect_keeps {s : State} {r : RegAt} {x : RegWr} (h_s : s.Inv) : (State.protEffect s r x).Inv := by
  unfold State.protEffect; try dsimp only
  repeat' first
    | with_reducible assumption
    | with_reducible refine ite_keeps ?_ ?_
    | with_reducible refine State.loffClr_keeps ?_
    | with_reducible refine State.fresh_keeps ?_
    | with_reducible refine State.ovClr_keeps ?_
    | split

theorem State.pdCtrl_keeps {s : State} {p : Port} {x : RegWr} (h_s : s.Inv) : (State.pdCtrl s p x).Inv := by
  unfold State.pdCtrl; try dsimp only
  repeat' first
    | with_reducible assumption
    | with_reducible refine State.startPending_keeps ?_
    | with_reducible refine State.setFld_keeps ?_
    | with_reducible refine ite_keeps ?_ ?_

theorem State.pdEffect_keeps {s : State} {r : RegAt} {x : RegWr} (h_s : s.Inv) : (State.pdEffect s r x).Inv := by
  unfold State.pdEffect; try dsimp only
  repeat' first
    | with_reducible assumption
    | with_reducible refine ite_keeps ?_ ?_
    | with_reducible refine State.leaveDisabled_keeps ?_
    | with_reducible refine State.applyCfg_keeps ?_
    | with_reducible refine State.vdmTxGo_keeps ?_
    | with_reducible refine State.armFrs_keeps ?_
    | with_reducible refine State.pdCtrl_keeps ?_
    | with_reducible refine State.pmemOp_keeps ?_
    | split

theorem State.railStateWritten_keeps {s : State} {n : Rail} {x : RegWr} (h_s : s.Inv) : (State.railStateWritten s n x).Inv := by
  unfold State.railStateWritten; try dsimp only
  repeat' first
    | with_reducible assumption
    | with_reducible refine State.writeRailState_keeps ?_
    | with_reducible refine ite_keeps ?_ ?_

theorem State.syncWritten_keeps {s : State} (h_s : s.Inv) : (State.syncWritten s).Inv := by
  unfold State.syncWritten; try dsimp only
  repeat' first
    | with_reducible assumption
    | with_reducible refine State.driveSync_keeps ?_
    | with_reducible refine State.advance_keeps ?_
    | with_reducible refine ite_keeps ?_ ?_

theorem State.seqEffect_keeps {s : State} {r : RegAt} {old : Word} {x : RegWr} (h_s : s.Inv) : (State.seqEffect s r old x).Inv := by
  unfold State.seqEffect; try dsimp only
  repeat' first
    | with_reducible assumption
    | with_reducible refine State.railStateWritten_keeps ?_
    | with_reducible refine State.clearSeqFault_keeps ?_
    | with_reducible refine State.syncWritten_keeps ?_
    | with_reducible refine State.retarget_keeps ?_
    | with_reducible refine ite_keeps ?_ ?_
    | split

theorem State.clearHpCnt_keeps {s : State} {h : HostId} (h_s : s.Inv) : (State.clearHpCnt s h).Inv := by
  unfold State.clearHpCnt; try dsimp only
  repeat' first
    | with_reducible assumption
    | with_reducible refine State.setReg_keeps ?_
    | with_reducible refine State.setFld_keeps ?_

theorem State.causeWritten_keeps {s : State} {g : Nat} {x : RegWr} (h_s : s.Inv) : (State.causeWritten s g x).Inv := by
  unfold State.causeWritten; try dsimp only
  repeat' first
    | with_reducible assumption
    | with_reducible refine State.setReg_keeps ?_

theorem State.hostEffect_keeps {s : State} {r : RegAt} {x : RegWr} (h_s : s.Inv) : (State.hostEffect s r x).Inv := by
  unfold State.hostEffect; try dsimp only
  repeat' first
    | with_reducible assumption
    | with_reducible refine State.causeWritten_keeps ?_
    | with_reducible refine State.clearHpCnt_keeps ?_
    | with_reducible refine State.setOwner_keeps ?_
    | with_reducible refine ite_keeps ?_ ?_
    | split

theorem State.tcvCtrl_keeps {s : State} {old : Word} {x : RegWr} (h_s : s.Inv) : (State.tcvCtrl s old x).Inv := by
  unfold State.tcvCtrl; try dsimp only
  repeat' first
    | with_reducible assumption
    | with_reducible refine State.ctrlWritten_keeps ?_
    | with_reducible refine State.setBit_keeps ?_
    | with_reducible refine ite_keeps ?_ ?_

theorem State.tcvEffect_keeps {s : State} {r : RegAt} {old : Word} {x : RegWr} {busy : Bool} (h_s : s.Inv) : (State.tcvEffect s r old x busy).Inv := by
  unfold State.tcvEffect; try dsimp only
  repeat' first
    | with_reducible assumption
    | with_reducible refine State.beginWaiting_keeps ?_
    | with_reducible refine State.capThrottle_keeps ?_
    | with_reducible refine State.clearAvg_keeps ?_
    | with_reducible refine State.syscalGo_keeps ?_
    | with_reducible refine State.urgentGo_keeps ?_
    | with_reducible refine State.tcvCtrl_keeps ?_
    | with_reducible refine State.modTcv_keeps ?_
    | with_reducible refine State.thmGo_keeps ?_
    | with_reducible refine ite_keeps ?_ ?_
    | split

theorem State.kprEffect_keeps {s : State} {n : RegName} {x : RegWr} (h_s : s.Inv) : (State.kprEffect s n x).Inv := by
  unfold State.kprEffect; try dsimp only
  repeat' first
    | with_reducible assumption
    | with_reducible refine State.modPower_keeps ?_
    | with_reducible refine State.takeSnap_keeps ?_
    | with_reducible refine State.setBit_keeps ?_
    | with_reducible refine State.kprGo_keeps ?_
    | with_reducible refine State.flush_keeps ?_
    | with_reducible refine ite_keeps ?_ ?_
    | split

theorem State.coreEffect_keeps {s : State} {r : RegAt} {x : RegWr} (h_s : s.Inv) : (State.coreEffect s r x).Inv := by
  unfold State.coreEffect; try dsimp only
  repeat' first
    | with_reducible assumption
    | with_reducible refine State.modCore_same_keeps ?_ ?_ ?_ ?_
    | with_reducible refine State.setFld_keeps ?_
    | with_reducible refine ite_keeps ?_ ?_
    | with_reducible rfl
    | split

theorem State.liveEffect_keeps {s : State} {r : RegAt} {x : RegWr} (h_s : s.Inv) : (State.liveEffect s r x).Inv := by
  unfold State.liveEffect; try dsimp only
  repeat' first
    | with_reducible assumption
    | with_reducible refine State.commitTrims_keeps ?_
    | with_reducible refine State.stageWord_keeps ?_
    | with_reducible refine State.hoWritten_keeps ?_
    | with_reducible refine State.retireGo_keeps ?_
    | with_reducible refine State.retrimGo_keeps ?_
    | with_reducible refine State.setBit_keeps ?_
    | with_reducible refine ite_keeps ?_ ?_
    | split

theorem State.testEffect_keeps {s : State} {r : RegAt} {a : Nat} {old : Word} {x : RegWr} (h_s : s.Inv) : (State.testEffect s r a old x).Inv := by
  unfold State.testEffect; try dsimp only
  repeat' first
    | with_reducible assumption
    | with_reducible refine State.logUse_keeps ?_
    | with_reducible refine State.tstKey_keeps ?_
    | with_reducible refine State.logClr_keeps ?_
    | with_reducible refine State.relock_keeps ?_
    | with_reducible refine State.inject_keeps ?_
    | with_reducible refine ite_keeps ?_ ?_
    | split

theorem State.regEffect_keeps {s0 s : State} {r : RegAt} {a : Nat} {x : RegWr} (h_s0 : s0.Inv) (h_s : s.Inv) : (State.regEffect s0 s r a x).Inv := by
  unfold State.regEffect; try dsimp only
  repeat' first
    | with_reducible assumption
    | with_reducible refine State.engineEffect_keeps ?_
    | with_reducible refine State.noteSettled_keeps ?_ ?_
    | with_reducible refine State.coreEffect_keeps ?_
    | with_reducible refine State.linkEffect_keeps ?_
    | with_reducible refine State.loopEffect_keeps ?_
    | with_reducible refine State.protEffect_keeps ?_
    | with_reducible refine State.hostEffect_keeps ?_
    | with_reducible refine State.liveEffect_keeps ?_
    | with_reducible refine State.testEffect_keeps ?_
    | with_reducible refine State.seqEffect_keeps ?_
    | with_reducible refine State.kprEffect_keeps ?_
    | with_reducible refine State.tcvEffect_keeps ?_
    | with_reducible refine State.sysEffect_keeps ?_
    | with_reducible refine State.pdEffect_keeps ?_
    | split

theorem State.regWrite_keeps {s : State} {a : Nat} {x : RegWr} (h_s : s.Inv) : (State.regWrite s a x).state.Inv := by
  unfold State.regWrite; try dsimp only
  repeat' first
    | with_reducible assumption
    | with_reducible refine State.regEffect_keeps ?_ ?_
    | with_reducible refine State.storeWord_keeps ?_
    | with_reducible refine State.mbxSend_keeps ?_
    | with_reducible refine State.mbxAck_keeps ?_
    | split

end Sys2Proof.Machine
end

