-- ==== Sys2Proof/Laws/Keeps6.lean ====
section
/-!
SUPPORT. What the operations of exceptions, host transactions, instructions, and what every command ends with keep: the invariant of the state, one lemma for each.
Each proof opens the operation and cites the lemmas of what it calls.
-/

set_option linter.unusedTactic false
set_option linter.unreachableTactic false

namespace Sys2Proof.Machine

/-! ### Except -/

theorem State.appletFault_keeps {s : State} {k : Core} {e : Exc} (h_s : s.Inv) : (State.appletFault s k e).Inv := by
  unfold State.appletFault; try dsimp only
  repeat' first
    | with_reducible assumption
    | with_reducible refine State.setFld_keeps ?_
    | with_reducible refine State.satInc_keeps ?_
    | with_reducible refine State.raise_keeps ?_
    | with_reducible refine ite_keeps ?_ ?_

theorem setBitW_lt {w : Word} {i : Nat} {b : Bool} (h : w.toNat < 128) (hi : i < 7) : (setBitW w i b).toNat < 128 := by
  unfold setBitW putBits
  rw [BitVec.toNat_or]
  refine Nat.or_lt_two_pow (n := 7) ?_ ?_
  · rw [BitVec.toNat_and]
    exact Nat.lt_of_le_of_lt Nat.and_le_left h
  · have hb : b.toNat % 2 ^ 1 ≤ 1 := by cases b <;> decide
    have : (b.toNat % 2 ^ 1) <<< i < 128 := by
      rw [Nat.shiftLeft_eq]
      calc (b.toNat % 2 ^ 1) * 2 ^ i ≤ 1 * 2 ^ i := Nat.mul_le_mul_right _ hb
        _ ≤ 2 ^ 6 := by rw [one_mul]; exact Nat.pow_le_pow_right (by decide) (by omega)
        _ < 128 := by decide
    rw [BitVec.toNat_ofNat, Nat.mod_eq_of_lt (by omega)]
    exact this

theorem CoreState.enter_ok {c : CoreState} {e : Exc} {epc eval : Word} (h : c.Ok) : (c.enter e epc eval).Ok :=
  ⟨h.bits, h.w0, setBitW_lt (setBitW_lt (setBitW_lt h.psr (by decide)) (by decide)) (by decide)⟩

theorem CoreState.eret_ok {c : CoreState} (h : c.Ok) : (CoreState.eret c).Ok := by
  refine ⟨h.bits, h.w0, ?_⟩
  show (c.spsr &&& 0x7F#32).toNat < 128
  rw [BitVec.toNat_and]
  exact Nat.lt_of_le_of_lt Nat.and_le_right (by decide)

theorem State.exception_keeps {s : State} {k : Core} {e : Exc} {epc eval : Word} (h_s : s.Inv) :
    (State.exception s k e epc eval).Inv := by
  unfold State.exception
  refine ite_keeps (State.coreFault_keeps h_s) (State.spend_keeps ?_)
  have h := State.appletFault_keeps (k := k) (e := e) h_s
  exact State.modCore_keeps h (CoreState.enter_ok (h.cores k))

theorem State.wakeCore_keeps {s : State} {k : Core} (h_s : s.Inv) : (State.wakeCore s k).Inv := by
  unfold State.wakeCore; try dsimp only
  repeat' first
    | with_reducible assumption
    | with_reducible refine State.setFld_keeps ?_
    | with_reducible refine ite_keeps ?_ ?_

theorem State.takeBudget_keeps {s : State} {k : Core} (h_s : s.Inv) : (State.takeBudget s k).Inv := by
  unfold State.takeBudget; try dsimp only
  repeat' first
    | with_reducible assumption
    | with_reducible refine State.exception_keeps ?_
    | with_reducible refine ite_keeps ?_ ?_

theorem State.takeEvent_keeps {s : State} {k : Core} (h_s : s.Inv) : (State.takeEvent s k).Inv := by
  unfold State.takeEvent; try dsimp only
  repeat' first
    | with_reducible assumption
    | with_reducible refine State.exception_keeps ?_
    | with_reducible refine ite_keeps ?_ ?_

theorem State.endApplet_keeps {s : State} (h_s : s.Inv) : (State.endApplet s).Inv := by
  unfold State.endApplet; try dsimp only
  repeat' first
    | with_reducible assumption
    | with_reducible refine ite_keeps ?_ ?_
    | exact State.Inv.of_same h_s rfl rfl rfl rfl rfl rfl rfl rfl rfl

theorem State.boundary_keeps {s : State} {k : Core} (h_s : s.Inv) : (State.boundary s k).Inv := by
  unfold State.boundary; try dsimp only
  repeat' first
    | with_reducible assumption
    | with_reducible refine State.takeBudget_keeps ?_
    | with_reducible refine State.takeEvent_keeps ?_
    | with_reducible refine State.wakeCore_keeps ?_

theorem State.settleCores_keeps {s : State} (h_s : s.Inv) : (State.settleCores s).Inv := by
  unfold State.settleCores; try dsimp only
  repeat' first
    | with_reducible assumption
    | with_reducible refine State.endApplet_keeps ?_
    | with_reducible refine State.boundary_keeps ?_
    | with_reducible refine State.forAll_keeps (fun _ _ _ => ?_) ?_

theorem State.busError_keeps {s : State} {k : Core} {a : Nat} (h_s : s.Inv) : (State.busError s k a).Inv := by
  unfold State.busError; try dsimp only
  repeat' first
    | with_reducible assumption
    | with_reducible refine State.exception_keeps ?_

/-! ### Writes -/

theorem State.setCml_keeps {s : State} {h : HostId} {i : Nat} (h_s : s.Inv) : (State.setCml s h i).Inv := by
  unfold State.setCml; try dsimp only
  repeat' first
    | with_reducible assumption
    | with_reducible refine State.setFld_keeps ?_

theorem State.hostCode_keeps {s : State} {h : HostId} {code : Nat} (h_s : s.Inv) : (State.hostCode s h code).Inv := by
  unfold State.hostCode; try dsimp only
  repeat' first
    | with_reducible assumption
    | with_reducible refine State.setFld_keeps ?_
    | with_reducible refine State.setCml_keeps ?_
    | with_reducible refine ite_keeps ?_ ?_

theorem State.met_keeps {s : State} {who : Writer} {a code : Nat} (h_s : s.Inv) : (State.met s who a code).Inv := by
  unfold State.met; try dsimp only
  repeat' first
    | with_reducible assumption
    | with_reducible refine State.busError_keeps ?_
    | with_reducible refine State.hostCode_keeps ?_
    | with_reducible refine ite_keeps ?_ ?_
    | split

theorem State.writeBy_keeps {s : State} {a : Nat} {x : RegWr} (h_s : s.Inv) : (State.writeBy s a x).Inv := by
  unfold State.writeBy; try dsimp only
  repeat' first
    | with_reducible assumption
    | with_reducible refine State.regWrite_keeps ?_
    | with_reducible refine State.met_keeps ?_

theorem State.nackDown_keeps {s : State} {who : Writer} {a : Nat} {x : RegWr} (h_s : s.Inv) : (State.nackDown s who a x).Inv := by
  unfold State.nackDown; try dsimp only
  repeat' first
    | with_reducible assumption
    | with_reducible refine State.emit_keeps ?_
    | with_reducible refine ite_keeps ?_ ?_
    | split

/-! ### Hosts -/

theorem State.refuseCommand_keeps {s : State} {h : HostId} (h_s : s.Inv) : (State.refuseCommand s h).Inv := by
  unfold State.refuseCommand; try dsimp only
  repeat' first
    | with_reducible assumption
    | with_reducible refine State.setCml_keeps ?_
    | with_reducible refine State.emit_keeps ?_

/-- A command of a port keeps the invariant from a state that has it. -/

structure HostCmd.Keeps (c : HostCmd) : Prop where
  write : ∀ (s : State) bs, s.Inv → (c.write s bs).1.Inv
  read : ∀ (s : State) f, s.Inv → c.read = some f → (f s).state.Inv

theorem State.commitWrite_keeps {s : State} {h : HostId} {t : Txn} {c : HostCmd} {bs : List Byte} (h_s : s.Inv)
    (hc : c.Keeps) : (State.commitWrite s h t c bs).Inv := by
  unfold State.commitWrite
  refine ite_keeps (State.hostCode_keeps (State.setCml_keeps (State.satInc_keeps h_s)))
    (ite_keeps (State.hostCode_keeps h_s) (State.hostCode_keeps (hc.write s bs h_s)))

theorem State.stretchOut_keeps {s : State} {h : HostId} {read : Bool} (h_s : s.Inv) : (State.stretchOut s h read).Inv := by
  unfold State.stretchOut; try dsimp only
  repeat' first
    | with_reducible assumption
    | with_reducible refine State.hostCode_keeps ?_
    | with_reducible refine State.satInc_keeps ?_
    | with_reducible refine State.setCml_keeps ?_
    | with_reducible refine State.raise_keeps ?_
    | with_reducible refine State.emit_keeps ?_
    | with_reducible refine ite_keeps ?_ ?_

theorem State.readCommand_keeps {s : State} {h : HostId} {t : Txn} {c : HostCmd} (h_s : s.Inv) (hc : c.Keeps) :
    (State.readCommand s h t c).Inv := by
  unfold State.readCommand
  refine ite_keeps (State.stretchOut_keeps h_s) ?_
  split
  · exact State.hostCode_keeps (State.emit_keeps (hc.read s _ h_s ‹_›))
  · exact State.hostCode_keeps h_s

theorem State.transact_keeps {s : State} {h : HostId} {t : Txn} {c : HostCmd} (h_s : s.Inv) (hc : c.Keeps) :
    (State.transact s h t c).Inv := by
  unfold State.transact
  refine ite_keeps h_s (ite_keeps (State.emit_keeps h_s) (ite_keeps (State.refuseCommand_keeps h_s) ?_))
  split
  · exact State.commitWrite_keeps h_s hc
  · exact State.readCommand_keeps h_s hc

theorem State.pageWrite_keeps {s : State} {h : HostId} {rails : Bool} {f : Loop → State × Nat} (h_s : s.Inv)
    (hf : ∀ l, (f l).1.Inv) : (State.pageWrite s h rails f).1.Inv := by
  unfold State.pageWrite
  dsimp only
  split
  · exact h_s
  · split
    · exact h_s
    · exact hf _

theorem State.hostField_keeps {s : State} {h : HostId} {f : Fld} {v : Nat} (h_s : s.Inv) : (State.hostField s h f v).1.Inv := by
  unfold State.hostField; try dsimp only
  repeat' first
    | with_reducible assumption
    | with_reducible refine State.regWrite_keeps ?_

theorem State.hostField_keeps_eq {s : State} {h : HostId} {f : Fld} {v : Nat} {r₁ : State} {r₂ : Nat} (h_s : s.Inv) (e : State.hostField s h f v = (r₁, r₂)) : r₁.Inv := by
  have := State.hostField_keeps (s := s) (h := h) (f := f) (v := v) h_s; rw [e] at this; exact this

theorem State.hostReadFld_keeps {s : State} {h : HostId} {f : Fld} {g : Nat → Nat} (h_s : s.Inv) : (State.hostReadFld s h f g).state.Inv := by
  unfold State.hostReadFld; try dsimp only
  repeat' first
    | with_reducible assumption
    | with_reducible refine State.readReg_keeps ?_

theorem State.hostReadRail_keeps {s : State} {h : HostId} {f : Nat → Fld} {g : Nat → Nat} (h_s : s.Inv) : (State.hostReadRail s h f g).state.Inv := by
  unfold State.hostReadRail; try dsimp only
  repeat' first
    | with_reducible assumption
    | with_reducible refine State.hostReadFld_keeps ?_
    | with_reducible refine State.fresh_keeps ?_
    | split

theorem State.immediateOff_keeps {s : State} {l : Loop} (h_s : s.Inv) : (State.immediateOff s l).Inv := by
  unfold State.immediateOff; try dsimp only
  repeat' first
    | with_reducible assumption
    | with_reducible refine State.loopMid_keeps ?_
    | with_reducible refine State.endHiccup_keeps ?_
    | with_reducible refine State.setLoopSt_keeps ?_
    | with_reducible refine State.stopMid_keeps ?_
    | with_reducible refine ite_keeps ?_ ?_

theorem State.operation_keeps {s : State} {l : Loop} {v : Nat} (h_s : s.Inv) : (State.operation s l v).1.Inv := by
  unfold State.operation; try dsimp only
  repeat' first
    | with_reducible assumption
    | with_reducible refine State.immediateOff_keeps ?_
    | with_reducible refine State.offCommand_keeps ?_
    | with_reducible refine State.onCommand_keeps ?_
    | split

theorem State.operation_keeps_eq {s : State} {l : Loop} {v : Nat} {r₁ : State} {r₂ : Nat} (h_s : s.Inv) (e : State.operation s l v = (r₁, r₂)) : r₁.Inv := by
  have := State.operation_keeps (s := s) (l := l) (v := v) h_s; rw [e] at this; exact this

theorem State.voutCommand_keeps {s : State} {h : HostId} {l : Loop} {n : Nat} (h_s : s.Inv) : (State.voutCommand s h l n).1.Inv := by
  unfold State.voutCommand; try dsimp only
  repeat' first
    | with_reducible assumption
    | with_reducible refine State.hostField_keeps ?_
    | with_reducible refine State.latchAll_keeps ?_
    | split

theorem State.voutCommand_keeps_eq {s : State} {h : HostId} {l : Loop} {n : Nat} {r₁ : State} {r₂ : Nat} (h_s : s.Inv) (e : State.voutCommand s h l n = (r₁, r₂)) : r₁.Inv := by
  have := State.voutCommand_keeps (s := s) (h := h) (l := l) (n := n) h_s; rw [e] at this; exact this

theorem State.ocLimit_keeps {s : State} {h : HostId} {l : Loop} {x : Rat} (h_s : s.Inv) : (State.ocLimit s h l x).1.Inv := by
  unfold State.ocLimit; try dsimp only
  repeat' first
    | with_reducible assumption
    | with_reducible refine State.hostField_keeps ?_
    | split

theorem State.ocLimit_keeps_eq {s : State} {h : HostId} {l : Loop} {x : Rat} {r₁ : State} {r₂ : Nat} (h_s : s.Inv) (e : State.ocLimit s h l x = (r₁, r₂)) : r₁.Inv := by
  have := State.ocLimit_keeps (s := s) (h := h) (l := l) (x := x) h_s; rw [e] at this; exact this

theorem State.blockWrite_keeps {s : State} {n : Nat} {bs : List Byte} {f : Nat → State × Nat} (h_s : s.Inv)
    (hf : ∀ a, (f a).1.Inv) : (State.blockWrite s n bs f).1.Inv := by
  unfold State.blockWrite
  split
  · exact hf _
  · exact h_s

theorem State.hostReg_keeps {s : State} {a : Nat} {x : RegWr} (h_s : s.Inv) : (State.hostReg s a x).1.Inv := by
  unfold State.hostReg; try dsimp only
  repeat' first
    | with_reducible assumption
    | with_reducible refine State.regWrite_keeps ?_

theorem State.hostReg_keeps_eq {s : State} {a : Nat} {x : RegWr} {r₁ : State} {r₂ : Nat} (h_s : s.Inv) (e : State.hostReg s a x = (r₁, r₂)) : r₁.Inv := by
  have := State.hostReg_keeps (s := s) (a := a) (x := x) h_s; rw [e] at this; exact this

theorem State.regReadCmd_keeps {s : State} {h : HostId} (h_s : s.Inv) : (State.regReadCmd s h).state.Inv := by
  unfold State.regReadCmd; try dsimp only
  repeat' first
    | with_reducible assumption
    | with_reducible refine State.readReg_keeps ?_
    | with_reducible refine State.modHost_keeps ?_

theorem State.regTransact_keeps {s : State} {h : HostId} {t : Txn} {c : HostCmd} (h_s : s.Inv) (hc : c.Keeps) :
    (State.regTransact s h t c).Inv := by
  unfold State.regTransact
  exact ite_keeps (State.hostCode_keeps (State.emit_keeps (State.raise_keeps h_s))) (State.transact_keeps h_s hc)

theorem State.abandon_keeps {s : State} {h : HostId} (h_s : s.Inv) : (State.abandon s h).Inv := by
  unfold State.abandon; try dsimp only
  repeat' first
    | with_reducible assumption
    | with_reducible refine State.hostCode_keeps ?_
    | with_reducible refine State.satInc_keeps ?_
    | with_reducible refine State.raise_keeps ?_

theorem State.endNotify_keeps {s : State} {h : HostId} (h_s : s.Inv) : (State.endNotify s h).Inv := by
  unfold State.endNotify; try dsimp only
  repeat' first
    | with_reducible assumption
    | with_reducible refine State.modHost_keeps ?_

theorem State.notifyFails_keeps {s : State} {h : HostId} (h_s : s.Inv) : (State.notifyFails s h).Inv := by
  unfold State.notifyFails; try dsimp only
  repeat' first
    | with_reducible assumption
    | with_reducible refine State.endNotify_keeps ?_
    | with_reducible refine State.satInc_keeps ?_
    | with_reducible refine State.raise_keeps ?_

theorem State.notifyTry_keeps {s : State} {h : HostId} {view : BitVec 16} {e : NotifyEnd} (h_s : s.Inv) : (State.notifyTry s h view e).Inv := by
  unfold State.notifyTry; try dsimp only
  repeat' first
    | with_reducible assumption
    | with_reducible refine State.notifyFails_keeps ?_
    | with_reducible refine State.endNotify_keeps ?_
    | with_reducible refine State.modHost_keeps ?_
    | with_reducible refine State.satInc_keeps ?_
    | with_reducible refine State.setCml_keeps ?_
    | with_reducible refine State.raise_keeps ?_
    | with_reducible refine State.emit_keeps ?_
    | with_reducible refine ite_keeps ?_ ?_
    | split

theorem State.notifyRow_keeps {s : State} {h : HostId} {retry : Bool} {e : NotifyEnd} (h_s : s.Inv) : (State.notifyRow s h retry e).Inv := by
  unfold State.notifyRow; try dsimp only
  repeat' first
    | with_reducible assumption
    | with_reducible refine State.notifyTry_keeps ?_
    | with_reducible refine ite_keeps ?_ ?_
    | split

/-! ### Contain -/

theorem State.countMismatch_keeps {s : State} {bit : Nat} (h_s : s.Inv) : (State.countMismatch s bit).Inv := by
  unfold State.countMismatch; try dsimp only
  repeat' first
    | with_reducible assumption
    | with_reducible refine State.satInc_keeps ?_
    | with_reducible refine State.raise_keeps ?_

theorem State.loopSafe_keeps {s : State} {l : Loop} (h_s : s.Inv) : (State.loopSafe s l).Inv := by
  unfold State.loopSafe; try dsimp only
  repeat' first
    | with_reducible assumption
    | with_reducible refine State.faultSev_keeps ?_
    | with_reducible refine State.fault_keeps ?_
    | split

theorem State.scrubFail_keeps {s : State} {a : Nat} (h_s : s.Inv) : (State.scrubFail s a).Inv := by
  unfold State.scrubFail; try dsimp only
  repeat' first
    | with_reducible assumption
    | with_reducible refine State.setSramWord_keeps ?_
    | with_reducible refine State.contAddr_keeps ?_
    | with_reducible refine State.satInc_keeps ?_
    | with_reducible refine State.raise_keeps ?_
    | with_reducible refine ite_keeps ?_ ?_
    | split

theorem State.scrubPass_keeps {s : State} (h_s : s.Inv) : (State.scrubPass s).Inv := by
  unfold State.scrubPass; try dsimp only
  repeat' first
    | with_reducible assumption
    | with_reducible refine State.setFld_keeps ?_
    | with_reducible refine State.raise_keeps ?_

theorem State.scrub_keeps {s : State} {a : Nat} (h_s : s.Inv) : (State.scrub s a).Inv := by
  unfold State.scrub; try dsimp only
  repeat' first
    | with_reducible assumption
    | with_reducible refine State.scrubFail_keeps ?_
    | with_reducible refine State.scrubPass_keeps ?_
    | with_reducible refine ite_keeps ?_ ?_

theorem State.parityFails_keeps {s : State} {a : Nat} (h_s : s.Inv) : (State.parityFails s a).Inv := by
  unfold State.parityFails; try dsimp only
  repeat' first
    | with_reducible assumption
    | with_reducible refine State.handover_keeps ?_
    | with_reducible refine State.contAddr_keeps ?_
    | with_reducible refine State.raise_keeps ?_
    | split

/-! ### Services -/

theorem State.svcReturn_keeps {s : State} {code : Word} {value : Option Word} (h_s : s.Inv) : (State.svcReturn s code value).Inv := by
  unfold State.svcReturn; try dsimp only
  repeat' first
    | with_reducible assumption
    | with_reducible refine State.setW_keeps ?_
    | split

theorem State.svcRead_keeps {s : State} {a : Nat} (h_s : s.Inv) : (State.svcRead s a).Inv := by
  unfold State.svcRead; try dsimp only
  repeat' first
    | with_reducible assumption
    | with_reducible refine State.svcReturn_keeps ?_
    | with_reducible refine State.readReg_keeps ?_
    | with_reducible refine ite_keeps ?_ ?_
    | split

theorem State.svcWrite_keeps {s : State} {ok : Bool} {f : Fld} {v : Nat} (h_s : s.Inv) : (State.svcWrite s ok f v).Inv := by
  unfold State.svcWrite; try dsimp only
  repeat' first
    | with_reducible assumption
    | with_reducible refine State.svcReturn_keeps ?_
    | with_reducible refine State.regWrite_keeps ?_
    | with_reducible refine ite_keeps ?_ ?_

theorem State.svcSend_keeps {s : State} {n : Nat} {w : Word} (h_s : s.Inv) : (State.svcSend s n w).Inv := by
  unfold State.svcSend; try dsimp only
  repeat' first
    | with_reducible assumption
    | with_reducible refine State.svcReturn_keeps ?_
    | refine State.mbxSend_keeps_eq ?_ (by assumption)
    | with_reducible refine ite_keeps ?_ ?_
    | split

theorem State.svcTake_keeps {s : State} {n : Nat} (h_s : s.Inv) : (State.svcTake s n).Inv := by
  unfold State.svcTake; try dsimp only
  repeat' first
    | with_reducible assumption
    | with_reducible refine State.svcReturn_keeps ?_
    | refine State.mbxAck_keeps_eq ?_ (by assumption)
    | with_reducible refine ite_keeps ?_ ?_
    | split

theorem State.svcExit_keeps {s : State} (h_s : s.Inv) : (State.svcExit s).Inv := by
  have h2 : (((s.fresh 32).2.fresh 32).2).Inv := State.fresh_keeps (State.fresh_keeps h_s)
  have hp : ((s.fresh 32).1 &&& 0x2F#32).toNat < 128 := by
    rw [BitVec.toNat_and]; exact Nat.lt_of_le_of_lt Nat.and_le_right (by decide)
  have h3 := State.modCore_keeps (k := 3) (f := fun c =>
    { c with psr := (s.fresh 32).1 &&& 0x2F#32, pc := ((s.fresh 32).2.fresh 32).1 }) h2
    ⟨(h2.cores 3).bits, (h2.cores 3).w0, hp⟩
  exact h3.of_same rfl rfl rfl rfl rfl rfl rfl rfl rfl

theorem State.service_keeps {s : State} {num : Nat} (h_s : s.Inv) : (State.service s num).Inv := by
  unfold State.service; try dsimp only
  repeat' first
    | with_reducible assumption
    | with_reducible refine State.svcReturn_keeps ?_
    | with_reducible refine State.svcWrite_keeps ?_
    | with_reducible refine State.svcRead_keeps ?_
    | with_reducible refine State.svcSend_keeps ?_
    | with_reducible refine State.svcTake_keeps ?_
    | split

theorem State.served_keeps {s : State} {imm : BitVec 16} (h_s : s.Inv) : (State.served s imm).Inv := by
  unfold State.served
  refine ite_keeps (State.svcExit_keeps (State.exception_keeps h_s)) ?_
  have h := State.service_keeps (num := imm.toNat) (State.exception_keeps (k := 3) (e := .svc)
    (epc := (s.core 3).pc + 4) (eval := imm.setWidth 32) h_s)
  exact State.modCore_keeps h (CoreState.eret_ok (h.cores 3))

/-! ### Isa -/

/-- What an instruction comes to keeps the invariant. -/

def Ran.Keeps : Ran → Prop
  | .trap _ _ s => s.Inv
  | .go s _ _ => s.Inv

theorem State.finish_keeps {s : State} {k : Core} {r : Ran} (h : r.Keeps) : (State.finish s k r).Inv := by
  unfold State.finish
  split
  · exact State.exception_keeps h
  · exact ite_keeps (State.spend_keeps (State.modCore_same_keeps h rfl rfl rfl)) h

/-- A fetch keeps the invariant. -/

theorem State.fetch_stop_keeps {s t : State} {k : Core} (h_s : s.Inv) (e : s.fetch k = .stop t) : t.Inv := by
  unfold State.fetch State.fetchTrap at e
  dsimp only at e
  repeat' split at e
  all_goals first
    | (cases e; exact State.exception_keeps h_s)
    | (cases e; exact State.coreFault_keeps (State.sramRead_keeps h_s))
    | (cases e; exact State.exception_keeps (State.sramRead_keeps h_s))
    | cases e

theorem State.fetch_ok_keeps {s t : State} {k : Core} {n : Nat} (h_s : s.Inv) (e : s.fetch k = .ok n t) : t.Inv := by
  unfold State.fetch State.fetchTrap at e
  dsimp only at e
  repeat' split at e
  all_goals first
    | (cases e; exact h_s)
    | (cases e; exact State.sramRead_keeps h_s)
    | cases e

/-- Core k's instruction keeps the invariant, if what it does after the fetch does. -/

theorem State.instr_keeps {s : State} {k : Core} {f : State → Ran} (h_s : s.Inv) (hf : ∀ t, t.Inv → (f t).Keeps) :
    Answer.Keeps (s.instr k f) := by
  unfold State.instr
  refine State.onlyIf_keeps h_s fun _ => ?_
  split
  · exact State.fetch_stop_keeps h_s ‹_›
  · exact State.finish_keeps (hf _ (State.spend_keeps (State.fetch_ok_keeps h_s ‹_›)))

theorem State.setPsr_keeps {s : State} {k : Core} {f : Word → Word} (h_s : s.Inv)
    (hf : ∀ p : Word, p.toNat < 128 → (f p).toNat < 128) : (State.setPsr s k f).Inv :=
  State.modCore_keeps h_s ⟨(h_s.cores k).bits, (h_s.cores k).w0, hf _ (h_s.cores k).psr⟩

theorem withFlags_lt {p : Word} {z n c v : Bool} (h : p.toNat < 128) : (withFlags p z n c v).toNat < 128 :=
  setBitW_lt (setBitW_lt (setBitW_lt (setBitW_lt h (by decide)) (by decide)) (by decide)) (by decide)

theorem State.setSpaceBit_keeps {s : State} {k : Core} {n : Nat} {b : Bool} (h_s : s.Inv) :
    (State.setSpaceBit s k n b).Inv :=
  State.modCore_keeps h_s ⟨Mem.set_wf _ _ (h_s.cores k).bits, (h_s.cores k).w0, (h_s.cores k).psr⟩

theorem State.timerEnd_keeps {s : State} {k : Core} (h_s : s.Inv) : (State.timerEnd s k).Inv := by
  unfold State.timerEnd; try dsimp only
  repeat' first
    | with_reducible assumption
    | with_reducible refine State.setFld_keeps ?_

theorem psrMask_lt (f : Word) : ((f &&& 0x2F#32) ||| 0x40#32).toNat < 128 := by
  rw [BitVec.toNat_or]
  refine Nat.or_lt_two_pow (n := 7) ?_ (by decide)
  rw [BitVec.toNat_and]
  exact Nat.lt_of_le_of_lt Nat.and_le_right (by decide)

theorem State.invoke_keeps {s : State} {n : Fin 8} {event : Fin 4} {arg : Word} {entry : BitVec 16} {budget : BitVec 24}
    (h_s : s.Inv) : (State.invoke s n event arg entry budget).Inv := by
  unfold State.invoke
  split
  rename_i f s1 e
  have h1 : s1.Inv := by
    have := State.fresh_keeps (w := 32) h_s
    rw [e] at this; exact this
  extract_lets psr pc s2 s3
  have h2 : s2.Inv := by
    have h := State.setW_keeps (k := 3) (r := 2) (x := arg)
      (State.setW_keeps (k := 3) (r := 1) (x := BitVec.ofNat 32 event.val) h1)
    exact State.modCore_keeps h ⟨(h.cores 3).bits, (h.cores 3).w0, psrMask_lt f⟩
  clear_value s2
  have h3 : s3.Inv := State.setFld_keeps (State.setFld_keeps h2)
  clear_value s3
  exact h3.of_same rfl rfl rfl rfl rfl rfl rfl rfl rfl

theorem State.appletDue_keeps {s : State} {n : Fin 8} (h_s : s.Inv) : (State.appletDue s n).Inv := by
  unfold State.appletDue; try dsimp only
  repeat' first
    | with_reducible assumption
    | with_reducible refine ite_keeps ?_ ?_
    | exact State.Inv.of_same h_s rfl rfl rfl rfl rfl rfl rfl rfl rfl

/-! ### Watch -/

theorem State.settled_keeps {s t : State} (h_s : s.Inv) (h_t : t.Inv) : (State.settled s t).Inv := by
  unfold State.settled; try dsimp only
  repeat' first
    | with_reducible assumption
    | with_reducible refine State.settleDomains_keeps ?_
    | with_reducible refine State.settleInside_keeps ?_
    | with_reducible refine State.settleVerify_keeps ?_
    | with_reducible refine State.settleCores_keeps ?_
    | with_reducible refine State.settleStart_keeps ?_
    | with_reducible refine State.settlePorts_keeps ?_
    | with_reducible refine State.selectConv_keeps ?_
    | with_reducible refine State.noteChange_keeps ?_ ?_

/-! ### Tick -/

theorem State.tickClock_keeps {s : State} (h_s : s.Inv) : (State.tickClock s).Inv := by
  unfold State.tickClock; try dsimp only
  repeat' first
    | with_reducible assumption
    | with_reducible refine State.modPower_keeps ?_
    | with_reducible refine ite_keeps ?_ ?_

theorem State.tickTimer_keeps {s : State} {k : Core} (h_s : s.Inv) : (State.tickTimer s k).Inv := by
  unfold State.tickTimer; try dsimp only
  repeat' first
    | with_reducible assumption
    | with_reducible refine State.timerEnd_keeps ?_
    | with_reducible refine State.setFld_keeps ?_
    | with_reducible refine ite_keeps ?_ ?_

theorem State.tickDog_keeps {s : State} {k : Core} (h_s : s.Inv) : (State.tickDog s k).Inv := by
  unfold State.tickDog; try dsimp only
  repeat' first
    | with_reducible assumption
    | with_reducible refine State.coreFault_keeps ?_
    | with_reducible refine State.modCore_same_keeps ?_ ?_ ?_ ?_
    | with_reducible refine ite_keeps ?_ ?_
    | with_reducible rfl

theorem State.tick_keeps {s : State} (h_s : s.Inv) : (State.tick s).Inv := by
  unfold State.tick; try dsimp only
  repeat' first
    | with_reducible assumption
    | with_reducible refine State.tickClock_keeps ?_
    | with_reducible refine State.tickTimer_keeps ?_
    | with_reducible refine State.tickDog_keeps ?_
    | with_reducible refine State.forAll_keeps (fun _ _ _ => ?_) ?_

end Sys2Proof.Machine
end

