-- ==== Sys2Proof/Laws/Keeps7.lean ====
section
/-!
SUPPORT. What the answers that many rows share keep: writes of a row, frames, PD messages, tenancy, re-trims, and the forms
of an instruction.
-/

namespace Sys2Proof.Machine

theorem Answer.watch_keeps {s : State} {a : Answer} (h : s.Inv) (ha : Answer.Keeps a) : Answer.Keeps (s.watch a) := by
  unfold State.watch
  split
  · exact Answer.keeps_next (State.settled_keeps h (ha _ rfl))
  · intro t e; cases e
  · intro t e; cases e

/-! ### Writes -/

theorem State.rowWrite_keeps {s : State} {a : Nat} {x : RegWr} (h : s.Inv) : Answer.Keeps (s.rowWrite a x) :=
  State.onlyIf_keeps h fun _ => State.writeBy_keeps h

theorem State.rowField_keeps {s : State} {who : Writer} {f : Fld} {v : Nat} (h : s.Inv) :
    Answer.Keeps (s.rowField who f v) := State.rowWrite_keeps h

theorem State.rowEffect_keeps {s : State} {who : Writer} {f : Fld} {v : Nat} {g : State → State} (h : s.Inv)
    (hg : ∀ t, t.Inv → (g t).Inv) : Answer.Keeps (s.rowEffect who f v g) := by
  refine State.onlyIf_keeps h fun _ => ?_
  split
  · exact State.met_keeps (hg _ (State.mendReg_keeps h))
  · exact State.met_keeps h

theorem State.pmemRow_keeps {s : State} {who : Writer} {op idx : Nat} (h : s.Inv) : Answer.Keeps (s.pmemRow who op idx) :=
  State.rowWrite_keeps h

theorem State.syscalRow_keeps {s : State} {who : Writer} {n : Fin 32} {step : Nat} {key : Byte} (h : s.Inv) :
    Answer.Keeps (s.syscalRow who n step key) := State.rowWrite_keeps h

theorem State.kprRow_keeps {s : State} {who : Writer} {op : Nat} {key : Byte} (h : s.Inv) :
    Answer.Keeps (s.kprRow who op key) := State.rowWrite_keeps h

/-! ### Frames, messages, tenancy and re-trims -/

theorem State.linkFrame_keeps {s : State} {v : Port} {cmd : Nat} {f : LinkFrame} (h : s.Inv) :
    Answer.Keeps (s.linkFrame v cmd f) := State.onlyIf_keeps h fun _ => State.linkReceive_keeps h

theorem State.onMsg_keeps {s : State} {p : Port} {f : PdType → Bool} {act : PdMsg → State → State} (h : s.Inv)
    (hact : ∀ m t, t.Inv → (act m t).Inv) : Answer.Keeps (s.onMsg p f act) := by
  unfold State.onMsg
  split
  · exact Answer.keeps_next (hact _ _ (State.takeMsg_keeps h ‹_›))
  · exact Answer.keeps_next h

theorem State.tenancyRow_keeps {s : State} {k : HostId} {secure : Bool} {op : Nat} (h : s.Inv) :
    Answer.Keeps (s.tenancyRow k secure op) := by
  unfold State.tenancyRow
  exact State.onlyIf_keeps h fun _ => State.tenancy__keeps h

theorem State.onRetrim_keeps {s : State} {steps : List RetrimStep} {f : Retrim → State → State} (h : s.Inv)
    (hf : ∀ r t, t.Inv → (f r t).Inv) : Answer.Keeps (s.onRetrim steps f) := by
  unfold State.onRetrim
  split
  · exact State.onlyIf_keeps h fun _ => hf _ _ h
  · exact Answer.keeps_next h

/-! ### Commands of the host ports -/

theorem readOnly_keeps {code : Nat} {f : State → HostRead} (hf : ∀ s, s.Inv → (f s).state.Inv) : (readOnly code f).Keeps :=
  ⟨fun _ _ h => h, fun s g h e => by cases e; exact hf s h⟩

theorem readByte_keeps {code : Nat} {f : State → Nat} : (readByte code f).Keeps := readOnly_keeps fun _ h => h
theorem readWord_keeps {code : Nat} {f : State → Nat} : (readWord code f).Keeps := readOnly_keeps fun _ h => h
theorem readBlock_keeps {code : Nat} {bs : List Byte} : (readBlock code bs).Keeps := readOnly_keeps fun _ h => h

theorem cmdPage_keeps {h : HostId} : (cmdPage h).Keeps :=
  ⟨fun s bs hs => by dsimp only [cmdPage]; split <;> [exact hs; exact State.setFld_keeps hs],
   fun s f hs e => by cases e; exact hs⟩

theorem cmdOperation_keeps {h : HostId} : (cmdOperation h).Keeps :=
  ⟨fun _ _ hs => State.pageWrite_keeps hs fun _ => State.operation_keeps hs, fun s f hs e => by cases e; exact hs⟩

theorem cmdOnOffConfig_keeps {h : HostId} : (cmdOnOffConfig h).Keeps :=
  ⟨fun _ _ hs => State.pageWrite_keeps hs fun _ => hs, fun s f hs e => by cases e; exact hs⟩

theorem cmdClearFaults_keeps {h : HostId} : (cmdClearFaults h).Keeps :=
  ⟨fun _ _ hs => State.setFld_keeps (State.setReg_keeps hs), fun s f hs e => by cases e⟩

theorem cmdVoutCommand_keeps {h : HostId} : (cmdVoutCommand h).Keeps := by
  refine ⟨fun _ _ hs => State.pageWrite_keeps hs fun _ => State.voutCommand_keeps hs, fun s f hs e => ?_⟩
  cases e
  dsimp only
  split <;> exact State.hostReadFld_keeps hs

theorem cmdVoutMax_keeps {h : HostId} : (cmdVoutMax h).Keeps :=
  ⟨fun _ _ hs => State.pageWrite_keeps hs fun _ => State.hostField_keeps hs,
   fun s f hs e => by cases e; exact State.hostReadFld_keeps hs⟩

theorem cmdVoutTransitionRate_keeps {h : HostId} : (cmdVoutTransitionRate h).Keeps :=
  ⟨fun _ _ hs => State.pageWrite_keeps hs fun _ => State.hostField_keeps hs,
   fun s f hs e => by cases e; exact State.hostReadRail_keeps hs⟩

theorem cmdIoutOcFaultLimit_keeps {h : HostId} : (cmdIoutOcFaultLimit h).Keeps :=
  ⟨fun _ _ hs => State.pageWrite_keeps hs fun _ => State.ocLimit_keeps hs,
   fun s f hs e => by cases e; exact State.hostReadRail_keeps hs⟩

theorem cmdRegWrite_keeps {h : HostId} : (cmdRegWrite h).Keeps :=
  ⟨fun _ _ hs => State.blockWrite_keeps hs fun _ => State.hostReg_keeps hs, fun s f hs e => by cases e⟩

theorem cmdRegPtr_keeps {h : HostId} : (cmdRegPtr h).Keeps :=
  ⟨fun _ _ hs => State.blockWrite_keeps hs fun _ => by dsimp only; exact State.modHost_keeps hs, fun s f hs e => by cases e⟩

theorem cmdRegRead_keeps {h : HostId} : (cmdRegRead h).Keeps := readOnly_keeps fun _ hs => State.regReadCmd_keeps hs

theorem cmdRegMaskwrite_keeps {h : HostId} : (cmdRegMaskwrite h).Keeps :=
  ⟨fun _ _ hs => State.blockWrite_keeps hs fun _ => State.hostReg_keeps hs, fun s f hs e => by cases e⟩

theorem cmdRegResult_keeps {h : HostId} : (cmdRegResult h).Keeps := readWord_keeps

/-! ### Instructions -/

theorem Ran.go_keeps {t : State} {pc : Word} {n : Nat} (h : t.Inv) : (Ran.go t pc n).Keeps := h

theorem Ran.trap_keeps {t : State} {e : Exc} {v : Word} (h : t.Inv) : (Ran.trap e v t).Keeps := h

theorem State.appletRefuses_keeps {s : State} (h : s.Inv) : s.appletRefuses.Keeps := State.fresh_keeps (w := 32) h

theorem State.compute_keeps {s : State} {k : Core} {d : Fin 16} {f : State → Word} (h : s.Inv) :
    Answer.Keeps (s.compute k d f) := State.instr_keeps h fun _ ht => State.setW_keeps ht

theorem State.alu_keeps {s : State} {k : Core} {d a b : Fin 16} {f : Word → Word → Word} (h : s.Inv) :
    Answer.Keeps (s.alu k d a b f) := State.compute_keeps h

theorem State.alu1_keeps {s : State} {k : Core} {d a : Fin 16} {f : Word → Word} (h : s.Inv) :
    Answer.Keeps (s.alu1 k d a f) := State.compute_keeps h

/-- What an access to memory comes to keeps the invariant. -/
def Access.Keeps : Access → Prop
  | .trap _ s => s.Inv
  | .done _ _ s => s.Inv

theorem State.loadAt_keeps {s : State} {k : Core} {a n : Nat} {glitch : Bool} (h : s.Inv) :
    (s.loadAt k a n glitch).Keeps := by
  unfold State.loadAt
  dsimp only
  repeat' split
  all_goals first
    | exact h
    | exact State.sramRead_keeps h
    | exact State.readReg_keeps h

theorem State.storeAt_keeps {s : State} {k : Core} {a n : Nat} {v : Word} (h : s.Inv) : (s.storeAt k a n v).Keeps := by
  unfold State.storeAt
  dsimp only
  repeat' split
  all_goals first
    | exact h
    | exact State.sramRead_keeps h
    | exact State.sramStore_keeps h
    | exact State.sramStore_keeps (State.sramRead_keeps h)
    | exact State.regWrite_keeps h
    | exact State.modCore_keeps h ⟨Mem.setBytes_wf _ _ (h.cores k).bits, (h.cores k).w0, (h.cores k).psr⟩

theorem State.loadRow_keeps {s : State} {k : Core} {rd ra : Fin 16} {imm : BitVec 18} {n : Nat} {glitch : Bool}
    {g : Word → Word} (h : s.Inv) : Answer.Keeps (s.loadRow k rd ra imm n glitch g) := by
  refine State.instr_keeps h fun t ht => ?_
  have ha := State.loadAt_keeps (k := k) (a := (t.effAddr k ra imm).toNat) (n := n) (glitch := glitch) ht
  dsimp only
  split <;> rename_i e <;> rw [e] at ha
  · exact ha
  · exact State.setW_keeps ha

theorem State.storeRow_keeps {s : State} {k : Core} {rd ra : Fin 16} {imm : BitVec 18} {n : Nat} (h : s.Inv) :
    Answer.Keeps (s.storeRow k rd ra imm n) := by
  refine State.instr_keeps h fun t ht => ?_
  have ha := State.storeAt_keeps (k := k) (a := (t.effAddr k ra imm).toNat) (n := n) (v := t.wreg k rd) ht
  dsimp only
  split <;> rename_i e <;> rw [e] at ha
  · exact ha
  · exact ha

theorem State.bitRow_keeps {s : State} {k : Core} {num : State → Nat} {f : State → Nat → Ran} (h : s.Inv)
    (hf : ∀ t n, t.Inv → (f t n).Keeps) : Answer.Keeps (s.bitRow k num f) := by
  refine State.instr_keeps h fun t ht => ?_
  split
  · exact ht
  · exact hf t _ ht

theorem State.bitSet_keeps {s : State} {k : Core} {num : State → Nat} {f : Bool → Bool} (h : s.Inv) :
    Answer.Keeps (s.bitSet k num f) := State.bitRow_keeps h fun _ _ ht => State.setSpaceBit_keeps ht

theorem State.bitTest_keeps {s : State} {k : Core} {num : State → Nat} (h : s.Inv) : Answer.Keeps (s.bitTest k num) :=
  State.bitRow_keeps h fun _ _ ht => State.setPsr_keeps ht fun _ hp => setBitW_lt hp (by decide)

theorem State.branchIf_keeps {s : State} {k : Core} {b : Bool} {off : Int} (h : s.Inv) : (s.branchIf k b off).Keeps := by
  unfold State.branchIf
  split
  · exact h
  · exact h

theorem State.mulRow_keeps {s : State} {k : Core} {kind : MulKind} {ra rb : Fin 16} (h : s.Inv) :
    Answer.Keeps (s.mulRow k kind ra rb) := State.instr_keeps h fun _ ht => State.modCore_same_keeps ht rfl rfl rfl

/-- A control register takes a word. -/
theorem CoreState.setCreg_ok {c : CoreState} {n : Nat} {w : Word} (h : c.Ok) : (c.setCreg n w).Ok := by
  unfold CoreState.setCreg
  split
  · refine ⟨h.bits, h.w0, ?_⟩
    show ((c.psr &&& 0x50#32) ||| (w &&& 0x2F#32)).toNat < 128
    rw [BitVec.toNat_or]
    refine Nat.or_lt_two_pow (n := 7) ?_ ?_ <;> rw [BitVec.toNat_and]
    · exact Nat.lt_of_le_of_lt Nat.and_le_right (by decide)
    · exact Nat.lt_of_le_of_lt Nat.and_le_right (by decide)
  all_goals exact ⟨h.bits, h.w0, h.psr⟩

end Sys2Proof.Machine
end

