-- ==== Sys2Proof/Laws/State.lean ====
section
/-!
SUPPORT. What each named update of the state leaves and gives, one lemma for each field, true by definition.
-/

namespace Sys2Proof.Machine

variable (s : State)

/-! ### setReg -/

@[simp] theorem State.setReg_pending (a : Nat) (w : Word) : (s.setReg a w).pending = s.pending := rfl
@[simp] theorem State.setReg_act (a : Nat) (w : Word) : (s.setReg a w).act = s.act := rfl
@[simp] theorem State.setReg_sram (a : Nat) (w : Word) : (s.setReg a w).sram = s.sram := rfl
@[simp] theorem State.setReg_sramBad (a : Nat) (w : Word) : (s.setReg a w).sramBad = s.sramBad := rfl
@[simp] theorem State.setReg_out (a : Nat) (w : Word) : (s.setReg a w).out = s.out := rfl
@[simp] theorem State.setReg_freeCtr (a : Nat) (w : Word) : (s.setReg a w).freeCtr = s.freeCtr := rfl
@[simp] theorem State.setReg_power (a : Nat) (w : Word) : (s.setReg a w).power = s.power := rfl
@[simp] theorem State.setReg_boot (a : Nat) (w : Word) : (s.setReg a w).boot = s.boot := rfl
@[simp] theorem State.setReg_engine (a : Nat) (w : Word) : (s.setReg a w).engine = s.engine := rfl
@[simp] theorem State.setReg_chans (a : Nat) (w : Word) : (s.setReg a w).chans = s.chans := rfl
@[simp] theorem State.setReg_loops (a : Nat) (w : Word) : (s.setReg a w).loops = s.loops := rfl
@[simp] theorem State.setReg_kpr (a : Nat) (w : Word) : (s.setReg a w).kpr = s.kpr := rfl
@[simp] theorem State.setReg_recorder (a : Nat) (w : Word) : (s.setReg a w).recorder = s.recorder := rfl
@[simp] theorem State.setReg_ports (a : Nat) (w : Word) : (s.setReg a w).ports = s.ports := rfl
@[simp] theorem State.setReg_paths (a : Nat) (w : Word) : (s.setReg a w).paths = s.paths := rfl
@[simp] theorem State.setReg_pmem (a : Nat) (w : Word) : (s.setReg a w).pmem = s.pmem := rfl
@[simp] theorem State.setReg_dbOcLater (a : Nat) (w : Word) : (s.setReg a w).dbOcLater = s.dbOcLater := rfl
@[simp] theorem State.setReg_seq (a : Nat) (w : Word) : (s.setReg a w).seq = s.seq := rfl
@[simp] theorem State.setReg_links (a : Nat) (w : Word) : (s.setReg a w).links = s.links := rfl
@[simp] theorem State.setReg_hosts (a : Nat) (w : Word) : (s.setReg a w).hosts = s.hosts := rfl
@[simp] theorem State.setReg_tenancy (a : Nat) (w : Word) : (s.setReg a w).tenancy = s.tenancy := rfl
@[simp] theorem State.setReg_tcv (a : Nat) (w : Word) : (s.setReg a w).tcv = s.tcv := rfl
@[simp] theorem State.setReg_thmBad (a : Nat) (w : Word) : (s.setReg a w).thmBad = s.thmBad := rfl
@[simp] theorem State.setReg_cores (a : Nat) (w : Word) : (s.setReg a w).cores = s.cores := rfl
@[simp] theorem State.setReg_live (a : Nat) (w : Word) : (s.setReg a w).live = s.live := rfl
@[simp] theorem State.setReg_tst (a : Nat) (w : Word) : (s.setReg a w).tst = s.tst := rfl
@[simp] theorem State.setReg_regBad (a : Nat) (w : Word) : (s.setReg a w).regBad = s.regBad := rfl
@[simp] theorem State.setReg_applet (a : Nat) (w : Word) : (s.setReg a w).applet = s.applet := rfl
@[simp] theorem State.setReg_appletsDue (a : Nat) (w : Word) : (s.setReg a w).appletsDue = s.appletsDue := rfl
@[simp] theorem State.setReg_actReg_read (a : Nat) (w : Word) (x : Nat) : (s.setReg a w).actReg x = s.actReg x := rfl
@[simp] theorem State.setReg_afld_read (a : Nat) (w : Word) (x : Fld) : (s.setReg a w).afld x = s.afld x := rfl
@[simp] theorem State.setReg_chan_read (a : Nat) (w : Word) (x : Chan) : (s.setReg a w).chan x = s.chan x := rfl
@[simp] theorem State.setReg_loop_read (a : Nat) (w : Word) (x : Loop) : (s.setReg a w).loop x = s.loop x := rfl
@[simp] theorem State.setReg_port_read (a : Nat) (w : Word) (x : Port) : (s.setReg a w).port x = s.port x := rfl
@[simp] theorem State.setReg_path_read (a : Nat) (w : Word) (x : Port) : (s.setReg a w).path x = s.path x := rfl
@[simp] theorem State.setReg_core_read (a : Nat) (w : Word) (x : Core) : (s.setReg a w).core x = s.core x := rfl

/-! ### setFld -/

@[simp] theorem State.setFld_pending (f : Fld) (v : Nat) : (s.setFld f v).pending = s.pending := rfl
@[simp] theorem State.setFld_act (f : Fld) (v : Nat) : (s.setFld f v).act = s.act := rfl
@[simp] theorem State.setFld_sram (f : Fld) (v : Nat) : (s.setFld f v).sram = s.sram := rfl
@[simp] theorem State.setFld_sramBad (f : Fld) (v : Nat) : (s.setFld f v).sramBad = s.sramBad := rfl
@[simp] theorem State.setFld_out (f : Fld) (v : Nat) : (s.setFld f v).out = s.out := rfl
@[simp] theorem State.setFld_freeCtr (f : Fld) (v : Nat) : (s.setFld f v).freeCtr = s.freeCtr := rfl
@[simp] theorem State.setFld_power (f : Fld) (v : Nat) : (s.setFld f v).power = s.power := rfl
@[simp] theorem State.setFld_boot (f : Fld) (v : Nat) : (s.setFld f v).boot = s.boot := rfl
@[simp] theorem State.setFld_engine (f : Fld) (v : Nat) : (s.setFld f v).engine = s.engine := rfl
@[simp] theorem State.setFld_chans (f : Fld) (v : Nat) : (s.setFld f v).chans = s.chans := rfl
@[simp] theorem State.setFld_loops (f : Fld) (v : Nat) : (s.setFld f v).loops = s.loops := rfl
@[simp] theorem State.setFld_kpr (f : Fld) (v : Nat) : (s.setFld f v).kpr = s.kpr := rfl
@[simp] theorem State.setFld_recorder (f : Fld) (v : Nat) : (s.setFld f v).recorder = s.recorder := rfl
@[simp] theorem State.setFld_ports (f : Fld) (v : Nat) : (s.setFld f v).ports = s.ports := rfl
@[simp] theorem State.setFld_paths (f : Fld) (v : Nat) : (s.setFld f v).paths = s.paths := rfl
@[simp] theorem State.setFld_pmem (f : Fld) (v : Nat) : (s.setFld f v).pmem = s.pmem := rfl
@[simp] theorem State.setFld_dbOcLater (f : Fld) (v : Nat) : (s.setFld f v).dbOcLater = s.dbOcLater := rfl
@[simp] theorem State.setFld_seq (f : Fld) (v : Nat) : (s.setFld f v).seq = s.seq := rfl
@[simp] theorem State.setFld_links (f : Fld) (v : Nat) : (s.setFld f v).links = s.links := rfl
@[simp] theorem State.setFld_hosts (f : Fld) (v : Nat) : (s.setFld f v).hosts = s.hosts := rfl
@[simp] theorem State.setFld_tenancy (f : Fld) (v : Nat) : (s.setFld f v).tenancy = s.tenancy := rfl
@[simp] theorem State.setFld_tcv (f : Fld) (v : Nat) : (s.setFld f v).tcv = s.tcv := rfl
@[simp] theorem State.setFld_thmBad (f : Fld) (v : Nat) : (s.setFld f v).thmBad = s.thmBad := rfl
@[simp] theorem State.setFld_cores (f : Fld) (v : Nat) : (s.setFld f v).cores = s.cores := rfl
@[simp] theorem State.setFld_live (f : Fld) (v : Nat) : (s.setFld f v).live = s.live := rfl
@[simp] theorem State.setFld_tst (f : Fld) (v : Nat) : (s.setFld f v).tst = s.tst := rfl
@[simp] theorem State.setFld_regBad (f : Fld) (v : Nat) : (s.setFld f v).regBad = s.regBad := rfl
@[simp] theorem State.setFld_applet (f : Fld) (v : Nat) : (s.setFld f v).applet = s.applet := rfl
@[simp] theorem State.setFld_appletsDue (f : Fld) (v : Nat) : (s.setFld f v).appletsDue = s.appletsDue := rfl
@[simp] theorem State.setFld_actReg_read (f : Fld) (v : Nat) (x : Nat) : (s.setFld f v).actReg x = s.actReg x := rfl
@[simp] theorem State.setFld_afld_read (f : Fld) (v : Nat) (x : Fld) : (s.setFld f v).afld x = s.afld x := rfl
@[simp] theorem State.setFld_chan_read (f : Fld) (v : Nat) (x : Chan) : (s.setFld f v).chan x = s.chan x := rfl
@[simp] theorem State.setFld_loop_read (f : Fld) (v : Nat) (x : Loop) : (s.setFld f v).loop x = s.loop x := rfl
@[simp] theorem State.setFld_port_read (f : Fld) (v : Nat) (x : Port) : (s.setFld f v).port x = s.port x := rfl
@[simp] theorem State.setFld_path_read (f : Fld) (v : Nat) (x : Port) : (s.setFld f v).path x = s.path x := rfl
@[simp] theorem State.setFld_core_read (f : Fld) (v : Nat) (x : Core) : (s.setFld f v).core x = s.core x := rfl

/-! ### setSFld -/

@[simp] theorem State.setSFld_pending (f : Fld) (v : Int) : (s.setSFld f v).pending = s.pending := rfl
@[simp] theorem State.setSFld_act (f : Fld) (v : Int) : (s.setSFld f v).act = s.act := rfl
@[simp] theorem State.setSFld_sram (f : Fld) (v : Int) : (s.setSFld f v).sram = s.sram := rfl
@[simp] theorem State.setSFld_sramBad (f : Fld) (v : Int) : (s.setSFld f v).sramBad = s.sramBad := rfl
@[simp] theorem State.setSFld_out (f : Fld) (v : Int) : (s.setSFld f v).out = s.out := rfl
@[simp] theorem State.setSFld_freeCtr (f : Fld) (v : Int) : (s.setSFld f v).freeCtr = s.freeCtr := rfl
@[simp] theorem State.setSFld_power (f : Fld) (v : Int) : (s.setSFld f v).power = s.power := rfl
@[simp] theorem State.setSFld_boot (f : Fld) (v : Int) : (s.setSFld f v).boot = s.boot := rfl
@[simp] theorem State.setSFld_engine (f : Fld) (v : Int) : (s.setSFld f v).engine = s.engine := rfl
@[simp] theorem State.setSFld_chans (f : Fld) (v : Int) : (s.setSFld f v).chans = s.chans := rfl
@[simp] theorem State.setSFld_loops (f : Fld) (v : Int) : (s.setSFld f v).loops = s.loops := rfl
@[simp] theorem State.setSFld_kpr (f : Fld) (v : Int) : (s.setSFld f v).kpr = s.kpr := rfl
@[simp] theorem State.setSFld_recorder (f : Fld) (v : Int) : (s.setSFld f v).recorder = s.recorder := rfl
@[simp] theorem State.setSFld_ports (f : Fld) (v : Int) : (s.setSFld f v).ports = s.ports := rfl
@[simp] theorem State.setSFld_paths (f : Fld) (v : Int) : (s.setSFld f v).paths = s.paths := rfl
@[simp] theorem State.setSFld_pmem (f : Fld) (v : Int) : (s.setSFld f v).pmem = s.pmem := rfl
@[simp] theorem State.setSFld_dbOcLater (f : Fld) (v : Int) : (s.setSFld f v).dbOcLater = s.dbOcLater := rfl
@[simp] theorem State.setSFld_seq (f : Fld) (v : Int) : (s.setSFld f v).seq = s.seq := rfl
@[simp] theorem State.setSFld_links (f : Fld) (v : Int) : (s.setSFld f v).links = s.links := rfl
@[simp] theorem State.setSFld_hosts (f : Fld) (v : Int) : (s.setSFld f v).hosts = s.hosts := rfl
@[simp] theorem State.setSFld_tenancy (f : Fld) (v : Int) : (s.setSFld f v).tenancy = s.tenancy := rfl
@[simp] theorem State.setSFld_tcv (f : Fld) (v : Int) : (s.setSFld f v).tcv = s.tcv := rfl
@[simp] theorem State.setSFld_thmBad (f : Fld) (v : Int) : (s.setSFld f v).thmBad = s.thmBad := rfl
@[simp] theorem State.setSFld_cores (f : Fld) (v : Int) : (s.setSFld f v).cores = s.cores := rfl
@[simp] theorem State.setSFld_live (f : Fld) (v : Int) : (s.setSFld f v).live = s.live := rfl
@[simp] theorem State.setSFld_tst (f : Fld) (v : Int) : (s.setSFld f v).tst = s.tst := rfl
@[simp] theorem State.setSFld_regBad (f : Fld) (v : Int) : (s.setSFld f v).regBad = s.regBad := rfl
@[simp] theorem State.setSFld_applet (f : Fld) (v : Int) : (s.setSFld f v).applet = s.applet := rfl
@[simp] theorem State.setSFld_appletsDue (f : Fld) (v : Int) : (s.setSFld f v).appletsDue = s.appletsDue := rfl
@[simp] theorem State.setSFld_actReg_read (f : Fld) (v : Int) (x : Nat) : (s.setSFld f v).actReg x = s.actReg x := rfl
@[simp] theorem State.setSFld_afld_read (f : Fld) (v : Int) (x : Fld) : (s.setSFld f v).afld x = s.afld x := rfl
@[simp] theorem State.setSFld_chan_read (f : Fld) (v : Int) (x : Chan) : (s.setSFld f v).chan x = s.chan x := rfl
@[simp] theorem State.setSFld_loop_read (f : Fld) (v : Int) (x : Loop) : (s.setSFld f v).loop x = s.loop x := rfl
@[simp] theorem State.setSFld_port_read (f : Fld) (v : Int) (x : Port) : (s.setSFld f v).port x = s.port x := rfl
@[simp] theorem State.setSFld_path_read (f : Fld) (v : Int) (x : Port) : (s.setSFld f v).path x = s.path x := rfl
@[simp] theorem State.setSFld_core_read (f : Fld) (v : Int) (x : Core) : (s.setSFld f v).core x = s.core x := rfl

/-! ### setBit -/

@[simp] theorem State.setBit_pending (f : Fld) (b : Bool) : (s.setBit f b).pending = s.pending := rfl
@[simp] theorem State.setBit_act (f : Fld) (b : Bool) : (s.setBit f b).act = s.act := rfl
@[simp] theorem State.setBit_sram (f : Fld) (b : Bool) : (s.setBit f b).sram = s.sram := rfl
@[simp] theorem State.setBit_sramBad (f : Fld) (b : Bool) : (s.setBit f b).sramBad = s.sramBad := rfl
@[simp] theorem State.setBit_out (f : Fld) (b : Bool) : (s.setBit f b).out = s.out := rfl
@[simp] theorem State.setBit_freeCtr (f : Fld) (b : Bool) : (s.setBit f b).freeCtr = s.freeCtr := rfl
@[simp] theorem State.setBit_power (f : Fld) (b : Bool) : (s.setBit f b).power = s.power := rfl
@[simp] theorem State.setBit_boot (f : Fld) (b : Bool) : (s.setBit f b).boot = s.boot := rfl
@[simp] theorem State.setBit_engine (f : Fld) (b : Bool) : (s.setBit f b).engine = s.engine := rfl
@[simp] theorem State.setBit_chans (f : Fld) (b : Bool) : (s.setBit f b).chans = s.chans := rfl
@[simp] theorem State.setBit_loops (f : Fld) (b : Bool) : (s.setBit f b).loops = s.loops := rfl
@[simp] theorem State.setBit_kpr (f : Fld) (b : Bool) : (s.setBit f b).kpr = s.kpr := rfl
@[simp] theorem State.setBit_recorder (f : Fld) (b : Bool) : (s.setBit f b).recorder = s.recorder := rfl
@[simp] theorem State.setBit_ports (f : Fld) (b : Bool) : (s.setBit f b).ports = s.ports := rfl
@[simp] theorem State.setBit_paths (f : Fld) (b : Bool) : (s.setBit f b).paths = s.paths := rfl
@[simp] theorem State.setBit_pmem (f : Fld) (b : Bool) : (s.setBit f b).pmem = s.pmem := rfl
@[simp] theorem State.setBit_dbOcLater (f : Fld) (b : Bool) : (s.setBit f b).dbOcLater = s.dbOcLater := rfl
@[simp] theorem State.setBit_seq (f : Fld) (b : Bool) : (s.setBit f b).seq = s.seq := rfl
@[simp] theorem State.setBit_links (f : Fld) (b : Bool) : (s.setBit f b).links = s.links := rfl
@[simp] theorem State.setBit_hosts (f : Fld) (b : Bool) : (s.setBit f b).hosts = s.hosts := rfl
@[simp] theorem State.setBit_tenancy (f : Fld) (b : Bool) : (s.setBit f b).tenancy = s.tenancy := rfl
@[simp] theorem State.setBit_tcv (f : Fld) (b : Bool) : (s.setBit f b).tcv = s.tcv := rfl
@[simp] theorem State.setBit_thmBad (f : Fld) (b : Bool) : (s.setBit f b).thmBad = s.thmBad := rfl
@[simp] theorem State.setBit_cores (f : Fld) (b : Bool) : (s.setBit f b).cores = s.cores := rfl
@[simp] theorem State.setBit_live (f : Fld) (b : Bool) : (s.setBit f b).live = s.live := rfl
@[simp] theorem State.setBit_tst (f : Fld) (b : Bool) : (s.setBit f b).tst = s.tst := rfl
@[simp] theorem State.setBit_regBad (f : Fld) (b : Bool) : (s.setBit f b).regBad = s.regBad := rfl
@[simp] theorem State.setBit_applet (f : Fld) (b : Bool) : (s.setBit f b).applet = s.applet := rfl
@[simp] theorem State.setBit_appletsDue (f : Fld) (b : Bool) : (s.setBit f b).appletsDue = s.appletsDue := rfl
@[simp] theorem State.setBit_actReg_read (f : Fld) (b : Bool) (x : Nat) : (s.setBit f b).actReg x = s.actReg x := rfl
@[simp] theorem State.setBit_afld_read (f : Fld) (b : Bool) (x : Fld) : (s.setBit f b).afld x = s.afld x := rfl
@[simp] theorem State.setBit_chan_read (f : Fld) (b : Bool) (x : Chan) : (s.setBit f b).chan x = s.chan x := rfl
@[simp] theorem State.setBit_loop_read (f : Fld) (b : Bool) (x : Loop) : (s.setBit f b).loop x = s.loop x := rfl
@[simp] theorem State.setBit_port_read (f : Fld) (b : Bool) (x : Port) : (s.setBit f b).port x = s.port x := rfl
@[simp] theorem State.setBit_path_read (f : Fld) (b : Bool) (x : Port) : (s.setBit f b).path x = s.path x := rfl
@[simp] theorem State.setBit_core_read (f : Fld) (b : Bool) (x : Core) : (s.setBit f b).core x = s.core x := rfl

/-! ### raise -/

@[simp] theorem State.raise_pending (g b : Nat) : (s.raise g b).pending = s.pending := rfl
@[simp] theorem State.raise_act (g b : Nat) : (s.raise g b).act = s.act := rfl
@[simp] theorem State.raise_sram (g b : Nat) : (s.raise g b).sram = s.sram := rfl
@[simp] theorem State.raise_sramBad (g b : Nat) : (s.raise g b).sramBad = s.sramBad := rfl
@[simp] theorem State.raise_out (g b : Nat) : (s.raise g b).out = s.out := rfl
@[simp] theorem State.raise_freeCtr (g b : Nat) : (s.raise g b).freeCtr = s.freeCtr := rfl
@[simp] theorem State.raise_power (g b : Nat) : (s.raise g b).power = s.power := rfl
@[simp] theorem State.raise_boot (g b : Nat) : (s.raise g b).boot = s.boot := rfl
@[simp] theorem State.raise_engine (g b : Nat) : (s.raise g b).engine = s.engine := rfl
@[simp] theorem State.raise_chans (g b : Nat) : (s.raise g b).chans = s.chans := rfl
@[simp] theorem State.raise_loops (g b : Nat) : (s.raise g b).loops = s.loops := rfl
@[simp] theorem State.raise_kpr (g b : Nat) : (s.raise g b).kpr = s.kpr := rfl
@[simp] theorem State.raise_recorder (g b : Nat) : (s.raise g b).recorder = s.recorder := rfl
@[simp] theorem State.raise_ports (g b : Nat) : (s.raise g b).ports = s.ports := rfl
@[simp] theorem State.raise_paths (g b : Nat) : (s.raise g b).paths = s.paths := rfl
@[simp] theorem State.raise_pmem (g b : Nat) : (s.raise g b).pmem = s.pmem := rfl
@[simp] theorem State.raise_dbOcLater (g b : Nat) : (s.raise g b).dbOcLater = s.dbOcLater := rfl
@[simp] theorem State.raise_seq (g b : Nat) : (s.raise g b).seq = s.seq := rfl
@[simp] theorem State.raise_links (g b : Nat) : (s.raise g b).links = s.links := rfl
@[simp] theorem State.raise_hosts (g b : Nat) : (s.raise g b).hosts = s.hosts := rfl
@[simp] theorem State.raise_tenancy (g b : Nat) : (s.raise g b).tenancy = s.tenancy := rfl
@[simp] theorem State.raise_tcv (g b : Nat) : (s.raise g b).tcv = s.tcv := rfl
@[simp] theorem State.raise_thmBad (g b : Nat) : (s.raise g b).thmBad = s.thmBad := rfl
@[simp] theorem State.raise_cores (g b : Nat) : (s.raise g b).cores = s.cores := rfl
@[simp] theorem State.raise_live (g b : Nat) : (s.raise g b).live = s.live := rfl
@[simp] theorem State.raise_tst (g b : Nat) : (s.raise g b).tst = s.tst := rfl
@[simp] theorem State.raise_regBad (g b : Nat) : (s.raise g b).regBad = s.regBad := rfl
@[simp] theorem State.raise_applet (g b : Nat) : (s.raise g b).applet = s.applet := rfl
@[simp] theorem State.raise_appletsDue (g b : Nat) : (s.raise g b).appletsDue = s.appletsDue := rfl
@[simp] theorem State.raise_actReg_read (g b : Nat) (x : Nat) : (s.raise g b).actReg x = s.actReg x := rfl
@[simp] theorem State.raise_afld_read (g b : Nat) (x : Fld) : (s.raise g b).afld x = s.afld x := rfl
@[simp] theorem State.raise_chan_read (g b : Nat) (x : Chan) : (s.raise g b).chan x = s.chan x := rfl
@[simp] theorem State.raise_loop_read (g b : Nat) (x : Loop) : (s.raise g b).loop x = s.loop x := rfl
@[simp] theorem State.raise_port_read (g b : Nat) (x : Port) : (s.raise g b).port x = s.port x := rfl
@[simp] theorem State.raise_path_read (g b : Nat) (x : Port) : (s.raise g b).path x = s.path x := rfl
@[simp] theorem State.raise_core_read (g b : Nat) (x : Core) : (s.raise g b).core x = s.core x := rfl

/-! ### setAct -/

@[simp] theorem State.setAct_pending (a : Nat) (w : Word) : (s.setAct a w).pending = s.pending := rfl
@[simp] theorem State.setAct_regs (a : Nat) (w : Word) : (s.setAct a w).regs = s.regs := rfl
@[simp] theorem State.setAct_sram (a : Nat) (w : Word) : (s.setAct a w).sram = s.sram := rfl
@[simp] theorem State.setAct_sramBad (a : Nat) (w : Word) : (s.setAct a w).sramBad = s.sramBad := rfl
@[simp] theorem State.setAct_out (a : Nat) (w : Word) : (s.setAct a w).out = s.out := rfl
@[simp] theorem State.setAct_freeCtr (a : Nat) (w : Word) : (s.setAct a w).freeCtr = s.freeCtr := rfl
@[simp] theorem State.setAct_power (a : Nat) (w : Word) : (s.setAct a w).power = s.power := rfl
@[simp] theorem State.setAct_boot (a : Nat) (w : Word) : (s.setAct a w).boot = s.boot := rfl
@[simp] theorem State.setAct_engine (a : Nat) (w : Word) : (s.setAct a w).engine = s.engine := rfl
@[simp] theorem State.setAct_chans (a : Nat) (w : Word) : (s.setAct a w).chans = s.chans := rfl
@[simp] theorem State.setAct_loops (a : Nat) (w : Word) : (s.setAct a w).loops = s.loops := rfl
@[simp] theorem State.setAct_kpr (a : Nat) (w : Word) : (s.setAct a w).kpr = s.kpr := rfl
@[simp] theorem State.setAct_recorder (a : Nat) (w : Word) : (s.setAct a w).recorder = s.recorder := rfl
@[simp] theorem State.setAct_ports (a : Nat) (w : Word) : (s.setAct a w).ports = s.ports := rfl
@[simp] theorem State.setAct_paths (a : Nat) (w : Word) : (s.setAct a w).paths = s.paths := rfl
@[simp] theorem State.setAct_pmem (a : Nat) (w : Word) : (s.setAct a w).pmem = s.pmem := rfl
@[simp] theorem State.setAct_dbOcLater (a : Nat) (w : Word) : (s.setAct a w).dbOcLater = s.dbOcLater := rfl
@[simp] theorem State.setAct_seq (a : Nat) (w : Word) : (s.setAct a w).seq = s.seq := rfl
@[simp] theorem State.setAct_links (a : Nat) (w : Word) : (s.setAct a w).links = s.links := rfl
@[simp] theorem State.setAct_hosts (a : Nat) (w : Word) : (s.setAct a w).hosts = s.hosts := rfl
@[simp] theorem State.setAct_tenancy (a : Nat) (w : Word) : (s.setAct a w).tenancy = s.tenancy := rfl
@[simp] theorem State.setAct_tcv (a : Nat) (w : Word) : (s.setAct a w).tcv = s.tcv := rfl
@[simp] theorem State.setAct_thmBad (a : Nat) (w : Word) : (s.setAct a w).thmBad = s.thmBad := rfl
@[simp] theorem State.setAct_cores (a : Nat) (w : Word) : (s.setAct a w).cores = s.cores := rfl
@[simp] theorem State.setAct_live (a : Nat) (w : Word) : (s.setAct a w).live = s.live := rfl
@[simp] theorem State.setAct_tst (a : Nat) (w : Word) : (s.setAct a w).tst = s.tst := rfl
@[simp] theorem State.setAct_regBad (a : Nat) (w : Word) : (s.setAct a w).regBad = s.regBad := rfl
@[simp] theorem State.setAct_applet (a : Nat) (w : Word) : (s.setAct a w).applet = s.applet := rfl
@[simp] theorem State.setAct_appletsDue (a : Nat) (w : Word) : (s.setAct a w).appletsDue = s.appletsDue := rfl
@[simp] theorem State.setAct_reg_read (a : Nat) (w : Word) (x : Nat) : (s.setAct a w).reg x = s.reg x := rfl
@[simp] theorem State.setAct_fld_read (a : Nat) (w : Word) (x : Fld) : (s.setAct a w).fld x = s.fld x := rfl
@[simp] theorem State.setAct_sfld_read (a : Nat) (w : Word) (x : Fld) : (s.setAct a w).sfld x = s.sfld x := rfl
@[simp] theorem State.setAct_bit_read (a : Nat) (w : Word) (x : Fld) : (s.setAct a w).bit x = s.bit x := rfl
@[simp] theorem State.setAct_chan_read (a : Nat) (w : Word) (x : Chan) : (s.setAct a w).chan x = s.chan x := rfl
@[simp] theorem State.setAct_loop_read (a : Nat) (w : Word) (x : Loop) : (s.setAct a w).loop x = s.loop x := rfl
@[simp] theorem State.setAct_port_read (a : Nat) (w : Word) (x : Port) : (s.setAct a w).port x = s.port x := rfl
@[simp] theorem State.setAct_path_read (a : Nat) (w : Word) (x : Port) : (s.setAct a w).path x = s.path x := rfl
@[simp] theorem State.setAct_core_read (a : Nat) (w : Word) (x : Core) : (s.setAct a w).core x = s.core x := rfl

/-! ### modChan -/

@[simp] theorem State.modChan_pending (n : Chan) (f : ChanState → ChanState) : (s.modChan n f).pending = s.pending := rfl
@[simp] theorem State.modChan_regs (n : Chan) (f : ChanState → ChanState) : (s.modChan n f).regs = s.regs := rfl
@[simp] theorem State.modChan_act (n : Chan) (f : ChanState → ChanState) : (s.modChan n f).act = s.act := rfl
@[simp] theorem State.modChan_sram (n : Chan) (f : ChanState → ChanState) : (s.modChan n f).sram = s.sram := rfl
@[simp] theorem State.modChan_sramBad (n : Chan) (f : ChanState → ChanState) : (s.modChan n f).sramBad = s.sramBad := rfl
@[simp] theorem State.modChan_out (n : Chan) (f : ChanState → ChanState) : (s.modChan n f).out = s.out := rfl
@[simp] theorem State.modChan_freeCtr (n : Chan) (f : ChanState → ChanState) : (s.modChan n f).freeCtr = s.freeCtr := rfl
@[simp] theorem State.modChan_power (n : Chan) (f : ChanState → ChanState) : (s.modChan n f).power = s.power := rfl
@[simp] theorem State.modChan_boot (n : Chan) (f : ChanState → ChanState) : (s.modChan n f).boot = s.boot := rfl
@[simp] theorem State.modChan_engine (n : Chan) (f : ChanState → ChanState) : (s.modChan n f).engine = s.engine := rfl
@[simp] theorem State.modChan_loops (n : Chan) (f : ChanState → ChanState) : (s.modChan n f).loops = s.loops := rfl
@[simp] theorem State.modChan_kpr (n : Chan) (f : ChanState → ChanState) : (s.modChan n f).kpr = s.kpr := rfl
@[simp] theorem State.modChan_recorder (n : Chan) (f : ChanState → ChanState) : (s.modChan n f).recorder = s.recorder := rfl
@[simp] theorem State.modChan_ports (n : Chan) (f : ChanState → ChanState) : (s.modChan n f).ports = s.ports := rfl
@[simp] theorem State.modChan_paths (n : Chan) (f : ChanState → ChanState) : (s.modChan n f).paths = s.paths := rfl
@[simp] theorem State.modChan_pmem (n : Chan) (f : ChanState → ChanState) : (s.modChan n f).pmem = s.pmem := rfl
@[simp] theorem State.modChan_dbOcLater (n : Chan) (f : ChanState → ChanState) : (s.modChan n f).dbOcLater = s.dbOcLater := rfl
@[simp] theorem State.modChan_seq (n : Chan) (f : ChanState → ChanState) : (s.modChan n f).seq = s.seq := rfl
@[simp] theorem State.modChan_links (n : Chan) (f : ChanState → ChanState) : (s.modChan n f).links = s.links := rfl
@[simp] theorem State.modChan_hosts (n : Chan) (f : ChanState → ChanState) : (s.modChan n f).hosts = s.hosts := rfl
@[simp] theorem State.modChan_tenancy (n : Chan) (f : ChanState → ChanState) : (s.modChan n f).tenancy = s.tenancy := rfl
@[simp] theorem State.modChan_tcv (n : Chan) (f : ChanState → ChanState) : (s.modChan n f).tcv = s.tcv := rfl
@[simp] theorem State.modChan_thmBad (n : Chan) (f : ChanState → ChanState) : (s.modChan n f).thmBad = s.thmBad := rfl
@[simp] theorem State.modChan_cores (n : Chan) (f : ChanState → ChanState) : (s.modChan n f).cores = s.cores := rfl
@[simp] theorem State.modChan_live (n : Chan) (f : ChanState → ChanState) : (s.modChan n f).live = s.live := rfl
@[simp] theorem State.modChan_tst (n : Chan) (f : ChanState → ChanState) : (s.modChan n f).tst = s.tst := rfl
@[simp] theorem State.modChan_regBad (n : Chan) (f : ChanState → ChanState) : (s.modChan n f).regBad = s.regBad := rfl
@[simp] theorem State.modChan_applet (n : Chan) (f : ChanState → ChanState) : (s.modChan n f).applet = s.applet := rfl
@[simp] theorem State.modChan_appletsDue (n : Chan) (f : ChanState → ChanState) : (s.modChan n f).appletsDue = s.appletsDue := rfl
@[simp] theorem State.modChan_reg_read (n : Chan) (f : ChanState → ChanState) (x : Nat) : (s.modChan n f).reg x = s.reg x := rfl
@[simp] theorem State.modChan_fld_read (n : Chan) (f : ChanState → ChanState) (x : Fld) : (s.modChan n f).fld x = s.fld x := rfl
@[simp] theorem State.modChan_sfld_read (n : Chan) (f : ChanState → ChanState) (x : Fld) : (s.modChan n f).sfld x = s.sfld x := rfl
@[simp] theorem State.modChan_bit_read (n : Chan) (f : ChanState → ChanState) (x : Fld) : (s.modChan n f).bit x = s.bit x := rfl
@[simp] theorem State.modChan_actReg_read (n : Chan) (f : ChanState → ChanState) (x : Nat) : (s.modChan n f).actReg x = s.actReg x := rfl
@[simp] theorem State.modChan_afld_read (n : Chan) (f : ChanState → ChanState) (x : Fld) : (s.modChan n f).afld x = s.afld x := rfl
@[simp] theorem State.modChan_loop_read (n : Chan) (f : ChanState → ChanState) (x : Loop) : (s.modChan n f).loop x = s.loop x := rfl
@[simp] theorem State.modChan_port_read (n : Chan) (f : ChanState → ChanState) (x : Port) : (s.modChan n f).port x = s.port x := rfl
@[simp] theorem State.modChan_path_read (n : Chan) (f : ChanState → ChanState) (x : Port) : (s.modChan n f).path x = s.path x := rfl
@[simp] theorem State.modChan_core_read (n : Chan) (f : ChanState → ChanState) (x : Core) : (s.modChan n f).core x = s.core x := rfl

/-! ### modLoop -/

@[simp] theorem State.modLoop_pending (n : Loop) (f : LoopState → LoopState) : (s.modLoop n f).pending = s.pending := rfl
@[simp] theorem State.modLoop_regs (n : Loop) (f : LoopState → LoopState) : (s.modLoop n f).regs = s.regs := rfl
@[simp] theorem State.modLoop_act (n : Loop) (f : LoopState → LoopState) : (s.modLoop n f).act = s.act := rfl
@[simp] theorem State.modLoop_sram (n : Loop) (f : LoopState → LoopState) : (s.modLoop n f).sram = s.sram := rfl
@[simp] theorem State.modLoop_sramBad (n : Loop) (f : LoopState → LoopState) : (s.modLoop n f).sramBad = s.sramBad := rfl
@[simp] theorem State.modLoop_out (n : Loop) (f : LoopState → LoopState) : (s.modLoop n f).out = s.out := rfl
@[simp] theorem State.modLoop_freeCtr (n : Loop) (f : LoopState → LoopState) : (s.modLoop n f).freeCtr = s.freeCtr := rfl
@[simp] theorem State.modLoop_power (n : Loop) (f : LoopState → LoopState) : (s.modLoop n f).power = s.power := rfl
@[simp] theorem State.modLoop_boot (n : Loop) (f : LoopState → LoopState) : (s.modLoop n f).boot = s.boot := rfl
@[simp] theorem State.modLoop_engine (n : Loop) (f : LoopState → LoopState) : (s.modLoop n f).engine = s.engine := rfl
@[simp] theorem State.modLoop_chans (n : Loop) (f : LoopState → LoopState) : (s.modLoop n f).chans = s.chans := rfl
@[simp] theorem State.modLoop_kpr (n : Loop) (f : LoopState → LoopState) : (s.modLoop n f).kpr = s.kpr := rfl
@[simp] theorem State.modLoop_recorder (n : Loop) (f : LoopState → LoopState) : (s.modLoop n f).recorder = s.recorder := rfl
@[simp] theorem State.modLoop_ports (n : Loop) (f : LoopState → LoopState) : (s.modLoop n f).ports = s.ports := rfl
@[simp] theorem State.modLoop_paths (n : Loop) (f : LoopState → LoopState) : (s.modLoop n f).paths = s.paths := rfl
@[simp] theorem State.modLoop_pmem (n : Loop) (f : LoopState → LoopState) : (s.modLoop n f).pmem = s.pmem := rfl
@[simp] theorem State.modLoop_dbOcLater (n : Loop) (f : LoopState → LoopState) : (s.modLoop n f).dbOcLater = s.dbOcLater := rfl
@[simp] theorem State.modLoop_seq (n : Loop) (f : LoopState → LoopState) : (s.modLoop n f).seq = s.seq := rfl
@[simp] theorem State.modLoop_links (n : Loop) (f : LoopState → LoopState) : (s.modLoop n f).links = s.links := rfl
@[simp] theorem State.modLoop_hosts (n : Loop) (f : LoopState → LoopState) : (s.modLoop n f).hosts = s.hosts := rfl
@[simp] theorem State.modLoop_tenancy (n : Loop) (f : LoopState → LoopState) : (s.modLoop n f).tenancy = s.tenancy := rfl
@[simp] theorem State.modLoop_tcv (n : Loop) (f : LoopState → LoopState) : (s.modLoop n f).tcv = s.tcv := rfl
@[simp] theorem State.modLoop_thmBad (n : Loop) (f : LoopState → LoopState) : (s.modLoop n f).thmBad = s.thmBad := rfl
@[simp] theorem State.modLoop_cores (n : Loop) (f : LoopState → LoopState) : (s.modLoop n f).cores = s.cores := rfl
@[simp] theorem State.modLoop_live (n : Loop) (f : LoopState → LoopState) : (s.modLoop n f).live = s.live := rfl
@[simp] theorem State.modLoop_tst (n : Loop) (f : LoopState → LoopState) : (s.modLoop n f).tst = s.tst := rfl
@[simp] theorem State.modLoop_regBad (n : Loop) (f : LoopState → LoopState) : (s.modLoop n f).regBad = s.regBad := rfl
@[simp] theorem State.modLoop_applet (n : Loop) (f : LoopState → LoopState) : (s.modLoop n f).applet = s.applet := rfl
@[simp] theorem State.modLoop_appletsDue (n : Loop) (f : LoopState → LoopState) : (s.modLoop n f).appletsDue = s.appletsDue := rfl
@[simp] theorem State.modLoop_reg_read (n : Loop) (f : LoopState → LoopState) (x : Nat) : (s.modLoop n f).reg x = s.reg x := rfl
@[simp] theorem State.modLoop_fld_read (n : Loop) (f : LoopState → LoopState) (x : Fld) : (s.modLoop n f).fld x = s.fld x := rfl
@[simp] theorem State.modLoop_sfld_read (n : Loop) (f : LoopState → LoopState) (x : Fld) : (s.modLoop n f).sfld x = s.sfld x := rfl
@[simp] theorem State.modLoop_bit_read (n : Loop) (f : LoopState → LoopState) (x : Fld) : (s.modLoop n f).bit x = s.bit x := rfl
@[simp] theorem State.modLoop_actReg_read (n : Loop) (f : LoopState → LoopState) (x : Nat) : (s.modLoop n f).actReg x = s.actReg x := rfl
@[simp] theorem State.modLoop_afld_read (n : Loop) (f : LoopState → LoopState) (x : Fld) : (s.modLoop n f).afld x = s.afld x := rfl
@[simp] theorem State.modLoop_chan_read (n : Loop) (f : LoopState → LoopState) (x : Chan) : (s.modLoop n f).chan x = s.chan x := rfl
@[simp] theorem State.modLoop_port_read (n : Loop) (f : LoopState → LoopState) (x : Port) : (s.modLoop n f).port x = s.port x := rfl
@[simp] theorem State.modLoop_path_read (n : Loop) (f : LoopState → LoopState) (x : Port) : (s.modLoop n f).path x = s.path x := rfl
@[simp] theorem State.modLoop_core_read (n : Loop) (f : LoopState → LoopState) (x : Core) : (s.modLoop n f).core x = s.core x := rfl

/-! ### modPower -/

@[simp] theorem State.modPower_pending (f : Power → Power) : (s.modPower f).pending = s.pending := rfl
@[simp] theorem State.modPower_regs (f : Power → Power) : (s.modPower f).regs = s.regs := rfl
@[simp] theorem State.modPower_act (f : Power → Power) : (s.modPower f).act = s.act := rfl
@[simp] theorem State.modPower_sram (f : Power → Power) : (s.modPower f).sram = s.sram := rfl
@[simp] theorem State.modPower_sramBad (f : Power → Power) : (s.modPower f).sramBad = s.sramBad := rfl
@[simp] theorem State.modPower_out (f : Power → Power) : (s.modPower f).out = s.out := rfl
@[simp] theorem State.modPower_freeCtr (f : Power → Power) : (s.modPower f).freeCtr = s.freeCtr := rfl
@[simp] theorem State.modPower_power (f : Power → Power) : (s.modPower f).power = f s.power := rfl
@[simp] theorem State.modPower_boot (f : Power → Power) : (s.modPower f).boot = s.boot := rfl
@[simp] theorem State.modPower_engine (f : Power → Power) : (s.modPower f).engine = s.engine := rfl
@[simp] theorem State.modPower_chans (f : Power → Power) : (s.modPower f).chans = s.chans := rfl
@[simp] theorem State.modPower_loops (f : Power → Power) : (s.modPower f).loops = s.loops := rfl
@[simp] theorem State.modPower_kpr (f : Power → Power) : (s.modPower f).kpr = s.kpr := rfl
@[simp] theorem State.modPower_recorder (f : Power → Power) : (s.modPower f).recorder = s.recorder := rfl
@[simp] theorem State.modPower_ports (f : Power → Power) : (s.modPower f).ports = s.ports := rfl
@[simp] theorem State.modPower_paths (f : Power → Power) : (s.modPower f).paths = s.paths := rfl
@[simp] theorem State.modPower_pmem (f : Power → Power) : (s.modPower f).pmem = s.pmem := rfl
@[simp] theorem State.modPower_dbOcLater (f : Power → Power) : (s.modPower f).dbOcLater = s.dbOcLater := rfl
@[simp] theorem State.modPower_seq (f : Power → Power) : (s.modPower f).seq = s.seq := rfl
@[simp] theorem State.modPower_links (f : Power → Power) : (s.modPower f).links = s.links := rfl
@[simp] theorem State.modPower_hosts (f : Power → Power) : (s.modPower f).hosts = s.hosts := rfl
@[simp] theorem State.modPower_tenancy (f : Power → Power) : (s.modPower f).tenancy = s.tenancy := rfl
@[simp] theorem State.modPower_tcv (f : Power → Power) : (s.modPower f).tcv = s.tcv := rfl
@[simp] theorem State.modPower_thmBad (f : Power → Power) : (s.modPower f).thmBad = s.thmBad := rfl
@[simp] theorem State.modPower_cores (f : Power → Power) : (s.modPower f).cores = s.cores := rfl
@[simp] theorem State.modPower_live (f : Power → Power) : (s.modPower f).live = s.live := rfl
@[simp] theorem State.modPower_tst (f : Power → Power) : (s.modPower f).tst = s.tst := rfl
@[simp] theorem State.modPower_regBad (f : Power → Power) : (s.modPower f).regBad = s.regBad := rfl
@[simp] theorem State.modPower_applet (f : Power → Power) : (s.modPower f).applet = s.applet := rfl
@[simp] theorem State.modPower_appletsDue (f : Power → Power) : (s.modPower f).appletsDue = s.appletsDue := rfl
@[simp] theorem State.modPower_reg_read (f : Power → Power) (x : Nat) : (s.modPower f).reg x = s.reg x := rfl
@[simp] theorem State.modPower_fld_read (f : Power → Power) (x : Fld) : (s.modPower f).fld x = s.fld x := rfl
@[simp] theorem State.modPower_sfld_read (f : Power → Power) (x : Fld) : (s.modPower f).sfld x = s.sfld x := rfl
@[simp] theorem State.modPower_bit_read (f : Power → Power) (x : Fld) : (s.modPower f).bit x = s.bit x := rfl
@[simp] theorem State.modPower_actReg_read (f : Power → Power) (x : Nat) : (s.modPower f).actReg x = s.actReg x := rfl
@[simp] theorem State.modPower_afld_read (f : Power → Power) (x : Fld) : (s.modPower f).afld x = s.afld x := rfl
@[simp] theorem State.modPower_chan_read (f : Power → Power) (x : Chan) : (s.modPower f).chan x = s.chan x := rfl
@[simp] theorem State.modPower_loop_read (f : Power → Power) (x : Loop) : (s.modPower f).loop x = s.loop x := rfl
@[simp] theorem State.modPower_port_read (f : Power → Power) (x : Port) : (s.modPower f).port x = s.port x := rfl
@[simp] theorem State.modPower_path_read (f : Power → Power) (x : Port) : (s.modPower f).path x = s.path x := rfl
@[simp] theorem State.modPower_core_read (f : Power → Power) (x : Core) : (s.modPower f).core x = s.core x := rfl

/-! ### modBoot -/

@[simp] theorem State.modBoot_pending (f : Boot → Boot) : (s.modBoot f).pending = s.pending := rfl
@[simp] theorem State.modBoot_regs (f : Boot → Boot) : (s.modBoot f).regs = s.regs := rfl
@[simp] theorem State.modBoot_act (f : Boot → Boot) : (s.modBoot f).act = s.act := rfl
@[simp] theorem State.modBoot_sram (f : Boot → Boot) : (s.modBoot f).sram = s.sram := rfl
@[simp] theorem State.modBoot_sramBad (f : Boot → Boot) : (s.modBoot f).sramBad = s.sramBad := rfl
@[simp] theorem State.modBoot_out (f : Boot → Boot) : (s.modBoot f).out = s.out := rfl
@[simp] theorem State.modBoot_freeCtr (f : Boot → Boot) : (s.modBoot f).freeCtr = s.freeCtr := rfl
@[simp] theorem State.modBoot_power (f : Boot → Boot) : (s.modBoot f).power = s.power := rfl
@[simp] theorem State.modBoot_boot (f : Boot → Boot) : (s.modBoot f).boot = f s.boot := rfl
@[simp] theorem State.modBoot_engine (f : Boot → Boot) : (s.modBoot f).engine = s.engine := rfl
@[simp] theorem State.modBoot_chans (f : Boot → Boot) : (s.modBoot f).chans = s.chans := rfl
@[simp] theorem State.modBoot_loops (f : Boot → Boot) : (s.modBoot f).loops = s.loops := rfl
@[simp] theorem State.modBoot_kpr (f : Boot → Boot) : (s.modBoot f).kpr = s.kpr := rfl
@[simp] theorem State.modBoot_recorder (f : Boot → Boot) : (s.modBoot f).recorder = s.recorder := rfl
@[simp] theorem State.modBoot_ports (f : Boot → Boot) : (s.modBoot f).ports = s.ports := rfl
@[simp] theorem State.modBoot_paths (f : Boot → Boot) : (s.modBoot f).paths = s.paths := rfl
@[simp] theorem State.modBoot_pmem (f : Boot → Boot) : (s.modBoot f).pmem = s.pmem := rfl
@[simp] theorem State.modBoot_dbOcLater (f : Boot → Boot) : (s.modBoot f).dbOcLater = s.dbOcLater := rfl
@[simp] theorem State.modBoot_seq (f : Boot → Boot) : (s.modBoot f).seq = s.seq := rfl
@[simp] theorem State.modBoot_links (f : Boot → Boot) : (s.modBoot f).links = s.links := rfl
@[simp] theorem State.modBoot_hosts (f : Boot → Boot) : (s.modBoot f).hosts = s.hosts := rfl
@[simp] theorem State.modBoot_tenancy (f : Boot → Boot) : (s.modBoot f).tenancy = s.tenancy := rfl
@[simp] theorem State.modBoot_tcv (f : Boot → Boot) : (s.modBoot f).tcv = s.tcv := rfl
@[simp] theorem State.modBoot_thmBad (f : Boot → Boot) : (s.modBoot f).thmBad = s.thmBad := rfl
@[simp] theorem State.modBoot_cores (f : Boot → Boot) : (s.modBoot f).cores = s.cores := rfl
@[simp] theorem State.modBoot_live (f : Boot → Boot) : (s.modBoot f).live = s.live := rfl
@[simp] theorem State.modBoot_tst (f : Boot → Boot) : (s.modBoot f).tst = s.tst := rfl
@[simp] theorem State.modBoot_regBad (f : Boot → Boot) : (s.modBoot f).regBad = s.regBad := rfl
@[simp] theorem State.modBoot_applet (f : Boot → Boot) : (s.modBoot f).applet = s.applet := rfl
@[simp] theorem State.modBoot_appletsDue (f : Boot → Boot) : (s.modBoot f).appletsDue = s.appletsDue := rfl
@[simp] theorem State.modBoot_reg_read (f : Boot → Boot) (x : Nat) : (s.modBoot f).reg x = s.reg x := rfl
@[simp] theorem State.modBoot_fld_read (f : Boot → Boot) (x : Fld) : (s.modBoot f).fld x = s.fld x := rfl
@[simp] theorem State.modBoot_sfld_read (f : Boot → Boot) (x : Fld) : (s.modBoot f).sfld x = s.sfld x := rfl
@[simp] theorem State.modBoot_bit_read (f : Boot → Boot) (x : Fld) : (s.modBoot f).bit x = s.bit x := rfl
@[simp] theorem State.modBoot_actReg_read (f : Boot → Boot) (x : Nat) : (s.modBoot f).actReg x = s.actReg x := rfl
@[simp] theorem State.modBoot_afld_read (f : Boot → Boot) (x : Fld) : (s.modBoot f).afld x = s.afld x := rfl
@[simp] theorem State.modBoot_chan_read (f : Boot → Boot) (x : Chan) : (s.modBoot f).chan x = s.chan x := rfl
@[simp] theorem State.modBoot_loop_read (f : Boot → Boot) (x : Loop) : (s.modBoot f).loop x = s.loop x := rfl
@[simp] theorem State.modBoot_port_read (f : Boot → Boot) (x : Port) : (s.modBoot f).port x = s.port x := rfl
@[simp] theorem State.modBoot_path_read (f : Boot → Boot) (x : Port) : (s.modBoot f).path x = s.path x := rfl
@[simp] theorem State.modBoot_core_read (f : Boot → Boot) (x : Core) : (s.modBoot f).core x = s.core x := rfl

/-! ### modEngine -/

@[simp] theorem State.modEngine_pending (f : Engine → Engine) : (s.modEngine f).pending = s.pending := rfl
@[simp] theorem State.modEngine_regs (f : Engine → Engine) : (s.modEngine f).regs = s.regs := rfl
@[simp] theorem State.modEngine_act (f : Engine → Engine) : (s.modEngine f).act = s.act := rfl
@[simp] theorem State.modEngine_sram (f : Engine → Engine) : (s.modEngine f).sram = s.sram := rfl
@[simp] theorem State.modEngine_sramBad (f : Engine → Engine) : (s.modEngine f).sramBad = s.sramBad := rfl
@[simp] theorem State.modEngine_out (f : Engine → Engine) : (s.modEngine f).out = s.out := rfl
@[simp] theorem State.modEngine_freeCtr (f : Engine → Engine) : (s.modEngine f).freeCtr = s.freeCtr := rfl
@[simp] theorem State.modEngine_power (f : Engine → Engine) : (s.modEngine f).power = s.power := rfl
@[simp] theorem State.modEngine_boot (f : Engine → Engine) : (s.modEngine f).boot = s.boot := rfl
@[simp] theorem State.modEngine_engine (f : Engine → Engine) : (s.modEngine f).engine = f s.engine := rfl
@[simp] theorem State.modEngine_chans (f : Engine → Engine) : (s.modEngine f).chans = s.chans := rfl
@[simp] theorem State.modEngine_loops (f : Engine → Engine) : (s.modEngine f).loops = s.loops := rfl
@[simp] theorem State.modEngine_kpr (f : Engine → Engine) : (s.modEngine f).kpr = s.kpr := rfl
@[simp] theorem State.modEngine_recorder (f : Engine → Engine) : (s.modEngine f).recorder = s.recorder := rfl
@[simp] theorem State.modEngine_ports (f : Engine → Engine) : (s.modEngine f).ports = s.ports := rfl
@[simp] theorem State.modEngine_paths (f : Engine → Engine) : (s.modEngine f).paths = s.paths := rfl
@[simp] theorem State.modEngine_pmem (f : Engine → Engine) : (s.modEngine f).pmem = s.pmem := rfl
@[simp] theorem State.modEngine_dbOcLater (f : Engine → Engine) : (s.modEngine f).dbOcLater = s.dbOcLater := rfl
@[simp] theorem State.modEngine_seq (f : Engine → Engine) : (s.modEngine f).seq = s.seq := rfl
@[simp] theorem State.modEngine_links (f : Engine → Engine) : (s.modEngine f).links = s.links := rfl
@[simp] theorem State.modEngine_hosts (f : Engine → Engine) : (s.modEngine f).hosts = s.hosts := rfl
@[simp] theorem State.modEngine_tenancy (f : Engine → Engine) : (s.modEngine f).tenancy = s.tenancy := rfl
@[simp] theorem State.modEngine_tcv (f : Engine → Engine) : (s.modEngine f).tcv = s.tcv := rfl
@[simp] theorem State.modEngine_thmBad (f : Engine → Engine) : (s.modEngine f).thmBad = s.thmBad := rfl
@[simp] theorem State.modEngine_cores (f : Engine → Engine) : (s.modEngine f).cores = s.cores := rfl
@[simp] theorem State.modEngine_live (f : Engine → Engine) : (s.modEngine f).live = s.live := rfl
@[simp] theorem State.modEngine_tst (f : Engine → Engine) : (s.modEngine f).tst = s.tst := rfl
@[simp] theorem State.modEngine_regBad (f : Engine → Engine) : (s.modEngine f).regBad = s.regBad := rfl
@[simp] theorem State.modEngine_applet (f : Engine → Engine) : (s.modEngine f).applet = s.applet := rfl
@[simp] theorem State.modEngine_appletsDue (f : Engine → Engine) : (s.modEngine f).appletsDue = s.appletsDue := rfl
@[simp] theorem State.modEngine_reg_read (f : Engine → Engine) (x : Nat) : (s.modEngine f).reg x = s.reg x := rfl
@[simp] theorem State.modEngine_fld_read (f : Engine → Engine) (x : Fld) : (s.modEngine f).fld x = s.fld x := rfl
@[simp] theorem State.modEngine_sfld_read (f : Engine → Engine) (x : Fld) : (s.modEngine f).sfld x = s.sfld x := rfl
@[simp] theorem State.modEngine_bit_read (f : Engine → Engine) (x : Fld) : (s.modEngine f).bit x = s.bit x := rfl
@[simp] theorem State.modEngine_actReg_read (f : Engine → Engine) (x : Nat) : (s.modEngine f).actReg x = s.actReg x := rfl
@[simp] theorem State.modEngine_afld_read (f : Engine → Engine) (x : Fld) : (s.modEngine f).afld x = s.afld x := rfl
@[simp] theorem State.modEngine_chan_read (f : Engine → Engine) (x : Chan) : (s.modEngine f).chan x = s.chan x := rfl
@[simp] theorem State.modEngine_loop_read (f : Engine → Engine) (x : Loop) : (s.modEngine f).loop x = s.loop x := rfl
@[simp] theorem State.modEngine_port_read (f : Engine → Engine) (x : Port) : (s.modEngine f).port x = s.port x := rfl
@[simp] theorem State.modEngine_path_read (f : Engine → Engine) (x : Port) : (s.modEngine f).path x = s.path x := rfl
@[simp] theorem State.modEngine_core_read (f : Engine → Engine) (x : Core) : (s.modEngine f).core x = s.core x := rfl

/-! ### modKpr -/

@[simp] theorem State.modKpr_pending (f : Keeper → Keeper) : (s.modKpr f).pending = s.pending := rfl
@[simp] theorem State.modKpr_regs (f : Keeper → Keeper) : (s.modKpr f).regs = s.regs := rfl
@[simp] theorem State.modKpr_act (f : Keeper → Keeper) : (s.modKpr f).act = s.act := rfl
@[simp] theorem State.modKpr_sram (f : Keeper → Keeper) : (s.modKpr f).sram = s.sram := rfl
@[simp] theorem State.modKpr_sramBad (f : Keeper → Keeper) : (s.modKpr f).sramBad = s.sramBad := rfl
@[simp] theorem State.modKpr_out (f : Keeper → Keeper) : (s.modKpr f).out = s.out := rfl
@[simp] theorem State.modKpr_freeCtr (f : Keeper → Keeper) : (s.modKpr f).freeCtr = s.freeCtr := rfl
@[simp] theorem State.modKpr_power (f : Keeper → Keeper) : (s.modKpr f).power = s.power := rfl
@[simp] theorem State.modKpr_boot (f : Keeper → Keeper) : (s.modKpr f).boot = s.boot := rfl
@[simp] theorem State.modKpr_engine (f : Keeper → Keeper) : (s.modKpr f).engine = s.engine := rfl
@[simp] theorem State.modKpr_chans (f : Keeper → Keeper) : (s.modKpr f).chans = s.chans := rfl
@[simp] theorem State.modKpr_loops (f : Keeper → Keeper) : (s.modKpr f).loops = s.loops := rfl
@[simp] theorem State.modKpr_kpr (f : Keeper → Keeper) : (s.modKpr f).kpr = f s.kpr := rfl
@[simp] theorem State.modKpr_recorder (f : Keeper → Keeper) : (s.modKpr f).recorder = s.recorder := rfl
@[simp] theorem State.modKpr_ports (f : Keeper → Keeper) : (s.modKpr f).ports = s.ports := rfl
@[simp] theorem State.modKpr_paths (f : Keeper → Keeper) : (s.modKpr f).paths = s.paths := rfl
@[simp] theorem State.modKpr_pmem (f : Keeper → Keeper) : (s.modKpr f).pmem = s.pmem := rfl
@[simp] theorem State.modKpr_dbOcLater (f : Keeper → Keeper) : (s.modKpr f).dbOcLater = s.dbOcLater := rfl
@[simp] theorem State.modKpr_seq (f : Keeper → Keeper) : (s.modKpr f).seq = s.seq := rfl
@[simp] theorem State.modKpr_links (f : Keeper → Keeper) : (s.modKpr f).links = s.links := rfl
@[simp] theorem State.modKpr_hosts (f : Keeper → Keeper) : (s.modKpr f).hosts = s.hosts := rfl
@[simp] theorem State.modKpr_tenancy (f : Keeper → Keeper) : (s.modKpr f).tenancy = s.tenancy := rfl
@[simp] theorem State.modKpr_tcv (f : Keeper → Keeper) : (s.modKpr f).tcv = s.tcv := rfl
@[simp] theorem State.modKpr_thmBad (f : Keeper → Keeper) : (s.modKpr f).thmBad = s.thmBad := rfl
@[simp] theorem State.modKpr_cores (f : Keeper → Keeper) : (s.modKpr f).cores = s.cores := rfl
@[simp] theorem State.modKpr_live (f : Keeper → Keeper) : (s.modKpr f).live = s.live := rfl
@[simp] theorem State.modKpr_tst (f : Keeper → Keeper) : (s.modKpr f).tst = s.tst := rfl
@[simp] theorem State.modKpr_regBad (f : Keeper → Keeper) : (s.modKpr f).regBad = s.regBad := rfl
@[simp] theorem State.modKpr_applet (f : Keeper → Keeper) : (s.modKpr f).applet = s.applet := rfl
@[simp] theorem State.modKpr_appletsDue (f : Keeper → Keeper) : (s.modKpr f).appletsDue = s.appletsDue := rfl
@[simp] theorem State.modKpr_reg_read (f : Keeper → Keeper) (x : Nat) : (s.modKpr f).reg x = s.reg x := rfl
@[simp] theorem State.modKpr_fld_read (f : Keeper → Keeper) (x : Fld) : (s.modKpr f).fld x = s.fld x := rfl
@[simp] theorem State.modKpr_sfld_read (f : Keeper → Keeper) (x : Fld) : (s.modKpr f).sfld x = s.sfld x := rfl
@[simp] theorem State.modKpr_bit_read (f : Keeper → Keeper) (x : Fld) : (s.modKpr f).bit x = s.bit x := rfl
@[simp] theorem State.modKpr_actReg_read (f : Keeper → Keeper) (x : Nat) : (s.modKpr f).actReg x = s.actReg x := rfl
@[simp] theorem State.modKpr_afld_read (f : Keeper → Keeper) (x : Fld) : (s.modKpr f).afld x = s.afld x := rfl
@[simp] theorem State.modKpr_chan_read (f : Keeper → Keeper) (x : Chan) : (s.modKpr f).chan x = s.chan x := rfl
@[simp] theorem State.modKpr_loop_read (f : Keeper → Keeper) (x : Loop) : (s.modKpr f).loop x = s.loop x := rfl
@[simp] theorem State.modKpr_port_read (f : Keeper → Keeper) (x : Port) : (s.modKpr f).port x = s.port x := rfl
@[simp] theorem State.modKpr_path_read (f : Keeper → Keeper) (x : Port) : (s.modKpr f).path x = s.path x := rfl
@[simp] theorem State.modKpr_core_read (f : Keeper → Keeper) (x : Core) : (s.modKpr f).core x = s.core x := rfl

/-! ### modRec -/

@[simp] theorem State.modRec_pending (f : Recorder → Recorder) : (s.modRec f).pending = s.pending := rfl
@[simp] theorem State.modRec_regs (f : Recorder → Recorder) : (s.modRec f).regs = s.regs := rfl
@[simp] theorem State.modRec_act (f : Recorder → Recorder) : (s.modRec f).act = s.act := rfl
@[simp] theorem State.modRec_sram (f : Recorder → Recorder) : (s.modRec f).sram = s.sram := rfl
@[simp] theorem State.modRec_sramBad (f : Recorder → Recorder) : (s.modRec f).sramBad = s.sramBad := rfl
@[simp] theorem State.modRec_out (f : Recorder → Recorder) : (s.modRec f).out = s.out := rfl
@[simp] theorem State.modRec_freeCtr (f : Recorder → Recorder) : (s.modRec f).freeCtr = s.freeCtr := rfl
@[simp] theorem State.modRec_power (f : Recorder → Recorder) : (s.modRec f).power = s.power := rfl
@[simp] theorem State.modRec_boot (f : Recorder → Recorder) : (s.modRec f).boot = s.boot := rfl
@[simp] theorem State.modRec_engine (f : Recorder → Recorder) : (s.modRec f).engine = s.engine := rfl
@[simp] theorem State.modRec_chans (f : Recorder → Recorder) : (s.modRec f).chans = s.chans := rfl
@[simp] theorem State.modRec_loops (f : Recorder → Recorder) : (s.modRec f).loops = s.loops := rfl
@[simp] theorem State.modRec_kpr (f : Recorder → Recorder) : (s.modRec f).kpr = s.kpr := rfl
@[simp] theorem State.modRec_recorder (f : Recorder → Recorder) : (s.modRec f).recorder = f s.recorder := rfl
@[simp] theorem State.modRec_ports (f : Recorder → Recorder) : (s.modRec f).ports = s.ports := rfl
@[simp] theorem State.modRec_paths (f : Recorder → Recorder) : (s.modRec f).paths = s.paths := rfl
@[simp] theorem State.modRec_pmem (f : Recorder → Recorder) : (s.modRec f).pmem = s.pmem := rfl
@[simp] theorem State.modRec_dbOcLater (f : Recorder → Recorder) : (s.modRec f).dbOcLater = s.dbOcLater := rfl
@[simp] theorem State.modRec_seq (f : Recorder → Recorder) : (s.modRec f).seq = s.seq := rfl
@[simp] theorem State.modRec_links (f : Recorder → Recorder) : (s.modRec f).links = s.links := rfl
@[simp] theorem State.modRec_hosts (f : Recorder → Recorder) : (s.modRec f).hosts = s.hosts := rfl
@[simp] theorem State.modRec_tenancy (f : Recorder → Recorder) : (s.modRec f).tenancy = s.tenancy := rfl
@[simp] theorem State.modRec_tcv (f : Recorder → Recorder) : (s.modRec f).tcv = s.tcv := rfl
@[simp] theorem State.modRec_thmBad (f : Recorder → Recorder) : (s.modRec f).thmBad = s.thmBad := rfl
@[simp] theorem State.modRec_cores (f : Recorder → Recorder) : (s.modRec f).cores = s.cores := rfl
@[simp] theorem State.modRec_live (f : Recorder → Recorder) : (s.modRec f).live = s.live := rfl
@[simp] theorem State.modRec_tst (f : Recorder → Recorder) : (s.modRec f).tst = s.tst := rfl
@[simp] theorem State.modRec_regBad (f : Recorder → Recorder) : (s.modRec f).regBad = s.regBad := rfl
@[simp] theorem State.modRec_applet (f : Recorder → Recorder) : (s.modRec f).applet = s.applet := rfl
@[simp] theorem State.modRec_appletsDue (f : Recorder → Recorder) : (s.modRec f).appletsDue = s.appletsDue := rfl
@[simp] theorem State.modRec_reg_read (f : Recorder → Recorder) (x : Nat) : (s.modRec f).reg x = s.reg x := rfl
@[simp] theorem State.modRec_fld_read (f : Recorder → Recorder) (x : Fld) : (s.modRec f).fld x = s.fld x := rfl
@[simp] theorem State.modRec_sfld_read (f : Recorder → Recorder) (x : Fld) : (s.modRec f).sfld x = s.sfld x := rfl
@[simp] theorem State.modRec_bit_read (f : Recorder → Recorder) (x : Fld) : (s.modRec f).bit x = s.bit x := rfl
@[simp] theorem State.modRec_actReg_read (f : Recorder → Recorder) (x : Nat) : (s.modRec f).actReg x = s.actReg x := rfl
@[simp] theorem State.modRec_afld_read (f : Recorder → Recorder) (x : Fld) : (s.modRec f).afld x = s.afld x := rfl
@[simp] theorem State.modRec_chan_read (f : Recorder → Recorder) (x : Chan) : (s.modRec f).chan x = s.chan x := rfl
@[simp] theorem State.modRec_loop_read (f : Recorder → Recorder) (x : Loop) : (s.modRec f).loop x = s.loop x := rfl
@[simp] theorem State.modRec_port_read (f : Recorder → Recorder) (x : Port) : (s.modRec f).port x = s.port x := rfl
@[simp] theorem State.modRec_path_read (f : Recorder → Recorder) (x : Port) : (s.modRec f).path x = s.path x := rfl
@[simp] theorem State.modRec_core_read (f : Recorder → Recorder) (x : Core) : (s.modRec f).core x = s.core x := rfl

/-! ### modPort -/

@[simp] theorem State.modPort_pending (p : Port) (f : PortState → PortState) : (s.modPort p f).pending = s.pending := rfl
@[simp] theorem State.modPort_regs (p : Port) (f : PortState → PortState) : (s.modPort p f).regs = s.regs := rfl
@[simp] theorem State.modPort_act (p : Port) (f : PortState → PortState) : (s.modPort p f).act = s.act := rfl
@[simp] theorem State.modPort_sram (p : Port) (f : PortState → PortState) : (s.modPort p f).sram = s.sram := rfl
@[simp] theorem State.modPort_sramBad (p : Port) (f : PortState → PortState) : (s.modPort p f).sramBad = s.sramBad := rfl
@[simp] theorem State.modPort_out (p : Port) (f : PortState → PortState) : (s.modPort p f).out = s.out := rfl
@[simp] theorem State.modPort_freeCtr (p : Port) (f : PortState → PortState) : (s.modPort p f).freeCtr = s.freeCtr := rfl
@[simp] theorem State.modPort_power (p : Port) (f : PortState → PortState) : (s.modPort p f).power = s.power := rfl
@[simp] theorem State.modPort_boot (p : Port) (f : PortState → PortState) : (s.modPort p f).boot = s.boot := rfl
@[simp] theorem State.modPort_engine (p : Port) (f : PortState → PortState) : (s.modPort p f).engine = s.engine := rfl
@[simp] theorem State.modPort_chans (p : Port) (f : PortState → PortState) : (s.modPort p f).chans = s.chans := rfl
@[simp] theorem State.modPort_loops (p : Port) (f : PortState → PortState) : (s.modPort p f).loops = s.loops := rfl
@[simp] theorem State.modPort_kpr (p : Port) (f : PortState → PortState) : (s.modPort p f).kpr = s.kpr := rfl
@[simp] theorem State.modPort_recorder (p : Port) (f : PortState → PortState) : (s.modPort p f).recorder = s.recorder := rfl
@[simp] theorem State.modPort_paths (p : Port) (f : PortState → PortState) : (s.modPort p f).paths = s.paths := rfl
@[simp] theorem State.modPort_pmem (p : Port) (f : PortState → PortState) : (s.modPort p f).pmem = s.pmem := rfl
@[simp] theorem State.modPort_dbOcLater (p : Port) (f : PortState → PortState) : (s.modPort p f).dbOcLater = s.dbOcLater := rfl
@[simp] theorem State.modPort_seq (p : Port) (f : PortState → PortState) : (s.modPort p f).seq = s.seq := rfl
@[simp] theorem State.modPort_links (p : Port) (f : PortState → PortState) : (s.modPort p f).links = s.links := rfl
@[simp] theorem State.modPort_hosts (p : Port) (f : PortState → PortState) : (s.modPort p f).hosts = s.hosts := rfl
@[simp] theorem State.modPort_tenancy (p : Port) (f : PortState → PortState) : (s.modPort p f).tenancy = s.tenancy := rfl
@[simp] theorem State.modPort_tcv (p : Port) (f : PortState → PortState) : (s.modPort p f).tcv = s.tcv := rfl
@[simp] theorem State.modPort_thmBad (p : Port) (f : PortState → PortState) : (s.modPort p f).thmBad = s.thmBad := rfl
@[simp] theorem State.modPort_cores (p : Port) (f : PortState → PortState) : (s.modPort p f).cores = s.cores := rfl
@[simp] theorem State.modPort_live (p : Port) (f : PortState → PortState) : (s.modPort p f).live = s.live := rfl
@[simp] theorem State.modPort_tst (p : Port) (f : PortState → PortState) : (s.modPort p f).tst = s.tst := rfl
@[simp] theorem State.modPort_regBad (p : Port) (f : PortState → PortState) : (s.modPort p f).regBad = s.regBad := rfl
@[simp] theorem State.modPort_applet (p : Port) (f : PortState → PortState) : (s.modPort p f).applet = s.applet := rfl
@[simp] theorem State.modPort_appletsDue (p : Port) (f : PortState → PortState) : (s.modPort p f).appletsDue = s.appletsDue := rfl
@[simp] theorem State.modPort_reg_read (p : Port) (f : PortState → PortState) (x : Nat) : (s.modPort p f).reg x = s.reg x := rfl
@[simp] theorem State.modPort_fld_read (p : Port) (f : PortState → PortState) (x : Fld) : (s.modPort p f).fld x = s.fld x := rfl
@[simp] theorem State.modPort_sfld_read (p : Port) (f : PortState → PortState) (x : Fld) : (s.modPort p f).sfld x = s.sfld x := rfl
@[simp] theorem State.modPort_bit_read (p : Port) (f : PortState → PortState) (x : Fld) : (s.modPort p f).bit x = s.bit x := rfl
@[simp] theorem State.modPort_actReg_read (p : Port) (f : PortState → PortState) (x : Nat) : (s.modPort p f).actReg x = s.actReg x := rfl
@[simp] theorem State.modPort_afld_read (p : Port) (f : PortState → PortState) (x : Fld) : (s.modPort p f).afld x = s.afld x := rfl
@[simp] theorem State.modPort_chan_read (p : Port) (f : PortState → PortState) (x : Chan) : (s.modPort p f).chan x = s.chan x := rfl
@[simp] theorem State.modPort_loop_read (p : Port) (f : PortState → PortState) (x : Loop) : (s.modPort p f).loop x = s.loop x := rfl
@[simp] theorem State.modPort_path_read (p : Port) (f : PortState → PortState) (x : Port) : (s.modPort p f).path x = s.path x := rfl
@[simp] theorem State.modPort_core_read (p : Port) (f : PortState → PortState) (x : Core) : (s.modPort p f).core x = s.core x := rfl

/-! ### modPath -/

@[simp] theorem State.modPath_pending (p : Port) (f : PathState → PathState) : (s.modPath p f).pending = s.pending := rfl
@[simp] theorem State.modPath_regs (p : Port) (f : PathState → PathState) : (s.modPath p f).regs = s.regs := rfl
@[simp] theorem State.modPath_act (p : Port) (f : PathState → PathState) : (s.modPath p f).act = s.act := rfl
@[simp] theorem State.modPath_sram (p : Port) (f : PathState → PathState) : (s.modPath p f).sram = s.sram := rfl
@[simp] theorem State.modPath_sramBad (p : Port) (f : PathState → PathState) : (s.modPath p f).sramBad = s.sramBad := rfl
@[simp] theorem State.modPath_out (p : Port) (f : PathState → PathState) : (s.modPath p f).out = s.out := rfl
@[simp] theorem State.modPath_freeCtr (p : Port) (f : PathState → PathState) : (s.modPath p f).freeCtr = s.freeCtr := rfl
@[simp] theorem State.modPath_power (p : Port) (f : PathState → PathState) : (s.modPath p f).power = s.power := rfl
@[simp] theorem State.modPath_boot (p : Port) (f : PathState → PathState) : (s.modPath p f).boot = s.boot := rfl
@[simp] theorem State.modPath_engine (p : Port) (f : PathState → PathState) : (s.modPath p f).engine = s.engine := rfl
@[simp] theorem State.modPath_chans (p : Port) (f : PathState → PathState) : (s.modPath p f).chans = s.chans := rfl
@[simp] theorem State.modPath_loops (p : Port) (f : PathState → PathState) : (s.modPath p f).loops = s.loops := rfl
@[simp] theorem State.modPath_kpr (p : Port) (f : PathState → PathState) : (s.modPath p f).kpr = s.kpr := rfl
@[simp] theorem State.modPath_recorder (p : Port) (f : PathState → PathState) : (s.modPath p f).recorder = s.recorder := rfl
@[simp] theorem State.modPath_ports (p : Port) (f : PathState → PathState) : (s.modPath p f).ports = s.ports := rfl
@[simp] theorem State.modPath_pmem (p : Port) (f : PathState → PathState) : (s.modPath p f).pmem = s.pmem := rfl
@[simp] theorem State.modPath_dbOcLater (p : Port) (f : PathState → PathState) : (s.modPath p f).dbOcLater = s.dbOcLater := rfl
@[simp] theorem State.modPath_seq (p : Port) (f : PathState → PathState) : (s.modPath p f).seq = s.seq := rfl
@[simp] theorem State.modPath_links (p : Port) (f : PathState → PathState) : (s.modPath p f).links = s.links := rfl
@[simp] theorem State.modPath_hosts (p : Port) (f : PathState → PathState) : (s.modPath p f).hosts = s.hosts := rfl
@[simp] theorem State.modPath_tenancy (p : Port) (f : PathState → PathState) : (s.modPath p f).tenancy = s.tenancy := rfl
@[simp] theorem State.modPath_tcv (p : Port) (f : PathState → PathState) : (s.modPath p f).tcv = s.tcv := rfl
@[simp] theorem State.modPath_thmBad (p : Port) (f : PathState → PathState) : (s.modPath p f).thmBad = s.thmBad := rfl
@[simp] theorem State.modPath_cores (p : Port) (f : PathState → PathState) : (s.modPath p f).cores = s.cores := rfl
@[simp] theorem State.modPath_live (p : Port) (f : PathState → PathState) : (s.modPath p f).live = s.live := rfl
@[simp] theorem State.modPath_tst (p : Port) (f : PathState → PathState) : (s.modPath p f).tst = s.tst := rfl
@[simp] theorem State.modPath_regBad (p : Port) (f : PathState → PathState) : (s.modPath p f).regBad = s.regBad := rfl
@[simp] theorem State.modPath_applet (p : Port) (f : PathState → PathState) : (s.modPath p f).applet = s.applet := rfl
@[simp] theorem State.modPath_appletsDue (p : Port) (f : PathState → PathState) : (s.modPath p f).appletsDue = s.appletsDue := rfl
@[simp] theorem State.modPath_reg_read (p : Port) (f : PathState → PathState) (x : Nat) : (s.modPath p f).reg x = s.reg x := rfl
@[simp] theorem State.modPath_fld_read (p : Port) (f : PathState → PathState) (x : Fld) : (s.modPath p f).fld x = s.fld x := rfl
@[simp] theorem State.modPath_sfld_read (p : Port) (f : PathState → PathState) (x : Fld) : (s.modPath p f).sfld x = s.sfld x := rfl
@[simp] theorem State.modPath_bit_read (p : Port) (f : PathState → PathState) (x : Fld) : (s.modPath p f).bit x = s.bit x := rfl
@[simp] theorem State.modPath_actReg_read (p : Port) (f : PathState → PathState) (x : Nat) : (s.modPath p f).actReg x = s.actReg x := rfl
@[simp] theorem State.modPath_afld_read (p : Port) (f : PathState → PathState) (x : Fld) : (s.modPath p f).afld x = s.afld x := rfl
@[simp] theorem State.modPath_chan_read (p : Port) (f : PathState → PathState) (x : Chan) : (s.modPath p f).chan x = s.chan x := rfl
@[simp] theorem State.modPath_loop_read (p : Port) (f : PathState → PathState) (x : Loop) : (s.modPath p f).loop x = s.loop x := rfl
@[simp] theorem State.modPath_port_read (p : Port) (f : PathState → PathState) (x : Port) : (s.modPath p f).port x = s.port x := rfl
@[simp] theorem State.modPath_core_read (p : Port) (f : PathState → PathState) (x : Core) : (s.modPath p f).core x = s.core x := rfl

/-! ### modSeq -/

@[simp] theorem State.modSeq_pending (f : Seq → Seq) : (s.modSeq f).pending = s.pending := rfl
@[simp] theorem State.modSeq_regs (f : Seq → Seq) : (s.modSeq f).regs = s.regs := rfl
@[simp] theorem State.modSeq_act (f : Seq → Seq) : (s.modSeq f).act = s.act := rfl
@[simp] theorem State.modSeq_sram (f : Seq → Seq) : (s.modSeq f).sram = s.sram := rfl
@[simp] theorem State.modSeq_sramBad (f : Seq → Seq) : (s.modSeq f).sramBad = s.sramBad := rfl
@[simp] theorem State.modSeq_out (f : Seq → Seq) : (s.modSeq f).out = s.out := rfl
@[simp] theorem State.modSeq_freeCtr (f : Seq → Seq) : (s.modSeq f).freeCtr = s.freeCtr := rfl
@[simp] theorem State.modSeq_power (f : Seq → Seq) : (s.modSeq f).power = s.power := rfl
@[simp] theorem State.modSeq_boot (f : Seq → Seq) : (s.modSeq f).boot = s.boot := rfl
@[simp] theorem State.modSeq_engine (f : Seq → Seq) : (s.modSeq f).engine = s.engine := rfl
@[simp] theorem State.modSeq_chans (f : Seq → Seq) : (s.modSeq f).chans = s.chans := rfl
@[simp] theorem State.modSeq_loops (f : Seq → Seq) : (s.modSeq f).loops = s.loops := rfl
@[simp] theorem State.modSeq_kpr (f : Seq → Seq) : (s.modSeq f).kpr = s.kpr := rfl
@[simp] theorem State.modSeq_recorder (f : Seq → Seq) : (s.modSeq f).recorder = s.recorder := rfl
@[simp] theorem State.modSeq_ports (f : Seq → Seq) : (s.modSeq f).ports = s.ports := rfl
@[simp] theorem State.modSeq_paths (f : Seq → Seq) : (s.modSeq f).paths = s.paths := rfl
@[simp] theorem State.modSeq_pmem (f : Seq → Seq) : (s.modSeq f).pmem = s.pmem := rfl
@[simp] theorem State.modSeq_dbOcLater (f : Seq → Seq) : (s.modSeq f).dbOcLater = s.dbOcLater := rfl
@[simp] theorem State.modSeq_seq (f : Seq → Seq) : (s.modSeq f).seq = f s.seq := rfl
@[simp] theorem State.modSeq_links (f : Seq → Seq) : (s.modSeq f).links = s.links := rfl
@[simp] theorem State.modSeq_hosts (f : Seq → Seq) : (s.modSeq f).hosts = s.hosts := rfl
@[simp] theorem State.modSeq_tenancy (f : Seq → Seq) : (s.modSeq f).tenancy = s.tenancy := rfl
@[simp] theorem State.modSeq_tcv (f : Seq → Seq) : (s.modSeq f).tcv = s.tcv := rfl
@[simp] theorem State.modSeq_thmBad (f : Seq → Seq) : (s.modSeq f).thmBad = s.thmBad := rfl
@[simp] theorem State.modSeq_cores (f : Seq → Seq) : (s.modSeq f).cores = s.cores := rfl
@[simp] theorem State.modSeq_live (f : Seq → Seq) : (s.modSeq f).live = s.live := rfl
@[simp] theorem State.modSeq_tst (f : Seq → Seq) : (s.modSeq f).tst = s.tst := rfl
@[simp] theorem State.modSeq_regBad (f : Seq → Seq) : (s.modSeq f).regBad = s.regBad := rfl
@[simp] theorem State.modSeq_applet (f : Seq → Seq) : (s.modSeq f).applet = s.applet := rfl
@[simp] theorem State.modSeq_appletsDue (f : Seq → Seq) : (s.modSeq f).appletsDue = s.appletsDue := rfl
@[simp] theorem State.modSeq_reg_read (f : Seq → Seq) (x : Nat) : (s.modSeq f).reg x = s.reg x := rfl
@[simp] theorem State.modSeq_fld_read (f : Seq → Seq) (x : Fld) : (s.modSeq f).fld x = s.fld x := rfl
@[simp] theorem State.modSeq_sfld_read (f : Seq → Seq) (x : Fld) : (s.modSeq f).sfld x = s.sfld x := rfl
@[simp] theorem State.modSeq_bit_read (f : Seq → Seq) (x : Fld) : (s.modSeq f).bit x = s.bit x := rfl
@[simp] theorem State.modSeq_actReg_read (f : Seq → Seq) (x : Nat) : (s.modSeq f).actReg x = s.actReg x := rfl
@[simp] theorem State.modSeq_afld_read (f : Seq → Seq) (x : Fld) : (s.modSeq f).afld x = s.afld x := rfl
@[simp] theorem State.modSeq_chan_read (f : Seq → Seq) (x : Chan) : (s.modSeq f).chan x = s.chan x := rfl
@[simp] theorem State.modSeq_loop_read (f : Seq → Seq) (x : Loop) : (s.modSeq f).loop x = s.loop x := rfl
@[simp] theorem State.modSeq_port_read (f : Seq → Seq) (x : Port) : (s.modSeq f).port x = s.port x := rfl
@[simp] theorem State.modSeq_path_read (f : Seq → Seq) (x : Port) : (s.modSeq f).path x = s.path x := rfl
@[simp] theorem State.modSeq_core_read (f : Seq → Seq) (x : Core) : (s.modSeq f).core x = s.core x := rfl

/-! ### modTcv -/

@[simp] theorem State.modTcv_pending (f : Tcv → Tcv) : (s.modTcv f).pending = s.pending := rfl
@[simp] theorem State.modTcv_regs (f : Tcv → Tcv) : (s.modTcv f).regs = s.regs := rfl
@[simp] theorem State.modTcv_act (f : Tcv → Tcv) : (s.modTcv f).act = s.act := rfl
@[simp] theorem State.modTcv_sram (f : Tcv → Tcv) : (s.modTcv f).sram = s.sram := rfl
@[simp] theorem State.modTcv_sramBad (f : Tcv → Tcv) : (s.modTcv f).sramBad = s.sramBad := rfl
@[simp] theorem State.modTcv_out (f : Tcv → Tcv) : (s.modTcv f).out = s.out := rfl
@[simp] theorem State.modTcv_freeCtr (f : Tcv → Tcv) : (s.modTcv f).freeCtr = s.freeCtr := rfl
@[simp] theorem State.modTcv_power (f : Tcv → Tcv) : (s.modTcv f).power = s.power := rfl
@[simp] theorem State.modTcv_boot (f : Tcv → Tcv) : (s.modTcv f).boot = s.boot := rfl
@[simp] theorem State.modTcv_engine (f : Tcv → Tcv) : (s.modTcv f).engine = s.engine := rfl
@[simp] theorem State.modTcv_chans (f : Tcv → Tcv) : (s.modTcv f).chans = s.chans := rfl
@[simp] theorem State.modTcv_loops (f : Tcv → Tcv) : (s.modTcv f).loops = s.loops := rfl
@[simp] theorem State.modTcv_kpr (f : Tcv → Tcv) : (s.modTcv f).kpr = s.kpr := rfl
@[simp] theorem State.modTcv_recorder (f : Tcv → Tcv) : (s.modTcv f).recorder = s.recorder := rfl
@[simp] theorem State.modTcv_ports (f : Tcv → Tcv) : (s.modTcv f).ports = s.ports := rfl
@[simp] theorem State.modTcv_paths (f : Tcv → Tcv) : (s.modTcv f).paths = s.paths := rfl
@[simp] theorem State.modTcv_pmem (f : Tcv → Tcv) : (s.modTcv f).pmem = s.pmem := rfl
@[simp] theorem State.modTcv_dbOcLater (f : Tcv → Tcv) : (s.modTcv f).dbOcLater = s.dbOcLater := rfl
@[simp] theorem State.modTcv_seq (f : Tcv → Tcv) : (s.modTcv f).seq = s.seq := rfl
@[simp] theorem State.modTcv_links (f : Tcv → Tcv) : (s.modTcv f).links = s.links := rfl
@[simp] theorem State.modTcv_hosts (f : Tcv → Tcv) : (s.modTcv f).hosts = s.hosts := rfl
@[simp] theorem State.modTcv_tenancy (f : Tcv → Tcv) : (s.modTcv f).tenancy = s.tenancy := rfl
@[simp] theorem State.modTcv_tcv (f : Tcv → Tcv) : (s.modTcv f).tcv = f s.tcv := rfl
@[simp] theorem State.modTcv_thmBad (f : Tcv → Tcv) : (s.modTcv f).thmBad = s.thmBad := rfl
@[simp] theorem State.modTcv_cores (f : Tcv → Tcv) : (s.modTcv f).cores = s.cores := rfl
@[simp] theorem State.modTcv_live (f : Tcv → Tcv) : (s.modTcv f).live = s.live := rfl
@[simp] theorem State.modTcv_tst (f : Tcv → Tcv) : (s.modTcv f).tst = s.tst := rfl
@[simp] theorem State.modTcv_regBad (f : Tcv → Tcv) : (s.modTcv f).regBad = s.regBad := rfl
@[simp] theorem State.modTcv_applet (f : Tcv → Tcv) : (s.modTcv f).applet = s.applet := rfl
@[simp] theorem State.modTcv_appletsDue (f : Tcv → Tcv) : (s.modTcv f).appletsDue = s.appletsDue := rfl
@[simp] theorem State.modTcv_reg_read (f : Tcv → Tcv) (x : Nat) : (s.modTcv f).reg x = s.reg x := rfl
@[simp] theorem State.modTcv_fld_read (f : Tcv → Tcv) (x : Fld) : (s.modTcv f).fld x = s.fld x := rfl
@[simp] theorem State.modTcv_sfld_read (f : Tcv → Tcv) (x : Fld) : (s.modTcv f).sfld x = s.sfld x := rfl
@[simp] theorem State.modTcv_bit_read (f : Tcv → Tcv) (x : Fld) : (s.modTcv f).bit x = s.bit x := rfl
@[simp] theorem State.modTcv_actReg_read (f : Tcv → Tcv) (x : Nat) : (s.modTcv f).actReg x = s.actReg x := rfl
@[simp] theorem State.modTcv_afld_read (f : Tcv → Tcv) (x : Fld) : (s.modTcv f).afld x = s.afld x := rfl
@[simp] theorem State.modTcv_chan_read (f : Tcv → Tcv) (x : Chan) : (s.modTcv f).chan x = s.chan x := rfl
@[simp] theorem State.modTcv_loop_read (f : Tcv → Tcv) (x : Loop) : (s.modTcv f).loop x = s.loop x := rfl
@[simp] theorem State.modTcv_port_read (f : Tcv → Tcv) (x : Port) : (s.modTcv f).port x = s.port x := rfl
@[simp] theorem State.modTcv_path_read (f : Tcv → Tcv) (x : Port) : (s.modTcv f).path x = s.path x := rfl
@[simp] theorem State.modTcv_core_read (f : Tcv → Tcv) (x : Core) : (s.modTcv f).core x = s.core x := rfl

/-! ### modLive -/

@[simp] theorem State.modLive_pending (f : Live → Live) : (s.modLive f).pending = s.pending := rfl
@[simp] theorem State.modLive_regs (f : Live → Live) : (s.modLive f).regs = s.regs := rfl
@[simp] theorem State.modLive_act (f : Live → Live) : (s.modLive f).act = s.act := rfl
@[simp] theorem State.modLive_sram (f : Live → Live) : (s.modLive f).sram = s.sram := rfl
@[simp] theorem State.modLive_sramBad (f : Live → Live) : (s.modLive f).sramBad = s.sramBad := rfl
@[simp] theorem State.modLive_out (f : Live → Live) : (s.modLive f).out = s.out := rfl
@[simp] theorem State.modLive_freeCtr (f : Live → Live) : (s.modLive f).freeCtr = s.freeCtr := rfl
@[simp] theorem State.modLive_power (f : Live → Live) : (s.modLive f).power = s.power := rfl
@[simp] theorem State.modLive_boot (f : Live → Live) : (s.modLive f).boot = s.boot := rfl
@[simp] theorem State.modLive_engine (f : Live → Live) : (s.modLive f).engine = s.engine := rfl
@[simp] theorem State.modLive_chans (f : Live → Live) : (s.modLive f).chans = s.chans := rfl
@[simp] theorem State.modLive_loops (f : Live → Live) : (s.modLive f).loops = s.loops := rfl
@[simp] theorem State.modLive_kpr (f : Live → Live) : (s.modLive f).kpr = s.kpr := rfl
@[simp] theorem State.modLive_recorder (f : Live → Live) : (s.modLive f).recorder = s.recorder := rfl
@[simp] theorem State.modLive_ports (f : Live → Live) : (s.modLive f).ports = s.ports := rfl
@[simp] theorem State.modLive_paths (f : Live → Live) : (s.modLive f).paths = s.paths := rfl
@[simp] theorem State.modLive_pmem (f : Live → Live) : (s.modLive f).pmem = s.pmem := rfl
@[simp] theorem State.modLive_dbOcLater (f : Live → Live) : (s.modLive f).dbOcLater = s.dbOcLater := rfl
@[simp] theorem State.modLive_seq (f : Live → Live) : (s.modLive f).seq = s.seq := rfl
@[simp] theorem State.modLive_links (f : Live → Live) : (s.modLive f).links = s.links := rfl
@[simp] theorem State.modLive_hosts (f : Live → Live) : (s.modLive f).hosts = s.hosts := rfl
@[simp] theorem State.modLive_tenancy (f : Live → Live) : (s.modLive f).tenancy = s.tenancy := rfl
@[simp] theorem State.modLive_tcv (f : Live → Live) : (s.modLive f).tcv = s.tcv := rfl
@[simp] theorem State.modLive_thmBad (f : Live → Live) : (s.modLive f).thmBad = s.thmBad := rfl
@[simp] theorem State.modLive_cores (f : Live → Live) : (s.modLive f).cores = s.cores := rfl
@[simp] theorem State.modLive_live (f : Live → Live) : (s.modLive f).live = f s.live := rfl
@[simp] theorem State.modLive_tst (f : Live → Live) : (s.modLive f).tst = s.tst := rfl
@[simp] theorem State.modLive_regBad (f : Live → Live) : (s.modLive f).regBad = s.regBad := rfl
@[simp] theorem State.modLive_applet (f : Live → Live) : (s.modLive f).applet = s.applet := rfl
@[simp] theorem State.modLive_appletsDue (f : Live → Live) : (s.modLive f).appletsDue = s.appletsDue := rfl
@[simp] theorem State.modLive_reg_read (f : Live → Live) (x : Nat) : (s.modLive f).reg x = s.reg x := rfl
@[simp] theorem State.modLive_fld_read (f : Live → Live) (x : Fld) : (s.modLive f).fld x = s.fld x := rfl
@[simp] theorem State.modLive_sfld_read (f : Live → Live) (x : Fld) : (s.modLive f).sfld x = s.sfld x := rfl
@[simp] theorem State.modLive_bit_read (f : Live → Live) (x : Fld) : (s.modLive f).bit x = s.bit x := rfl
@[simp] theorem State.modLive_actReg_read (f : Live → Live) (x : Nat) : (s.modLive f).actReg x = s.actReg x := rfl
@[simp] theorem State.modLive_afld_read (f : Live → Live) (x : Fld) : (s.modLive f).afld x = s.afld x := rfl
@[simp] theorem State.modLive_chan_read (f : Live → Live) (x : Chan) : (s.modLive f).chan x = s.chan x := rfl
@[simp] theorem State.modLive_loop_read (f : Live → Live) (x : Loop) : (s.modLive f).loop x = s.loop x := rfl
@[simp] theorem State.modLive_port_read (f : Live → Live) (x : Port) : (s.modLive f).port x = s.port x := rfl
@[simp] theorem State.modLive_path_read (f : Live → Live) (x : Port) : (s.modLive f).path x = s.path x := rfl
@[simp] theorem State.modLive_core_read (f : Live → Live) (x : Core) : (s.modLive f).core x = s.core x := rfl

/-! ### modTst -/

@[simp] theorem State.modTst_pending (f : Tst → Tst) : (s.modTst f).pending = s.pending := rfl
@[simp] theorem State.modTst_regs (f : Tst → Tst) : (s.modTst f).regs = s.regs := rfl
@[simp] theorem State.modTst_act (f : Tst → Tst) : (s.modTst f).act = s.act := rfl
@[simp] theorem State.modTst_sram (f : Tst → Tst) : (s.modTst f).sram = s.sram := rfl
@[simp] theorem State.modTst_sramBad (f : Tst → Tst) : (s.modTst f).sramBad = s.sramBad := rfl
@[simp] theorem State.modTst_out (f : Tst → Tst) : (s.modTst f).out = s.out := rfl
@[simp] theorem State.modTst_freeCtr (f : Tst → Tst) : (s.modTst f).freeCtr = s.freeCtr := rfl
@[simp] theorem State.modTst_power (f : Tst → Tst) : (s.modTst f).power = s.power := rfl
@[simp] theorem State.modTst_boot (f : Tst → Tst) : (s.modTst f).boot = s.boot := rfl
@[simp] theorem State.modTst_engine (f : Tst → Tst) : (s.modTst f).engine = s.engine := rfl
@[simp] theorem State.modTst_chans (f : Tst → Tst) : (s.modTst f).chans = s.chans := rfl
@[simp] theorem State.modTst_loops (f : Tst → Tst) : (s.modTst f).loops = s.loops := rfl
@[simp] theorem State.modTst_kpr (f : Tst → Tst) : (s.modTst f).kpr = s.kpr := rfl
@[simp] theorem State.modTst_recorder (f : Tst → Tst) : (s.modTst f).recorder = s.recorder := rfl
@[simp] theorem State.modTst_ports (f : Tst → Tst) : (s.modTst f).ports = s.ports := rfl
@[simp] theorem State.modTst_paths (f : Tst → Tst) : (s.modTst f).paths = s.paths := rfl
@[simp] theorem State.modTst_pmem (f : Tst → Tst) : (s.modTst f).pmem = s.pmem := rfl
@[simp] theorem State.modTst_dbOcLater (f : Tst → Tst) : (s.modTst f).dbOcLater = s.dbOcLater := rfl
@[simp] theorem State.modTst_seq (f : Tst → Tst) : (s.modTst f).seq = s.seq := rfl
@[simp] theorem State.modTst_links (f : Tst → Tst) : (s.modTst f).links = s.links := rfl
@[simp] theorem State.modTst_hosts (f : Tst → Tst) : (s.modTst f).hosts = s.hosts := rfl
@[simp] theorem State.modTst_tenancy (f : Tst → Tst) : (s.modTst f).tenancy = s.tenancy := rfl
@[simp] theorem State.modTst_tcv (f : Tst → Tst) : (s.modTst f).tcv = s.tcv := rfl
@[simp] theorem State.modTst_thmBad (f : Tst → Tst) : (s.modTst f).thmBad = s.thmBad := rfl
@[simp] theorem State.modTst_cores (f : Tst → Tst) : (s.modTst f).cores = s.cores := rfl
@[simp] theorem State.modTst_live (f : Tst → Tst) : (s.modTst f).live = s.live := rfl
@[simp] theorem State.modTst_tst (f : Tst → Tst) : (s.modTst f).tst = f s.tst := rfl
@[simp] theorem State.modTst_regBad (f : Tst → Tst) : (s.modTst f).regBad = s.regBad := rfl
@[simp] theorem State.modTst_applet (f : Tst → Tst) : (s.modTst f).applet = s.applet := rfl
@[simp] theorem State.modTst_appletsDue (f : Tst → Tst) : (s.modTst f).appletsDue = s.appletsDue := rfl
@[simp] theorem State.modTst_reg_read (f : Tst → Tst) (x : Nat) : (s.modTst f).reg x = s.reg x := rfl
@[simp] theorem State.modTst_fld_read (f : Tst → Tst) (x : Fld) : (s.modTst f).fld x = s.fld x := rfl
@[simp] theorem State.modTst_sfld_read (f : Tst → Tst) (x : Fld) : (s.modTst f).sfld x = s.sfld x := rfl
@[simp] theorem State.modTst_bit_read (f : Tst → Tst) (x : Fld) : (s.modTst f).bit x = s.bit x := rfl
@[simp] theorem State.modTst_actReg_read (f : Tst → Tst) (x : Nat) : (s.modTst f).actReg x = s.actReg x := rfl
@[simp] theorem State.modTst_afld_read (f : Tst → Tst) (x : Fld) : (s.modTst f).afld x = s.afld x := rfl
@[simp] theorem State.modTst_chan_read (f : Tst → Tst) (x : Chan) : (s.modTst f).chan x = s.chan x := rfl
@[simp] theorem State.modTst_loop_read (f : Tst → Tst) (x : Loop) : (s.modTst f).loop x = s.loop x := rfl
@[simp] theorem State.modTst_port_read (f : Tst → Tst) (x : Port) : (s.modTst f).port x = s.port x := rfl
@[simp] theorem State.modTst_path_read (f : Tst → Tst) (x : Port) : (s.modTst f).path x = s.path x := rfl
@[simp] theorem State.modTst_core_read (f : Tst → Tst) (x : Core) : (s.modTst f).core x = s.core x := rfl

/-! ### modLink -/

@[simp] theorem State.modLink_pending (v : Port) (f : Link → Link) : (s.modLink v f).pending = s.pending := rfl
@[simp] theorem State.modLink_regs (v : Port) (f : Link → Link) : (s.modLink v f).regs = s.regs := rfl
@[simp] theorem State.modLink_act (v : Port) (f : Link → Link) : (s.modLink v f).act = s.act := rfl
@[simp] theorem State.modLink_sram (v : Port) (f : Link → Link) : (s.modLink v f).sram = s.sram := rfl
@[simp] theorem State.modLink_sramBad (v : Port) (f : Link → Link) : (s.modLink v f).sramBad = s.sramBad := rfl
@[simp] theorem State.modLink_out (v : Port) (f : Link → Link) : (s.modLink v f).out = s.out := rfl
@[simp] theorem State.modLink_freeCtr (v : Port) (f : Link → Link) : (s.modLink v f).freeCtr = s.freeCtr := rfl
@[simp] theorem State.modLink_power (v : Port) (f : Link → Link) : (s.modLink v f).power = s.power := rfl
@[simp] theorem State.modLink_boot (v : Port) (f : Link → Link) : (s.modLink v f).boot = s.boot := rfl
@[simp] theorem State.modLink_engine (v : Port) (f : Link → Link) : (s.modLink v f).engine = s.engine := rfl
@[simp] theorem State.modLink_chans (v : Port) (f : Link → Link) : (s.modLink v f).chans = s.chans := rfl
@[simp] theorem State.modLink_loops (v : Port) (f : Link → Link) : (s.modLink v f).loops = s.loops := rfl
@[simp] theorem State.modLink_kpr (v : Port) (f : Link → Link) : (s.modLink v f).kpr = s.kpr := rfl
@[simp] theorem State.modLink_recorder (v : Port) (f : Link → Link) : (s.modLink v f).recorder = s.recorder := rfl
@[simp] theorem State.modLink_ports (v : Port) (f : Link → Link) : (s.modLink v f).ports = s.ports := rfl
@[simp] theorem State.modLink_paths (v : Port) (f : Link → Link) : (s.modLink v f).paths = s.paths := rfl
@[simp] theorem State.modLink_pmem (v : Port) (f : Link → Link) : (s.modLink v f).pmem = s.pmem := rfl
@[simp] theorem State.modLink_dbOcLater (v : Port) (f : Link → Link) : (s.modLink v f).dbOcLater = s.dbOcLater := rfl
@[simp] theorem State.modLink_seq (v : Port) (f : Link → Link) : (s.modLink v f).seq = s.seq := rfl
@[simp] theorem State.modLink_hosts (v : Port) (f : Link → Link) : (s.modLink v f).hosts = s.hosts := rfl
@[simp] theorem State.modLink_tenancy (v : Port) (f : Link → Link) : (s.modLink v f).tenancy = s.tenancy := rfl
@[simp] theorem State.modLink_tcv (v : Port) (f : Link → Link) : (s.modLink v f).tcv = s.tcv := rfl
@[simp] theorem State.modLink_thmBad (v : Port) (f : Link → Link) : (s.modLink v f).thmBad = s.thmBad := rfl
@[simp] theorem State.modLink_cores (v : Port) (f : Link → Link) : (s.modLink v f).cores = s.cores := rfl
@[simp] theorem State.modLink_live (v : Port) (f : Link → Link) : (s.modLink v f).live = s.live := rfl
@[simp] theorem State.modLink_tst (v : Port) (f : Link → Link) : (s.modLink v f).tst = s.tst := rfl
@[simp] theorem State.modLink_regBad (v : Port) (f : Link → Link) : (s.modLink v f).regBad = s.regBad := rfl
@[simp] theorem State.modLink_applet (v : Port) (f : Link → Link) : (s.modLink v f).applet = s.applet := rfl
@[simp] theorem State.modLink_appletsDue (v : Port) (f : Link → Link) : (s.modLink v f).appletsDue = s.appletsDue := rfl
@[simp] theorem State.modLink_reg_read (v : Port) (f : Link → Link) (x : Nat) : (s.modLink v f).reg x = s.reg x := rfl
@[simp] theorem State.modLink_fld_read (v : Port) (f : Link → Link) (x : Fld) : (s.modLink v f).fld x = s.fld x := rfl
@[simp] theorem State.modLink_sfld_read (v : Port) (f : Link → Link) (x : Fld) : (s.modLink v f).sfld x = s.sfld x := rfl
@[simp] theorem State.modLink_bit_read (v : Port) (f : Link → Link) (x : Fld) : (s.modLink v f).bit x = s.bit x := rfl
@[simp] theorem State.modLink_actReg_read (v : Port) (f : Link → Link) (x : Nat) : (s.modLink v f).actReg x = s.actReg x := rfl
@[simp] theorem State.modLink_afld_read (v : Port) (f : Link → Link) (x : Fld) : (s.modLink v f).afld x = s.afld x := rfl
@[simp] theorem State.modLink_chan_read (v : Port) (f : Link → Link) (x : Chan) : (s.modLink v f).chan x = s.chan x := rfl
@[simp] theorem State.modLink_loop_read (v : Port) (f : Link → Link) (x : Loop) : (s.modLink v f).loop x = s.loop x := rfl
@[simp] theorem State.modLink_port_read (v : Port) (f : Link → Link) (x : Port) : (s.modLink v f).port x = s.port x := rfl
@[simp] theorem State.modLink_path_read (v : Port) (f : Link → Link) (x : Port) : (s.modLink v f).path x = s.path x := rfl
@[simp] theorem State.modLink_core_read (v : Port) (f : Link → Link) (x : Core) : (s.modLink v f).core x = s.core x := rfl

/-! ### modHost -/

@[simp] theorem State.modHost_pending (k : HostId) (f : HostPort → HostPort) : (s.modHost k f).pending = s.pending := rfl
@[simp] theorem State.modHost_regs (k : HostId) (f : HostPort → HostPort) : (s.modHost k f).regs = s.regs := rfl
@[simp] theorem State.modHost_act (k : HostId) (f : HostPort → HostPort) : (s.modHost k f).act = s.act := rfl
@[simp] theorem State.modHost_sram (k : HostId) (f : HostPort → HostPort) : (s.modHost k f).sram = s.sram := rfl
@[simp] theorem State.modHost_sramBad (k : HostId) (f : HostPort → HostPort) : (s.modHost k f).sramBad = s.sramBad := rfl
@[simp] theorem State.modHost_out (k : HostId) (f : HostPort → HostPort) : (s.modHost k f).out = s.out := rfl
@[simp] theorem State.modHost_freeCtr (k : HostId) (f : HostPort → HostPort) : (s.modHost k f).freeCtr = s.freeCtr := rfl
@[simp] theorem State.modHost_power (k : HostId) (f : HostPort → HostPort) : (s.modHost k f).power = s.power := rfl
@[simp] theorem State.modHost_boot (k : HostId) (f : HostPort → HostPort) : (s.modHost k f).boot = s.boot := rfl
@[simp] theorem State.modHost_engine (k : HostId) (f : HostPort → HostPort) : (s.modHost k f).engine = s.engine := rfl
@[simp] theorem State.modHost_chans (k : HostId) (f : HostPort → HostPort) : (s.modHost k f).chans = s.chans := rfl
@[simp] theorem State.modHost_loops (k : HostId) (f : HostPort → HostPort) : (s.modHost k f).loops = s.loops := rfl
@[simp] theorem State.modHost_kpr (k : HostId) (f : HostPort → HostPort) : (s.modHost k f).kpr = s.kpr := rfl
@[simp] theorem State.modHost_recorder (k : HostId) (f : HostPort → HostPort) : (s.modHost k f).recorder = s.recorder := rfl
@[simp] theorem State.modHost_ports (k : HostId) (f : HostPort → HostPort) : (s.modHost k f).ports = s.ports := rfl
@[simp] theorem State.modHost_paths (k : HostId) (f : HostPort → HostPort) : (s.modHost k f).paths = s.paths := rfl
@[simp] theorem State.modHost_pmem (k : HostId) (f : HostPort → HostPort) : (s.modHost k f).pmem = s.pmem := rfl
@[simp] theorem State.modHost_dbOcLater (k : HostId) (f : HostPort → HostPort) : (s.modHost k f).dbOcLater = s.dbOcLater := rfl
@[simp] theorem State.modHost_seq (k : HostId) (f : HostPort → HostPort) : (s.modHost k f).seq = s.seq := rfl
@[simp] theorem State.modHost_links (k : HostId) (f : HostPort → HostPort) : (s.modHost k f).links = s.links := rfl
@[simp] theorem State.modHost_tenancy (k : HostId) (f : HostPort → HostPort) : (s.modHost k f).tenancy = s.tenancy := rfl
@[simp] theorem State.modHost_tcv (k : HostId) (f : HostPort → HostPort) : (s.modHost k f).tcv = s.tcv := rfl
@[simp] theorem State.modHost_thmBad (k : HostId) (f : HostPort → HostPort) : (s.modHost k f).thmBad = s.thmBad := rfl
@[simp] theorem State.modHost_cores (k : HostId) (f : HostPort → HostPort) : (s.modHost k f).cores = s.cores := rfl
@[simp] theorem State.modHost_live (k : HostId) (f : HostPort → HostPort) : (s.modHost k f).live = s.live := rfl
@[simp] theorem State.modHost_tst (k : HostId) (f : HostPort → HostPort) : (s.modHost k f).tst = s.tst := rfl
@[simp] theorem State.modHost_regBad (k : HostId) (f : HostPort → HostPort) : (s.modHost k f).regBad = s.regBad := rfl
@[simp] theorem State.modHost_applet (k : HostId) (f : HostPort → HostPort) : (s.modHost k f).applet = s.applet := rfl
@[simp] theorem State.modHost_appletsDue (k : HostId) (f : HostPort → HostPort) : (s.modHost k f).appletsDue = s.appletsDue := rfl
@[simp] theorem State.modHost_reg_read (k : HostId) (f : HostPort → HostPort) (x : Nat) : (s.modHost k f).reg x = s.reg x := rfl
@[simp] theorem State.modHost_fld_read (k : HostId) (f : HostPort → HostPort) (x : Fld) : (s.modHost k f).fld x = s.fld x := rfl
@[simp] theorem State.modHost_sfld_read (k : HostId) (f : HostPort → HostPort) (x : Fld) : (s.modHost k f).sfld x = s.sfld x := rfl
@[simp] theorem State.modHost_bit_read (k : HostId) (f : HostPort → HostPort) (x : Fld) : (s.modHost k f).bit x = s.bit x := rfl
@[simp] theorem State.modHost_actReg_read (k : HostId) (f : HostPort → HostPort) (x : Nat) : (s.modHost k f).actReg x = s.actReg x := rfl
@[simp] theorem State.modHost_afld_read (k : HostId) (f : HostPort → HostPort) (x : Fld) : (s.modHost k f).afld x = s.afld x := rfl
@[simp] theorem State.modHost_chan_read (k : HostId) (f : HostPort → HostPort) (x : Chan) : (s.modHost k f).chan x = s.chan x := rfl
@[simp] theorem State.modHost_loop_read (k : HostId) (f : HostPort → HostPort) (x : Loop) : (s.modHost k f).loop x = s.loop x := rfl
@[simp] theorem State.modHost_port_read (k : HostId) (f : HostPort → HostPort) (x : Port) : (s.modHost k f).port x = s.port x := rfl
@[simp] theorem State.modHost_path_read (k : HostId) (f : HostPort → HostPort) (x : Port) : (s.modHost k f).path x = s.path x := rfl
@[simp] theorem State.modHost_core_read (k : HostId) (f : HostPort → HostPort) (x : Core) : (s.modHost k f).core x = s.core x := rfl

/-! ### modCore -/

@[simp] theorem State.modCore_pending (k : Core) (f : CoreState → CoreState) : (s.modCore k f).pending = s.pending := rfl
@[simp] theorem State.modCore_regs (k : Core) (f : CoreState → CoreState) : (s.modCore k f).regs = s.regs := rfl
@[simp] theorem State.modCore_act (k : Core) (f : CoreState → CoreState) : (s.modCore k f).act = s.act := rfl
@[simp] theorem State.modCore_sram (k : Core) (f : CoreState → CoreState) : (s.modCore k f).sram = s.sram := rfl
@[simp] theorem State.modCore_sramBad (k : Core) (f : CoreState → CoreState) : (s.modCore k f).sramBad = s.sramBad := rfl
@[simp] theorem State.modCore_out (k : Core) (f : CoreState → CoreState) : (s.modCore k f).out = s.out := rfl
@[simp] theorem State.modCore_freeCtr (k : Core) (f : CoreState → CoreState) : (s.modCore k f).freeCtr = s.freeCtr := rfl
@[simp] theorem State.modCore_power (k : Core) (f : CoreState → CoreState) : (s.modCore k f).power = s.power := rfl
@[simp] theorem State.modCore_boot (k : Core) (f : CoreState → CoreState) : (s.modCore k f).boot = s.boot := rfl
@[simp] theorem State.modCore_engine (k : Core) (f : CoreState → CoreState) : (s.modCore k f).engine = s.engine := rfl
@[simp] theorem State.modCore_chans (k : Core) (f : CoreState → CoreState) : (s.modCore k f).chans = s.chans := rfl
@[simp] theorem State.modCore_loops (k : Core) (f : CoreState → CoreState) : (s.modCore k f).loops = s.loops := rfl
@[simp] theorem State.modCore_kpr (k : Core) (f : CoreState → CoreState) : (s.modCore k f).kpr = s.kpr := rfl
@[simp] theorem State.modCore_recorder (k : Core) (f : CoreState → CoreState) : (s.modCore k f).recorder = s.recorder := rfl
@[simp] theorem State.modCore_ports (k : Core) (f : CoreState → CoreState) : (s.modCore k f).ports = s.ports := rfl
@[simp] theorem State.modCore_paths (k : Core) (f : CoreState → CoreState) : (s.modCore k f).paths = s.paths := rfl
@[simp] theorem State.modCore_pmem (k : Core) (f : CoreState → CoreState) : (s.modCore k f).pmem = s.pmem := rfl
@[simp] theorem State.modCore_dbOcLater (k : Core) (f : CoreState → CoreState) : (s.modCore k f).dbOcLater = s.dbOcLater := rfl
@[simp] theorem State.modCore_seq (k : Core) (f : CoreState → CoreState) : (s.modCore k f).seq = s.seq := rfl
@[simp] theorem State.modCore_links (k : Core) (f : CoreState → CoreState) : (s.modCore k f).links = s.links := rfl
@[simp] theorem State.modCore_hosts (k : Core) (f : CoreState → CoreState) : (s.modCore k f).hosts = s.hosts := rfl
@[simp] theorem State.modCore_tenancy (k : Core) (f : CoreState → CoreState) : (s.modCore k f).tenancy = s.tenancy := rfl
@[simp] theorem State.modCore_tcv (k : Core) (f : CoreState → CoreState) : (s.modCore k f).tcv = s.tcv := rfl
@[simp] theorem State.modCore_thmBad (k : Core) (f : CoreState → CoreState) : (s.modCore k f).thmBad = s.thmBad := rfl
@[simp] theorem State.modCore_live (k : Core) (f : CoreState → CoreState) : (s.modCore k f).live = s.live := rfl
@[simp] theorem State.modCore_tst (k : Core) (f : CoreState → CoreState) : (s.modCore k f).tst = s.tst := rfl
@[simp] theorem State.modCore_regBad (k : Core) (f : CoreState → CoreState) : (s.modCore k f).regBad = s.regBad := rfl
@[simp] theorem State.modCore_applet (k : Core) (f : CoreState → CoreState) : (s.modCore k f).applet = s.applet := rfl
@[simp] theorem State.modCore_appletsDue (k : Core) (f : CoreState → CoreState) : (s.modCore k f).appletsDue = s.appletsDue := rfl
@[simp] theorem State.modCore_reg_read (k : Core) (f : CoreState → CoreState) (x : Nat) : (s.modCore k f).reg x = s.reg x := rfl
@[simp] theorem State.modCore_fld_read (k : Core) (f : CoreState → CoreState) (x : Fld) : (s.modCore k f).fld x = s.fld x := rfl
@[simp] theorem State.modCore_sfld_read (k : Core) (f : CoreState → CoreState) (x : Fld) : (s.modCore k f).sfld x = s.sfld x := rfl
@[simp] theorem State.modCore_bit_read (k : Core) (f : CoreState → CoreState) (x : Fld) : (s.modCore k f).bit x = s.bit x := rfl
@[simp] theorem State.modCore_actReg_read (k : Core) (f : CoreState → CoreState) (x : Nat) : (s.modCore k f).actReg x = s.actReg x := rfl
@[simp] theorem State.modCore_afld_read (k : Core) (f : CoreState → CoreState) (x : Fld) : (s.modCore k f).afld x = s.afld x := rfl
@[simp] theorem State.modCore_chan_read (k : Core) (f : CoreState → CoreState) (x : Chan) : (s.modCore k f).chan x = s.chan x := rfl
@[simp] theorem State.modCore_loop_read (k : Core) (f : CoreState → CoreState) (x : Loop) : (s.modCore k f).loop x = s.loop x := rfl
@[simp] theorem State.modCore_port_read (k : Core) (f : CoreState → CoreState) (x : Port) : (s.modCore k f).port x = s.port x := rfl
@[simp] theorem State.modCore_path_read (k : Core) (f : CoreState → CoreState) (x : Port) : (s.modCore k f).path x = s.path x := rfl

/-! ### emit -/

@[simp] theorem State.emit_pending (o : Out) : (s.emit o).pending = s.pending := rfl
@[simp] theorem State.emit_regs (o : Out) : (s.emit o).regs = s.regs := rfl
@[simp] theorem State.emit_act (o : Out) : (s.emit o).act = s.act := rfl
@[simp] theorem State.emit_sram (o : Out) : (s.emit o).sram = s.sram := rfl
@[simp] theorem State.emit_sramBad (o : Out) : (s.emit o).sramBad = s.sramBad := rfl
@[simp] theorem State.emit_freeCtr (o : Out) : (s.emit o).freeCtr = s.freeCtr := rfl
@[simp] theorem State.emit_power (o : Out) : (s.emit o).power = s.power := rfl
@[simp] theorem State.emit_boot (o : Out) : (s.emit o).boot = s.boot := rfl
@[simp] theorem State.emit_engine (o : Out) : (s.emit o).engine = s.engine := rfl
@[simp] theorem State.emit_chans (o : Out) : (s.emit o).chans = s.chans := rfl
@[simp] theorem State.emit_loops (o : Out) : (s.emit o).loops = s.loops := rfl
@[simp] theorem State.emit_kpr (o : Out) : (s.emit o).kpr = s.kpr := rfl
@[simp] theorem State.emit_recorder (o : Out) : (s.emit o).recorder = s.recorder := rfl
@[simp] theorem State.emit_ports (o : Out) : (s.emit o).ports = s.ports := rfl
@[simp] theorem State.emit_paths (o : Out) : (s.emit o).paths = s.paths := rfl
@[simp] theorem State.emit_pmem (o : Out) : (s.emit o).pmem = s.pmem := rfl
@[simp] theorem State.emit_dbOcLater (o : Out) : (s.emit o).dbOcLater = s.dbOcLater := rfl
@[simp] theorem State.emit_seq (o : Out) : (s.emit o).seq = s.seq := rfl
@[simp] theorem State.emit_links (o : Out) : (s.emit o).links = s.links := rfl
@[simp] theorem State.emit_hosts (o : Out) : (s.emit o).hosts = s.hosts := rfl
@[simp] theorem State.emit_tenancy (o : Out) : (s.emit o).tenancy = s.tenancy := rfl
@[simp] theorem State.emit_tcv (o : Out) : (s.emit o).tcv = s.tcv := rfl
@[simp] theorem State.emit_thmBad (o : Out) : (s.emit o).thmBad = s.thmBad := rfl
@[simp] theorem State.emit_cores (o : Out) : (s.emit o).cores = s.cores := rfl
@[simp] theorem State.emit_live (o : Out) : (s.emit o).live = s.live := rfl
@[simp] theorem State.emit_tst (o : Out) : (s.emit o).tst = s.tst := rfl
@[simp] theorem State.emit_regBad (o : Out) : (s.emit o).regBad = s.regBad := rfl
@[simp] theorem State.emit_applet (o : Out) : (s.emit o).applet = s.applet := rfl
@[simp] theorem State.emit_appletsDue (o : Out) : (s.emit o).appletsDue = s.appletsDue := rfl
@[simp] theorem State.emit_reg_read (o : Out) (x : Nat) : (s.emit o).reg x = s.reg x := rfl
@[simp] theorem State.emit_fld_read (o : Out) (x : Fld) : (s.emit o).fld x = s.fld x := rfl
@[simp] theorem State.emit_sfld_read (o : Out) (x : Fld) : (s.emit o).sfld x = s.sfld x := rfl
@[simp] theorem State.emit_bit_read (o : Out) (x : Fld) : (s.emit o).bit x = s.bit x := rfl
@[simp] theorem State.emit_actReg_read (o : Out) (x : Nat) : (s.emit o).actReg x = s.actReg x := rfl
@[simp] theorem State.emit_afld_read (o : Out) (x : Fld) : (s.emit o).afld x = s.afld x := rfl
@[simp] theorem State.emit_chan_read (o : Out) (x : Chan) : (s.emit o).chan x = s.chan x := rfl
@[simp] theorem State.emit_loop_read (o : Out) (x : Loop) : (s.emit o).loop x = s.loop x := rfl
@[simp] theorem State.emit_port_read (o : Out) (x : Port) : (s.emit o).port x = s.port x := rfl
@[simp] theorem State.emit_path_read (o : Out) (x : Port) : (s.emit o).path x = s.path x := rfl
@[simp] theorem State.emit_core_read (o : Out) (x : Core) : (s.emit o).core x = s.core x := rfl

/-! ### setSramBytes -/

@[simp] theorem State.setSramBytes_pending (a : Nat) (bs : List Byte) : (s.setSramBytes a bs).pending = s.pending := rfl
@[simp] theorem State.setSramBytes_regs (a : Nat) (bs : List Byte) : (s.setSramBytes a bs).regs = s.regs := rfl
@[simp] theorem State.setSramBytes_act (a : Nat) (bs : List Byte) : (s.setSramBytes a bs).act = s.act := rfl
@[simp] theorem State.setSramBytes_out (a : Nat) (bs : List Byte) : (s.setSramBytes a bs).out = s.out := rfl
@[simp] theorem State.setSramBytes_freeCtr (a : Nat) (bs : List Byte) : (s.setSramBytes a bs).freeCtr = s.freeCtr := rfl
@[simp] theorem State.setSramBytes_power (a : Nat) (bs : List Byte) : (s.setSramBytes a bs).power = s.power := rfl
@[simp] theorem State.setSramBytes_boot (a : Nat) (bs : List Byte) : (s.setSramBytes a bs).boot = s.boot := rfl
@[simp] theorem State.setSramBytes_engine (a : Nat) (bs : List Byte) : (s.setSramBytes a bs).engine = s.engine := rfl
@[simp] theorem State.setSramBytes_chans (a : Nat) (bs : List Byte) : (s.setSramBytes a bs).chans = s.chans := rfl
@[simp] theorem State.setSramBytes_loops (a : Nat) (bs : List Byte) : (s.setSramBytes a bs).loops = s.loops := rfl
@[simp] theorem State.setSramBytes_kpr (a : Nat) (bs : List Byte) : (s.setSramBytes a bs).kpr = s.kpr := rfl
@[simp] theorem State.setSramBytes_recorder (a : Nat) (bs : List Byte) : (s.setSramBytes a bs).recorder = s.recorder := rfl
@[simp] theorem State.setSramBytes_ports (a : Nat) (bs : List Byte) : (s.setSramBytes a bs).ports = s.ports := rfl
@[simp] theorem State.setSramBytes_paths (a : Nat) (bs : List Byte) : (s.setSramBytes a bs).paths = s.paths := rfl
@[simp] theorem State.setSramBytes_pmem (a : Nat) (bs : List Byte) : (s.setSramBytes a bs).pmem = s.pmem := rfl
@[simp] theorem State.setSramBytes_dbOcLater (a : Nat) (bs : List Byte) : (s.setSramBytes a bs).dbOcLater = s.dbOcLater := rfl
@[simp] theorem State.setSramBytes_seq (a : Nat) (bs : List Byte) : (s.setSramBytes a bs).seq = s.seq := rfl
@[simp] theorem State.setSramBytes_links (a : Nat) (bs : List Byte) : (s.setSramBytes a bs).links = s.links := rfl
@[simp] theorem State.setSramBytes_hosts (a : Nat) (bs : List Byte) : (s.setSramBytes a bs).hosts = s.hosts := rfl
@[simp] theorem State.setSramBytes_tenancy (a : Nat) (bs : List Byte) : (s.setSramBytes a bs).tenancy = s.tenancy := rfl
@[simp] theorem State.setSramBytes_tcv (a : Nat) (bs : List Byte) : (s.setSramBytes a bs).tcv = s.tcv := rfl
@[simp] theorem State.setSramBytes_thmBad (a : Nat) (bs : List Byte) : (s.setSramBytes a bs).thmBad = s.thmBad := rfl
@[simp] theorem State.setSramBytes_cores (a : Nat) (bs : List Byte) : (s.setSramBytes a bs).cores = s.cores := rfl
@[simp] theorem State.setSramBytes_live (a : Nat) (bs : List Byte) : (s.setSramBytes a bs).live = s.live := rfl
@[simp] theorem State.setSramBytes_tst (a : Nat) (bs : List Byte) : (s.setSramBytes a bs).tst = s.tst := rfl
@[simp] theorem State.setSramBytes_regBad (a : Nat) (bs : List Byte) : (s.setSramBytes a bs).regBad = s.regBad := rfl
@[simp] theorem State.setSramBytes_applet (a : Nat) (bs : List Byte) : (s.setSramBytes a bs).applet = s.applet := rfl
@[simp] theorem State.setSramBytes_appletsDue (a : Nat) (bs : List Byte) : (s.setSramBytes a bs).appletsDue = s.appletsDue := rfl
@[simp] theorem State.setSramBytes_reg_read (a : Nat) (bs : List Byte) (x : Nat) : (s.setSramBytes a bs).reg x = s.reg x := rfl
@[simp] theorem State.setSramBytes_fld_read (a : Nat) (bs : List Byte) (x : Fld) : (s.setSramBytes a bs).fld x = s.fld x := rfl
@[simp] theorem State.setSramBytes_sfld_read (a : Nat) (bs : List Byte) (x : Fld) : (s.setSramBytes a bs).sfld x = s.sfld x := rfl
@[simp] theorem State.setSramBytes_bit_read (a : Nat) (bs : List Byte) (x : Fld) : (s.setSramBytes a bs).bit x = s.bit x := rfl
@[simp] theorem State.setSramBytes_actReg_read (a : Nat) (bs : List Byte) (x : Nat) : (s.setSramBytes a bs).actReg x = s.actReg x := rfl
@[simp] theorem State.setSramBytes_afld_read (a : Nat) (bs : List Byte) (x : Fld) : (s.setSramBytes a bs).afld x = s.afld x := rfl
@[simp] theorem State.setSramBytes_chan_read (a : Nat) (bs : List Byte) (x : Chan) : (s.setSramBytes a bs).chan x = s.chan x := rfl
@[simp] theorem State.setSramBytes_loop_read (a : Nat) (bs : List Byte) (x : Loop) : (s.setSramBytes a bs).loop x = s.loop x := rfl
@[simp] theorem State.setSramBytes_port_read (a : Nat) (bs : List Byte) (x : Port) : (s.setSramBytes a bs).port x = s.port x := rfl
@[simp] theorem State.setSramBytes_path_read (a : Nat) (bs : List Byte) (x : Port) : (s.setSramBytes a bs).path x = s.path x := rfl
@[simp] theorem State.setSramBytes_core_read (a : Nat) (bs : List Byte) (x : Core) : (s.setSramBytes a bs).core x = s.core x := rfl

/-! ### mendReg -/

@[simp] theorem State.mendReg_pending (a : Nat) : (s.mendReg a).pending = s.pending := rfl
@[simp] theorem State.mendReg_regs (a : Nat) : (s.mendReg a).regs = s.regs := rfl
@[simp] theorem State.mendReg_act (a : Nat) : (s.mendReg a).act = s.act := rfl
@[simp] theorem State.mendReg_sram (a : Nat) : (s.mendReg a).sram = s.sram := rfl
@[simp] theorem State.mendReg_sramBad (a : Nat) : (s.mendReg a).sramBad = s.sramBad := rfl
@[simp] theorem State.mendReg_out (a : Nat) : (s.mendReg a).out = s.out := rfl
@[simp] theorem State.mendReg_freeCtr (a : Nat) : (s.mendReg a).freeCtr = s.freeCtr := rfl
@[simp] theorem State.mendReg_power (a : Nat) : (s.mendReg a).power = s.power := rfl
@[simp] theorem State.mendReg_boot (a : Nat) : (s.mendReg a).boot = s.boot := rfl
@[simp] theorem State.mendReg_engine (a : Nat) : (s.mendReg a).engine = s.engine := rfl
@[simp] theorem State.mendReg_chans (a : Nat) : (s.mendReg a).chans = s.chans := rfl
@[simp] theorem State.mendReg_loops (a : Nat) : (s.mendReg a).loops = s.loops := rfl
@[simp] theorem State.mendReg_kpr (a : Nat) : (s.mendReg a).kpr = s.kpr := rfl
@[simp] theorem State.mendReg_recorder (a : Nat) : (s.mendReg a).recorder = s.recorder := rfl
@[simp] theorem State.mendReg_ports (a : Nat) : (s.mendReg a).ports = s.ports := rfl
@[simp] theorem State.mendReg_paths (a : Nat) : (s.mendReg a).paths = s.paths := rfl
@[simp] theorem State.mendReg_pmem (a : Nat) : (s.mendReg a).pmem = s.pmem := rfl
@[simp] theorem State.mendReg_dbOcLater (a : Nat) : (s.mendReg a).dbOcLater = s.dbOcLater := rfl
@[simp] theorem State.mendReg_seq (a : Nat) : (s.mendReg a).seq = s.seq := rfl
@[simp] theorem State.mendReg_links (a : Nat) : (s.mendReg a).links = s.links := rfl
@[simp] theorem State.mendReg_hosts (a : Nat) : (s.mendReg a).hosts = s.hosts := rfl
@[simp] theorem State.mendReg_tenancy (a : Nat) : (s.mendReg a).tenancy = s.tenancy := rfl
@[simp] theorem State.mendReg_tcv (a : Nat) : (s.mendReg a).tcv = s.tcv := rfl
@[simp] theorem State.mendReg_thmBad (a : Nat) : (s.mendReg a).thmBad = s.thmBad := rfl
@[simp] theorem State.mendReg_cores (a : Nat) : (s.mendReg a).cores = s.cores := rfl
@[simp] theorem State.mendReg_live (a : Nat) : (s.mendReg a).live = s.live := rfl
@[simp] theorem State.mendReg_tst (a : Nat) : (s.mendReg a).tst = s.tst := rfl
@[simp] theorem State.mendReg_applet (a : Nat) : (s.mendReg a).applet = s.applet := rfl
@[simp] theorem State.mendReg_appletsDue (a : Nat) : (s.mendReg a).appletsDue = s.appletsDue := rfl
@[simp] theorem State.mendReg_reg_read (a : Nat) (x : Nat) : (s.mendReg a).reg x = s.reg x := rfl
@[simp] theorem State.mendReg_fld_read (a : Nat) (x : Fld) : (s.mendReg a).fld x = s.fld x := rfl
@[simp] theorem State.mendReg_sfld_read (a : Nat) (x : Fld) : (s.mendReg a).sfld x = s.sfld x := rfl
@[simp] theorem State.mendReg_bit_read (a : Nat) (x : Fld) : (s.mendReg a).bit x = s.bit x := rfl
@[simp] theorem State.mendReg_actReg_read (a : Nat) (x : Nat) : (s.mendReg a).actReg x = s.actReg x := rfl
@[simp] theorem State.mendReg_afld_read (a : Nat) (x : Fld) : (s.mendReg a).afld x = s.afld x := rfl
@[simp] theorem State.mendReg_chan_read (a : Nat) (x : Chan) : (s.mendReg a).chan x = s.chan x := rfl
@[simp] theorem State.mendReg_loop_read (a : Nat) (x : Loop) : (s.mendReg a).loop x = s.loop x := rfl
@[simp] theorem State.mendReg_port_read (a : Nat) (x : Port) : (s.mendReg a).port x = s.port x := rfl
@[simp] theorem State.mendReg_path_read (a : Nat) (x : Port) : (s.mendReg a).path x = s.path x := rfl
@[simp] theorem State.mendReg_core_read (a : Nat) (x : Core) : (s.mendReg a).core x = s.core x := rfl

/-- The part that modChan changes, and the others. -/
theorem State.modChan_chan (n m : Chan) (f : ChanState → ChanState) : (s.modChan n f).chan m = if m = n then f (s.chan n) else s.chan m := by
  unfold State.modChan State.chan
  by_cases e : m = n
  · subst e; simp
  · have : (n : Nat) ≠ m := fun q => e (Fin.ext q.symm)
    simp [this, e]

@[simp] theorem State.modChan_chan_same (n : Chan) (f : ChanState → ChanState) : (s.modChan n f).chan n = f (s.chan n) := by
  rw [State.modChan_chan]; simp

theorem State.modChan_chan_ne {n m : Chan} (f : ChanState → ChanState) (h : m ≠ n) : (s.modChan n f).chan m = s.chan m := by
  rw [State.modChan_chan]; simp [h]

/-- The part that modLoop changes, and the others. -/
theorem State.modLoop_loop (n m : Loop) (f : LoopState → LoopState) : (s.modLoop n f).loop m = if m = n then f (s.loop n) else s.loop m := by
  unfold State.modLoop State.loop
  by_cases e : m = n
  · subst e; simp
  · have : (n : Nat) ≠ m := fun q => e (Fin.ext q.symm)
    simp [this, e]

@[simp] theorem State.modLoop_loop_same (n : Loop) (f : LoopState → LoopState) : (s.modLoop n f).loop n = f (s.loop n) := by
  rw [State.modLoop_loop]; simp

theorem State.modLoop_loop_ne {n m : Loop} (f : LoopState → LoopState) (h : m ≠ n) : (s.modLoop n f).loop m = s.loop m := by
  rw [State.modLoop_loop]; simp [h]

/-- The part that modPort changes, and the others. -/
theorem State.modPort_port (n m : Port) (f : PortState → PortState) : (s.modPort n f).port m = if m = n then f (s.port n) else s.port m := by
  unfold State.modPort State.port
  by_cases e : m = n
  · subst e; simp
  · have : (n : Nat) ≠ m := fun q => e (Fin.ext q.symm)
    simp [this, e]

@[simp] theorem State.modPort_port_same (n : Port) (f : PortState → PortState) : (s.modPort n f).port n = f (s.port n) := by
  rw [State.modPort_port]; simp

theorem State.modPort_port_ne {n m : Port} (f : PortState → PortState) (h : m ≠ n) : (s.modPort n f).port m = s.port m := by
  rw [State.modPort_port]; simp [h]

/-- The part that modPath changes, and the others. -/
theorem State.modPath_path (n m : Port) (f : PathState → PathState) : (s.modPath n f).path m = if m = n then f (s.path n) else s.path m := by
  unfold State.modPath State.path
  by_cases e : m = n
  · subst e; simp
  · have : (n : Nat) ≠ m := fun q => e (Fin.ext q.symm)
    simp [this, e]

@[simp] theorem State.modPath_path_same (n : Port) (f : PathState → PathState) : (s.modPath n f).path n = f (s.path n) := by
  rw [State.modPath_path]; simp

theorem State.modPath_path_ne {n m : Port} (f : PathState → PathState) (h : m ≠ n) : (s.modPath n f).path m = s.path m := by
  rw [State.modPath_path]; simp [h]

/-- The part that modCore changes, and the others. -/
theorem State.modCore_core (n m : Core) (f : CoreState → CoreState) : (s.modCore n f).core m = if m = n then f (s.core n) else s.core m := by
  unfold State.modCore State.core
  by_cases e : m = n
  · subst e; simp
  · have : (n : Nat) ≠ m := fun q => e (Fin.ext q.symm)
    simp [this, e]

@[simp] theorem State.modCore_core_same (n : Core) (f : CoreState → CoreState) : (s.modCore n f).core n = f (s.core n) := by
  rw [State.modCore_core]; simp

theorem State.modCore_core_ne {n m : Core} (f : CoreState → CoreState) (h : m ≠ n) : (s.modCore n f).core m = s.core m := by
  rw [State.modCore_core]; simp [h]

end Sys2Proof.Machine
end

