-- ==== Sys2Proof/Tests/Slice0.lean ====
section
/-!
SUPPORT. Tests: ill-formed commands, words written out from the tables, and for each statement that has hypotheses a state
and operands that meet them. A `test_meets_` theorem holds, clause by clause, the hypotheses of the statement it names.
-/

namespace Sys2Proof.Tests

open Sys2Proof Sys2Proof.Machine

/-! ### Ill-formed commands -/

theorem test_wf_level_of_no_bank : (Instr.supplyMonitorChange .vdda true true 0).wf = false := by decide
theorem test_wf_no_frequency : (Instr.syncSeenRise 0).wf = false := by decide
theorem test_wf_generation_too_wide : (Instr.candidateReadDone false [] (some (2 ^ 32))).wf = false := by decide
theorem test_wf_image_too_long : (Instr.candidateReadDone false (List.replicate (slotBytes + 1) 0) none).wf = false := by
  simp [Instr.wf]
theorem test_wf_transfer_too_long : (Instr.flashXferDone (List.replicate 65 0)).wf = false := by decide
theorem test_wf_eight_objects : (Instr.pdMessageRx 0 ⟨.sop, .request, 0, List.replicate 8 0, 2⟩ true).wf = false := by decide
theorem test_wf_mean_without_excursion : (Instr.conversionDone 2 false false).wf = false := by decide +kernel
theorem test_wf_word_is_an_instruction : (Instr.illegalInstruction 0 0xE4104000).wf = false := by decide

/-! ### Words written out from Tables 14.5 and 14.7, and from R160 and R308 -/

/-- 0x39 MULS: rd 0, ra 4, rb 1. -/
theorem test_word_muls : Pletra.decode 0b111001_0000_0100_0001_00000000000000#32 = some (.muls 4 1) := by decide
/-- 0x0C ADDI: rd 7, ra 7, imm18 16. -/
theorem test_word_addi : Pletra.decode 0b001100_0111_0111_000000000000010000#32 = some (.addi 7 7 16) := by decide
/-- 0x12 SARI: rd 7, ra 7, imm18 5. -/
theorem test_word_sari : Pletra.decode 0b010010_0111_0111_000000000000000101#32 = some (.sari 7 7 5) := by decide
/-- 0x3C MFC: rd 7, creg 4 (MLO). -/
theorem test_word_mfc : Pletra.decode 0b111100_0111_0000_000000000000000100#32 = some (.mfc 7 4) := by decide
/-- 0x2C BSET: bit 4 097. -/
theorem test_word_bset : Pletra.decode 0b101100_1000000000001_0000000000000#32 = some (.bset 4097) := by decide
/-- 0x34 Bcond: condition 15 is reserved. -/
theorem test_word_cond15 : Pletra.decode 0b110100_1111_0000000000000000000000#32 = none := by decide
/-- A shift by 32 has imm18[5] set. -/
theorem test_word_shift32 : Pletra.decode 0b010000_0111_0111_000000000000100000#32 = none := by decide
/-- 0x3E with rd 1: ERET. -/
theorem test_word_eret : Pletra.decode 0b111110_0001_0000000000000000000000#32 = some .eret := by decide
/-- R308: the PEC of a block write. -/
theorem test_pec : crc8 [0xC2, 0xD0, 0x07, 0x08, 0x08, 0x02, 0xF8, 0x02, 0x00, 0x00] = 0xCC := by decide +kernel
/-- IEEE 802.3's check value (R398). -/
theorem test_crc32 : crc32 [0x31, 0x32, 0x33, 0x34, 0x35, 0x36, 0x37, 0x38, 0x39] = 0xCBF43926 := by decide +kernel

/-! ### States -/

/-- Everything on: every supply good, every domain on, the keeper read, an image accepted, four cores running, and the
three ports open at address 0x10. -/
def on : State :=
  { State.reset with
    regs := [(0x100, 0xAE01), (0x108, 0xC), (0x114, 0xFFF), (0x200, 8), (0x214, 2),
      (0x80000, 1), (0x80004, 0x90), (0x80100, 1), (0x80104, 0x90), (0x80200, 1), (0x80204, 0x90),
      (0xD0000, 1), (0xD0100, 1), (0xD0200, 1), (0xD0300, 1)],
    power := { Power.reset with d0Up := true },
    boot := { Boot.reset with kprRead := true, entry := Vector.replicate 4 (some 0) } }

/-- Eight words of a copy of the start record, its CRC last. -/
def copy (seq fails : Word) : List Word :=
  let body : List Word := [startKind.hdr, seq, fails, 0, 0, 0, 0]
  body ++ [wordsCrc body]

/-- The start record's two copies as given. -/
def holding (a b : List Word) : State :=
  on.modKpr fun k => { k with
    cells := writeGroups [] ((a ++ b).zipIdx.map fun x => (0x5000 + 4 * x.2, x.1)) }

/-- Two copies of the start record with one SEQ and different contents. -/
def tied : State := holding (copy 9 1) (copy 9 2)

/-- Which copies of the start record read right, and their SEQs. -/
def seqs (s : State) : Bool × Bool × Nat × Nat :=
  (s.copyValid startKind startKind.base, s.copyValid startKind startKind.copyB,
    (s.kprWord (startKind.base + 4)).toNat, (s.kprWord (startKind.copyB + 4)).toNat)

/-- w1 points at SRAM; core 0's PC is in the boot ROM. -/
def atSram : State := on.setW 0 1 0x20000000

/-- The state in which core 0 of `s`, at its PC in the boot ROM, executes. -/
def fetched (s : State) : State := s.spend 0 1

/-! ### Hypotheses that are met -/

theorem test_meets_AnEmptyQueueLetsAMillisecondPass :
    (State.reset.pending = [])
    ∧ (State.reset.bit F.SUPPLY_STATUS_HOUSE_OK = false)
    ∧ (on.bit F.SUPPLY_STATUS_HOUSE_OK = true)
    ∧ ((on.setFld (F.CORE_Ck_TIMER_COUNT 0) 1001).domOn 2 = true ∧ (on.setFld (F.CORE_Ck_TIMER_COUNT 0)
      1001).coreSt (0 : Core) ≠ 3 ∧ 1000 < (on.setFld (F.CORE_Ck_TIMER_COUNT 0) 1001).fld (F.CORE_Ck_TIMER_COUNT
      (0 : Core)))
    ∧ ((on.setFld (F.CORE_Ck_TIMER_COUNT 0) 1000).domOn 2 = true ∧ (on.setFld (F.CORE_Ck_TIMER_COUNT 0)
      1000).coreSt (0 : Core) ≠ 3 ∧ 0 < (on.setFld (F.CORE_Ck_TIMER_COUNT 0) 1000).fld (F.CORE_Ck_TIMER_COUNT (0 :
      Core)) ∧ (on.setFld (F.CORE_Ck_TIMER_COUNT 0) 1000).fld (F.CORE_Ck_TIMER_COUNT (0 : Core)) ≤ 1000) := by decide

theorem test_meets_ResetLeavesNothingPowered :
    (findReg 0 = none)
    ∧ (11 < 12) := by decide

theorem test_meets_UnassignedAddresses :
    (0 < 0x100000 ∧ findReg 0 = none ∧ on.inApp 0 = false ∧ on.portOpen 0 = true) := by decide

theorem test_meets_RegistersAreWholeAlignedWords :
    ((findReg 0x100).isSome = true)
    ∧ (on.inApp (0 : Core) = false ∧ 0x40000000 ≤ 0x400FFFFE ∧ 0x400FFFFE < 0x40100000 ∧ (4 ≠ 4 ∨ 0x400FFFFE % 4 ≠
      0)) := by decide

theorem test_meets_RegisterCommandsComplete :
    ((Instr.kick (.core 0) 1 0xA5).write? = some (A.CORE_Ck_WDOG 1, RegWr.field (.core 0) (F.CORE_Ck_WDOG_KICK 1)
      0xA5) ∧ on.canWrite (.core 0) = true ∧ (on.regWrite (A.CORE_Ck_WDOG 1) (RegWr.field (.core 0)
      (F.CORE_Ck_WDOG_KICK 1) 0xA5)).code = 0)
    ∧ (on.canWrite (Writer.core 0) = true ∧ on.fieldCode (Writer.core 0) (halfGo Half.west) 1 = 0 ∧ on.domOn
      (halfDom Half.west) = true)
    ∧ ((on.setFld F.PE_CAL_CTRL_PERIOD 1).domOn (halfDom Half.west) = true ∧ (on.setFld F.PE_CAL_CTRL_PERIOD
      1).fld F.PE_CAL_CTRL_PERIOD ≠ 0)
    ∧ ((on.setFld (F.HP_OWNERr_OWNER 0) 3).canWrite (Writer.core 0) = true ∧ (on.setFld (F.HP_OWNERr_OWNER 0)
      3).fieldCode (Writer.core 0) (F.PROT_Ln_CLR_OV_CLR (0 : Loop).val) 1 = 0 ∧ (on.setFld (F.HP_OWNERr_OWNER 0)
      3).mayOvClr (Writer.core 0) (0 : Loop) = true)
    ∧ (on.canWrite (.core 1) = true ∧ (on.regWrite (A.MBX_CHn_DATA 64) (RegWr.word (.core 1) 1)).code = 0)
    ∧ (on.canWrite (Writer.core 0) = true ∧ (on.readReg (Writer.core 0) A.KPR_RDATA).code = 0)
    ∧ (perturbations.contains (0xF0000 + (0x40 : BitVec 7).toNat) = true ∧ on.canWrite (.core 0) = true ∧
      ((on.setBit F.TST_CTRL_UNLOCKED true).regWrite (0xF0000 + (0x40 : BitVec 7).toNat) (RegWr.word (.core 0)
      1)).code = 0) := by decide

theorem test_meets_WhatRegisterWritesDo_by_evaluation_a :
    (on.canWrite (RegWr.field (Writer.core 0) F.PE_CTRL_LOAD_ALL 1).who = true ∧ (on.regWrite
      F.PE_CTRL_LOAD_ALL.addr (RegWr.field (Writer.core 0) F.PE_CTRL_LOAD_ALL 1)).code = 0)
    ∧ (on.canWrite (RegWr.field (Writer.core 0) F.PE_CTRL_CLR_TRG_DROP 1).who = true ∧ (on.regWrite
      F.PE_CTRL_CLR_TRG_DROP.addr (RegWr.field (Writer.core 0) F.PE_CTRL_CLR_TRG_DROP 1)).code = 0)
    ∧ (on.canWrite (RegWr.field (Writer.core 0) (F.LP_Ln_CTRL_SWAP (0 : Loop).val) 1).who = true ∧ (on.regWrite
      (F.LP_Ln_CTRL_SWAP (0 : Loop).val).addr (RegWr.field (Writer.core 0) (F.LP_Ln_CTRL_SWAP (0 : Loop).val)
      1)).code = 0)
    ∧ (on.canWrite (RegWr.field (Writer.core 0) (F.LP_Ln_CTRL_FB_RET (0 : Loop).val) 1).who = true ∧ (on.regWrite
      (F.LP_Ln_CTRL_FB_RET (0 : Loop).val).addr (RegWr.field (Writer.core 0) (F.LP_Ln_CTRL_FB_RET (0 : Loop).val)
      1)).code = 0 ∧ (on.setFld (F.LP_Ln_STATUS_STATE 0) 5).loopSt 0 = 5)
    ∧ (on.canWrite (RegWr.field (Writer.core 0) (F.VLK_n_CFG_CNT_CLR (0 : Port).val) 1).who = true ∧ (on.regWrite
      (F.VLK_n_CFG_CNT_CLR (0 : Port).val).addr (RegWr.field (Writer.core 0) (F.VLK_n_CFG_CNT_CLR (0 : Port).val)
      1)).code = 0)
    ∧ (on.canWrite (RegWr.field (Writer.core 0) (F.HP_TWk_CFG_CNT_CLR (0 : HostId).val) 1).who = true ∧
      (on.regWrite (F.HP_TWk_CFG_CNT_CLR (0 : HostId).val).addr (RegWr.field (Writer.core 0) (F.HP_TWk_CFG_CNT_CLR
      (0 : HostId).val) 1)).code = 0)
    ∧ (on.canWrite (RegWr.field (.core (0 : Core)) (F.START_HEALTH_HEALTHY.at (0 : Core).val) 1).who = true ∧
      (on.regWrite (F.START_HEALTH_HEALTHY.at (0 : Core).val).addr (RegWr.field (.core (0 : Core))
      (F.START_HEALTH_HEALTHY.at (0 : Core).val) 1)).code = 0)
    ∧ (on.canWrite (RegWr.field (Writer.core 0) F.TCV_CFG_REF_SEL (0 : Fin 4).val).who = true ∧ (on.regWrite
      F.TCV_CFG_REF_SEL.addr (RegWr.field (Writer.core 0) F.TCV_CFG_REF_SEL (0 : Fin 4).val)).code = 0) := by decide +kernel

theorem test_meets_WhatRegisterWritesDo_by_evaluation_b :
    (on.canWrite (RegWr.field (Writer.core 0) (F.CORE_Ck_WDOG_KICK (0 : Core).val) (0 : Byte).toNat).who = true ∧
      (on.regWrite (F.CORE_Ck_WDOG_KICK (0 : Core).val).addr (RegWr.field (Writer.core 0) (F.CORE_Ck_WDOG_KICK (0
      : Core).val) (0 : Byte).toNat)).code = 0)
    ∧ (on.canWrite (RegWr.field (Writer.core 0) (F.CORE_Ck_RING_RING (0 : Core).val) 1).who = true ∧ (on.regWrite
      (F.CORE_Ck_RING_RING (0 : Core).val).addr (RegWr.field (Writer.core 0) (F.CORE_Ck_RING_RING (0 : Core).val)
      1)).code = 0)
    ∧ (on.canWrite (RegWr.field (Writer.core 0) F.LIVE_STAGE_CTRL_VERIFY 1).who = true ∧ (on.regWrite
      F.LIVE_STAGE_CTRL_VERIFY.addr (RegWr.field (Writer.core 0) F.LIVE_STAGE_CTRL_VERIFY 1)).code = 0)
    ∧ (on.canWrite (RegWr.field (Writer.core 0) F.KPR_PROT_PROT_LOCK 1).who = true ∧ (on.regWrite
      F.KPR_PROT_PROT_LOCK.addr (RegWr.field (Writer.core 0) F.KPR_PROT_PROT_LOCK 1)).code = 0)
    ∧ (on.canWrite (RegWr.field (Writer.core 0) F.KPR_STATUS_HOLDUP_USED 1).who = true ∧ (on.regWrite
      F.KPR_STATUS_HOLDUP_USED.addr (RegWr.field (Writer.core 0) F.KPR_STATUS_HOLDUP_USED 1)).code = 0) := by decide +kernel

theorem test_meets_ARefusedWriteChangesNothing :
    ((on.regWrite 0 ⟨.core 0, 0, 0⟩).code = 1)
    ∧ ((((on.setReg (A.MBX_CHn_CFG 100) 6).setFld (F.PWR_DOM_STATUS_ON.at 5) 0).regWrite (A.MBX_CHn_DATA 100)
      (RegWr.word (.core 0) 1)).code = 0xA)
    ∧ (on.portOpen 0 = true ∧ (on.regWrite A.PE_CTRL (RegWr.field (.host 0) F.PE_CTRL_LOAD_ALL 1)).code = 3) := by decide

theorem test_meets_AWriteReachesOnlyItsWritableBits_0 :
    (∃ r, findReg A.SUPPLY_STATUS = some r ∧ ∀ f ∈ r.fields, f.acc = .ro) := ⟨_, rfl, by decide⟩

theorem test_meets_AWriteReachesOnlyItsWritableBits_3 :
    (∃ r, findReg A.KPR_WADDR = some r ∧ r.shadowed = false) := ⟨_, rfl, by decide⟩

theorem test_meets_SupplyAndClockCommandsComplete_a :
    (State.reset.bit F.SUPPLY_STATUS_HOUSE_OK = false)
    ∧ (on.bit F.SUPPLY_STATUS_HOUSE_OK = true)
    ∧ (State.reset.bit F.SUPPLY_STATUS_HOUSE_OK = false)
    ∧ (on.bit F.SUPPLY_STATUS_HOUSE_OK = true ∧ on.bit (monitorFld (.vbus (0 : Port))) ≠ true)
    ∧ ((Monitor.vdda = .vdda ∨ Monitor.vdda = .vddCore) ∧ (on.setBit F.SUPPLY_STATUS_VDDA_OK false).bit
      F.SUPPLY_STATUS_HOUSE_OK = true ∧ (on.setBit F.SUPPLY_STATUS_VDDA_OK false).bit (monitorFld Monitor.vdda) =
      false)
    ∧ (on.bit (monitorFld Monitor.vinHv) ≠ true)
    ∧ ((on.setBit F.SUPPLY_STATUS_VDDA_OK false).bit (monitorFld Monitor.vdda) = false)
    ∧ (on.bit F.SUPPLY_STATUS_VDD_CORE_OK = true) := by decide

theorem test_meets_SupplyAndClockCommandsComplete_b :
    (on.bit F.SUPPLY_STATUS_HOUSE_OK = true ∧ on.fullOp = true)
    ∧ (on.bit F.SUPPLY_STATUS_VCONN_IN_OK = true)
    ∧ (on.power.d0Up = true ∧ on.power.resetnLow = false)
    ∧ ((on.modPower fun p => { p with resetnLow := true }).power.resetnLow = true)
    ∧ ((on.modPower fun p => { p with xtal := .qualifying }).power.xtal = .qualifying ∧ (on.modPower fun p =>
      { p with xtal := .qualifying }).power.slow ≠ .fastRc)
    ∧ (((on.modPower fun p => { p with xtal := .running }).power.xtal == .qualifying || (on.modPower fun p =>
      { p with xtal := .running }).power.xtal == .running) = true)
    ∧ (on.bit F.CLK_STATUS_SYNC_SEEN = false)
    ∧ ((on.setBit F.CLK_STATUS_SYNC_SEEN true).bit F.CLK_STATUS_SYNC_SEEN = true) := by decide

theorem test_meets_SupplyAndClockCommandsComplete_c :
    (((on.setBit F.CLK_CFG_PLL_FORCE true).setBit F.CLK_STATUS_PLL_LOCK false).pllWanted = true ∧ ((on.setBit
      F.CLK_CFG_PLL_FORCE true).setBit F.CLK_STATUS_PLL_LOCK false).bit F.CLK_STATUS_PLL_LOCK = false)
    ∧ (on.domOn 9 = true ∧ on.bit F.CLK_STATUS_PLL_LOCK = true)
    ∧ ((3 : Dom).val ≠ 0 ∧ ((on.setFld (F.PWR_DOM_STATUS_ON.at 3) 0).setReg A.PWR_DOM_REQ 0xFFF).domWanted (3 :
      Dom).val = true ∧ ((on.setFld (F.PWR_DOM_STATUS_ON.at 3) 0).setReg A.PWR_DOM_REQ 0xFFF).domOn (3 : Dom).val
      = false ∧ ((3 : Dom).val ≤ 2 || ((on.setFld (F.PWR_DOM_STATUS_ON.at 3) 0).setReg A.PWR_DOM_REQ 0xFFF).domOn
      2) = true)
    ∧ ((((on.modPower fun p => { p with dormant := true, timerArmed := true }).setReg A.DORMANT_CFG 0x55).setReg
      A.WAKE_CFG 0x3FFF).power.dormant = true ∧ (((on.modPower fun p =>
      { p with dormant := true, timerArmed := true }).setReg A.DORMANT_CFG 0x55).setReg A.WAKE_CFG 0x3FFF).fld
      ⟨A.DORMANT_CFG, 2 * (0 : Port).val, 2⟩ ≠ 0 ∧ (((on.modPower fun p =>
      { p with dormant := true, timerArmed := true }).setReg A.DORMANT_CFG 0x55).setReg A.WAKE_CFG 0x3FFF).bit
      ⟨A.WAKE_CFG, (0 : Port).val, 1⟩ = true)
    ∧ (WakeSrc.vin ≠ .resetn ∧ WakeSrc.vin ≠ .timer ∧ (((on.modPower fun p =>
      { p with dormant := true, timerArmed := true }).setReg A.DORMANT_CFG 0x55).setReg A.WAKE_CFG
      0x3FFF).power.dormant = true ∧ (((on.modPower fun p =>
      { p with dormant := true, timerArmed := true }).setReg A.DORMANT_CFG 0x55).setReg A.WAKE_CFG 0x3FFF).canWake
      WakeSrc.vin = true ∧ (((on.modPower fun p => { p with dormant := true, timerArmed := true }).setReg
      A.DORMANT_CFG 0x55).setReg A.WAKE_CFG 0x3FFF).bit ⟨A.WAKE_CFG, wakeSrcBit WakeSrc.vin, 1⟩ = true)
    ∧ ((((on.modPower fun p => { p with dormant := true, timerArmed := true }).setReg A.DORMANT_CFG 0x55).setReg
      A.WAKE_CFG 0x3FFF).power.dormant = true)
    ∧ ((((on.modPower fun p => { p with dormant := true, timerArmed := true }).setReg A.DORMANT_CFG 0x55).setReg
      A.WAKE_CFG 0x3FFF).power.timerArmed = true ∧ (((on.modPower fun p =>
      { p with dormant := true, timerArmed := true }).setReg A.DORMANT_CFG 0x55).setReg A.WAKE_CFG
      0x3FFF).power.dormant = true ∧ (((on.modPower fun p =>
      { p with dormant := true, timerArmed := true }).setReg A.DORMANT_CFG 0x55).setReg A.WAKE_CFG 0x3FFF).bit
      ⟨A.WAKE_CFG, 12, 1⟩ = true)
    ∧ (State.reset.domOn 2 = false ∧ State.reset.domOn 9 = false ∧ State.reset.domOn 10 = false ∧ (on.setFld
      (F.PWR_DOM_STATUS_ON.at 9) 0).bit F.SUPPLY_STATUS_VDDIO_A_OK = true ∧ (on.setFld (F.PWR_DOM_STATUS_ON.at 9)
      0).domOn 9 = false) := by decide

theorem test_meets_StartCommandsComplete_a :
    ((on.modBoot fun b => { b with kprRead := false }).domOn 1 = true ∧ (on.modBoot fun b =>
      { b with kprRead := false }).domOn 2 = true ∧ (on.modBoot fun b => { b with kprRead := false }).boot.kprRead
      = false)
    ∧ (((on.setFld F.START_STATUS_PHASE 0).modBoot fun b =>
      { b with record := { b.record with fails := 255 } }).boot.kprRead = true ∧ ((on.setFld F.START_STATUS_PHASE
      0).modBoot fun b => { b with record := { b.record with fails := 255 } }).phaseNo ≤ 1 ∧ ((on.setFld
      F.START_STATUS_PHASE 0).modBoot fun b => { b with record := { b.record with fails := 255 } }).boot.attempt =
      false ∧ ((on.setFld F.START_STATUS_PHASE 0).modBoot fun b =>
      { b with record := { b.record with fails := 255 } }).seedling = false ∧ ((on.setFld F.START_STATUS_PHASE
      0).modBoot fun b => { b with record := { b.record with fails := 255 } }).boot.restart = false ∧ ((on.setFld
      F.START_STATUS_PHASE 0).modBoot fun b => { b with record := { b.record with fails := 255 } }).boot.reread =
      false ∧ ((on.setFld F.START_STATUS_PHASE 0).modBoot fun b =>
      { b with record := { b.record with fails := 255 } }).limit ≤ ((on.setFld F.START_STATUS_PHASE 0).modBoot fun
      b => { b with record := { b.record with fails := 255 } }).boot.record.fails)
    ∧ ((on.setFld F.START_STATUS_PHASE 0).boot.kprRead = true ∧ (on.setFld F.START_STATUS_PHASE 0).phaseNo ≤ 1 ∧
      (on.setFld F.START_STATUS_PHASE 0).boot.attempt = false ∧ (on.setFld F.START_STATUS_PHASE 0).seedling =
      false ∧ (on.setFld F.START_STATUS_PHASE 0).boot.restart = false ∧ (on.setFld F.START_STATUS_PHASE
      0).boot.reread = false ∧ (on.setFld F.START_STATUS_PHASE 0).boot.record.fails < (on.setFld
      F.START_STATUS_PHASE 0).limit ∧ (on.setFld F.START_STATUS_PHASE 0).fullOp = true ∧ (on.setFld
      F.START_STATUS_PHASE 0).bit F.THM_STATUS_SHUT_HOLD = false)
    ∧ (((on.modBoot fun b => { b with attempt := true, timeout := some 20 }).setFld F.START_STATUS_PHASE
      2).boot.attempt = true ∧ ((on.modBoot fun b => { b with attempt := true, timeout := some 20 }).setFld
      F.START_STATUS_PHASE 2).phaseNo = 2 ∧ (⟨none, false, 0x13, []⟩ : Sfdp).quad = none)
    ∧ (((on.modBoot fun b => { b with attempt := true, timeout := some 20 }).setFld F.START_STATUS_PHASE
      2).boot.attempt = true ∧ ((on.modBoot fun b => { b with attempt := true, timeout := some 20 }).setFld
      F.START_STATUS_PHASE 2).phaseNo = 2)
    ∧ ((((on.modBoot fun b => { b with attempt := true, timeout := some 20 }).setFld F.START_STATUS_PHASE
      3).setFld F.IMG_STATUS_B_STATE 1).boot.attempt = true ∧ (((on.modBoot fun b =>
      { b with attempt := true, timeout := some 20 }).setFld F.START_STATUS_PHASE 3).setFld F.IMG_STATUS_B_STATE
      1).phaseNo = 3 ∧ (((on.modBoot fun b => { b with attempt := true, timeout := some 20 }).setFld
      F.START_STATUS_PHASE 3).setFld F.IMG_STATUS_B_STATE 1).inOrder false ([] : List Byte) (none : Option Nat) =
      true)
    ∧ (((on.modBoot fun b => { b with attempt := true, timeout := some 20 }).setFld F.START_STATUS_PHASE
      7).boot.attempt = true ∧ ((on.modBoot fun b => { b with attempt := true, timeout := some 20 }).setFld
      F.START_STATUS_PHASE 7).boot.timeout.isSome = true ∧ ((on.modBoot fun b =>
      { b with attempt := true, timeout := some 20 }).setFld F.START_STATUS_PHASE 7).phaseNo = 7)
    ∧ ((on.setFld F.START_STATUS_PHASE 10).phaseNo = 10 ∧ (on.setFld F.START_STATUS_PHASE 10).boot.restart =
      false) := by decide

theorem test_meets_StartCommandsComplete_b :
    ((on.modBoot fun b => { b with xfer := some ⟨false, 4⟩ }).boot.xfer = some (⟨false, 4⟩ : FlashXfer)) := by decide

theorem test_meets_EngineCommandsComplete :
    ((on.modEngine fun e => { e with timebase := true }).engine.timebase = true)
    ∧ ((on.setActFld (F.PE_CHn_CTRL_EN 0) 1).chanRun (0 : Chan) = true)
    ∧ ((on.setActFld (F.PE_CHn_CTRL_EN 0) 1).chanRun (0 : Chan) = true)
    ∧ ((((((on.setActFld (F.PE_CHn_CTRL_EN 0) 1).setActFld (F.PE_CHn_TRGk_DIR 0 0) 3).setActFld
      (F.PE_CHn_TRGk_DEST 0 0) 1).setReg (A.LP_Ln_MEMBERS 0) 0xF820).modLoop 0 fun k =>
      { k with order := [0] }).chanRun (0 : Chan) = true ∧ (((((on.setActFld (F.PE_CHn_CTRL_EN 0) 1).setActFld
      (F.PE_CHn_TRGk_DIR 0 0) 3).setActFld (F.PE_CHn_TRGk_DEST 0 0) 1).setReg (A.LP_Ln_MEMBERS 0) 0xF820).modLoop
      0 fun k => { k with order := [0] }).afld (F.PE_CHn_TRGk_DIR (0 : Chan) (0 : Fin 4)) ≠ 0 ∧ dirMatches
      ((((((on.setActFld (F.PE_CHn_CTRL_EN 0) 1).setActFld (F.PE_CHn_TRGk_DIR 0 0) 3).setActFld
      (F.PE_CHn_TRGk_DEST 0 0) 1).setReg (A.LP_Ln_MEMBERS 0) 0xF820).modLoop 0 fun k =>
      { k with order := [0] }).afld (F.PE_CHn_TRGk_DIR (0 : Chan) (0 : Fin 4))) ((((((on.setActFld
      (F.PE_CHn_CTRL_EN 0) 1).setActFld (F.PE_CHn_TRGk_DIR 0 0) 3).setActFld (F.PE_CHn_TRGk_DEST 0 0) 1).setReg
      (A.LP_Ln_MEMBERS 0) 0xF820).modLoop 0 fun k => { k with order := [0] }).bit (F.PE_CHn_POS_DOWN (0 : Chan)))
      = true ∧ (((((on.setActFld (F.PE_CHn_CTRL_EN 0) 1).setActFld (F.PE_CHn_TRGk_DIR 0 0) 3).setActFld
      (F.PE_CHn_TRGk_DEST 0 0) 1).setReg (A.LP_Ln_MEMBERS 0) 0xF820).modLoop 0 fun k =>
      { k with order := [0] }).afld (F.PE_CHn_TRGk_DEST (0 : Chan) (0 : Fin 4)) = 1 ∧ (((((on.setActFld
      (F.PE_CHn_CTRL_EN 0) 1).setActFld (F.PE_CHn_TRGk_DIR 0 0) 3).setActFld (F.PE_CHn_TRGk_DEST 0 0) 1).setReg
      (A.LP_Ln_MEMBERS 0) 0xF820).modLoop 0 fun k => { k with order := [0] }).chanLoop (0 : Chan) = some (0 :
      Loop) ∧ ((((((on.setActFld (F.PE_CHn_CTRL_EN 0) 1).setActFld (F.PE_CHn_TRGk_DIR 0 0) 3).setActFld
      (F.PE_CHn_TRGk_DEST 0 0) 1).setReg (A.LP_Ln_MEMBERS 0) 0xF820).modLoop 0 fun k =>
      { k with order := [0] }).loop (0 : Loop)).order.contains (0 : Chan) = true)
    ∧ ((((on.setActFld (F.PE_CHn_CTRL_EN 0) 1).setActFld (F.PE_CHn_TRGk_DIR 0 0) 3).setActFld (F.PE_CHn_TRGk_DEST
      0 0) 0).chanRun (0 : Chan) = true ∧ (((on.setActFld (F.PE_CHn_CTRL_EN 0) 1).setActFld (F.PE_CHn_TRGk_DIR 0
      0) 3).setActFld (F.PE_CHn_TRGk_DEST 0 0) 0).afld (F.PE_CHn_TRGk_DIR (0 : Chan) (0 : Fin 4)) ≠ 0 ∧ dirMatches
      ((((on.setActFld (F.PE_CHn_CTRL_EN 0) 1).setActFld (F.PE_CHn_TRGk_DIR 0 0) 3).setActFld (F.PE_CHn_TRGk_DEST
      0 0) 0).afld (F.PE_CHn_TRGk_DIR (0 : Chan) (0 : Fin 4))) ((((on.setActFld (F.PE_CHn_CTRL_EN 0) 1).setActFld
      (F.PE_CHn_TRGk_DIR 0 0) 3).setActFld (F.PE_CHn_TRGk_DEST 0 0) 0).bit (F.PE_CHn_POS_DOWN (0 : Chan))) = true
      ∧ (((on.setActFld (F.PE_CHn_CTRL_EN 0) 1).setActFld (F.PE_CHn_TRGk_DIR 0 0) 3).setActFld (F.PE_CHn_TRGk_DEST
      0 0) 0).afld (F.PE_CHn_TRGk_DEST (0 : Chan) (0 : Fin 4)) = 0)
    ∧ ((on.setBit F.PE_STATUS_CAL_W_OK false).domOn (halfDom Half.west) = true ∧ (on.setBit F.PE_STATUS_CAL_W_OK
      false).bit (halfOk Half.west) = false)
    ∧ ((on.setBit F.TST_CFG_DEBUG_OPEN true).debugOpen = true ∧ (on.setBit F.TST_CFG_DEBUG_OPEN true).domOn 9 =
      true)
    ∧ ((on.setBit F.PE_STATUS_FROZEN true).bit F.PE_STATUS_FROZEN = true) := by decide

theorem test_meets_LoopAndProtectionCommandsComplete_a :
    ((((on.setReg (A.LP_Ln_MEMBERS 0) 0xF820).setFld (F.LP_Ln_STATUS_STATE 0) 3).modLoop 0 fun k =>
      { k with order := [0] }).chanLoop (0 : Chan) = some (0 : Loop) ∧ (((on.setReg (A.LP_Ln_MEMBERS 0)
      0xF820).setFld (F.LP_Ln_STATUS_STATE 0) 3).modLoop 0 fun k => { k with order := [0] }).digital (0 : Loop) =
      true ∧ ((((on.setReg (A.LP_Ln_MEMBERS 0) 0xF820).setFld (F.LP_Ln_STATUS_STATE 0) 3).modLoop 0 fun k =>
      { k with order := [0] }).loop (0 : Loop)).order.contains (0 : Chan) = true)
    ∧ ((on.setFld (F.LP_Ln_STATUS_STATE 0) 3).loopSt (0 : Loop) = 3)
    ∧ ((on.setFld (F.LP_Ln_STATUS_STATE 0) 5).loopSt (0 : Loop) = 5)
    ∧ ((((on.setFld (F.LP_Ln_STATUS_STATE 0) 3).setBit (F.LP_Ln_CTRL_CARD_EN 0) true).modLoop 0 fun k =>
      { k with order := [0, 1] }).bit (F.LP_Ln_CTRL_CARD_EN (0 : Fin 8)) = true ∧ (((on.setFld
      (F.LP_Ln_STATUS_STATE 0) 3).setBit (F.LP_Ln_CTRL_CARD_EN 0) true).modLoop 0 fun k =>
      { k with order := [0, 1] }).loopSt (railLoop (0 : Fin 8)) = 3 ∧ ((((on.setFld (F.LP_Ln_STATUS_STATE 0)
      3).setBit (F.LP_Ln_CTRL_CARD_EN 0) true).modLoop 0 fun k => { k with order := [0, 1] }).loop (railLoop (0 :
      Fin 8))).cardBroken = false ∧ ((((on.setFld (F.LP_Ln_STATUS_STATE 0) 3).setBit (F.LP_Ln_CTRL_CARD_EN 0)
      true).modLoop 0 fun k => { k with order := [0, 1] }).loop (railLoop (0 : Fin 8))).inject = none ∧ 2 ≤
      ((((on.setFld (F.LP_Ln_STATUS_STATE 0) 3).setBit (F.LP_Ln_CTRL_CARD_EN 0) true).modLoop 0 fun k =>
      { k with order := [0, 1] }).loop (railLoop (0 : Fin 8))).order.length)
    ∧ ((on.setBit (F.LP_Ln_STATUS_FULLING 0) true).bit (F.LP_Ln_STATUS_FULLING (0 : Fin 8)) = true)
    ∧ (((on.modLoop 0 fun k => { k with notice := some ⟨0, 5⟩ }).loop (railLoop (0 : Fin 8))).notice = some
      (⟨0, 5⟩ : Notice))
    ∧ (((on.setFld (F.LP_Ln_STATUS_STATE 0) 1).loopSt (0 : Loop) == 1 || (on.setFld (F.LP_Ln_STATUS_STATE 0)
      1).loopSt (0 : Loop) == 2) = true ∧ (on.setFld (F.LP_Ln_STATUS_STATE 0) 1).bit (F.PROT_Ln_STATUS_HICCUP (0 :
      Loop)) = false ∧ ((on.setFld (F.LP_Ln_STATUS_STATE 0) 1).loop (0 : Loop)).measured = false)
    ∧ ((on.setFld (F.LP_Ln_STATUS_STATE 0) 1).loopSt (0 : Loop) = 1 ∧ (on.setFld (F.LP_Ln_STATUS_STATE 0) 1).bit
      (F.PROT_Ln_STATUS_HICCUP (0 : Loop)) = false ∧ ((on.setFld (F.LP_Ln_STATUS_STATE 0) 1).loop (0 :
      Loop)).cmpFail = false) := by decide

theorem test_meets_LoopAndProtectionCommandsComplete_b :
    (((on.modLoop 0 fun k => { k with stopLow := true }).loop (railLoop (0 : Fin 8))).stopLow = true)
    ∧ (((on.modLoop 0 fun k => { k with stopping := true }).loop (railLoop (0 : Fin 8))).stopping = true ∧
      (on.modLoop 0 fun k => { k with stopping := true }).bit (F.PROT_Ln_STATUS_OV_LATCH (0 : Fin 8)) = false)
    ∧ (((on.modLoop 0 fun k => { k with inject := some ⟨1024, 1, 0, 0, 0, true, none⟩ }).loop (railLoop (0 : Fin
      8))).inject = some (⟨1024, 1, 0, 0, 0, true, none⟩ : Inject) ∧ (⟨1024, 1, 0, 0, 0, true, none⟩ :
      Inject).running = true ∧ (if (on.modLoop 0 fun k =>
      { k with inject := some ⟨1024, 1, 0, 0, 0, true, none⟩ }).bit (F.LP_Ln_BLK_CFG_LEN (0 : Fin 8)) then 1023
      else 511) < (⟨1024, 1, 0, 0, 0, true, none⟩ : Inject).frame)
    ∧ (on.fitVerdict (railLoop (0 : Fin 8)) (⟨0, 100000, 6000, 1000⟩ : Fit) (Vector.replicate 6 (0 : BitVec 20)) ≠
      1)
    ∧ (((on.setFld (F.LP_Ln_FB_FB_DAC 0) 1).setFld (F.LP_Ln_STATUS_STATE 0) 5).loopSt (0 : Loop) = 5 ∧
      (((on.setFld (F.LP_Ln_FB_FB_DAC 0) 1).setFld (F.LP_Ln_STATUS_STATE 0) 5).loop (0 : Loop)).fbHigh.isNone =
      true ∧ (0 : Int) < (10 * windowStep (0 : Loop) * ((on.setFld (F.LP_Ln_FB_FB_DAC 0) 1).setFld
      (F.LP_Ln_STATUS_STATE 0) 5).fld (F.LP_Ln_FB_FB_DAC (0 : Loop)) : Nat))
    ∧ (((on.modLoop 0 fun k => { k with fbHigh := some 3 }).loop (0 : Loop)).fbHigh = some (3 : Chan))
    ∧ (((on.setFld (F.LP_Ln_STATUS_STATE 0) 3).loopSt (railLoop (0 : Fin 8)) == 3 || (on.setFld
      (F.LP_Ln_STATUS_STATE 0) 3).loopSt (railLoop (0 : Fin 8)) == 5) = true ∧ (on.setFld (F.LP_Ln_STATUS_STATE 0)
      3).bit F.CLK_STATUS_PLL_LOCK = true)
    ∧ (((on.setReg (A.LP_Ln_MEMBERS 0) 0xF820).setBit (F.PROT_Ln_STATUS_HICCUP 0) true).bit
      (F.PROT_Ln_STATUS_HICCUP (0 : Fin 8)) = true ∧ ((on.setReg (A.LP_Ln_MEMBERS 0) 0xF820).setBit
      (F.PROT_Ln_STATUS_HICCUP 0) true).bit (F.PROT_Ln_STATUS_OV_LATCH (0 : Fin 8)) = false ∧ ((((on.setReg
      (A.LP_Ln_MEMBERS 0) 0xF820).setBit (F.PROT_Ln_STATUS_HICCUP 0) true).loop (railLoop (0 : Fin 8))).fbWait =
      false ∨ ((on.setReg (A.LP_Ln_MEMBERS 0) 0xF820).setBit (F.PROT_Ln_STATUS_HICCUP 0) true).returnReady
      (railLoop (0 : Fin 8)) = true) ∧ ((on.setReg (A.LP_Ln_MEMBERS 0) 0xF820).setBit (F.PROT_Ln_STATUS_HICCUP 0)
      true).configBad (railLoop (0 : Fin 8)) = false) := by decide

theorem test_meets_LoopAndProtectionCommandsComplete_c :
    ((on.setFld (F.LP_Ln_STATUS_STATE 0) 3).loopSt (railLoop (0 : Fin 8)) = 3) := by decide

theorem test_meets_LoopAndProtectionCommandsComplete_by_evaluation :
    (((on.setFld (F.LP_Ln_STATUS_STATE 0) 3).setRef 0 0).loopSt (railLoop (0 : Fin 8)) = 3 ∧ ((on.setFld
      (F.LP_Ln_STATUS_STATE 0) 3).setRef 0 0).refNow (railLoop (0 : Fin 8)) = ((on.setFld (F.LP_Ln_STATUS_STATE 0)
      3).setRef 0 0).refTarget (railLoop (0 : Fin 8)) ∧ ((on.setFld (F.LP_Ln_STATUS_STATE 0) 3).setRef 0 0).bit
      (F.LP_Ln_STATUS_SETTLED (0 : Fin 8)) = false ∧ ((on.setFld (F.LP_Ln_STATUS_STATE 0) 3).setRef 0 0).inBand
      (railLoop (0 : Fin 8)) = true)
    ∧ (((on.setFld (F.PROT_Ln_OV_OV_OFS 0) 1).setFld (F.LP_Ln_STATUS_STATE 0) 3).ovActs (railLoop (0 : Fin 8))
      (⟨true, 100000⟩ : OvCrossing).tracking = true ∧ ((on.setFld (F.PROT_Ln_OV_OV_OFS 0) 1).setFld
      (F.LP_Ln_STATUS_STATE 0) 3).domOn 9 = true ∧ ((on.setFld (F.PROT_Ln_OV_OV_OFS 0) 1).setFld
      (F.LP_Ln_STATUS_STATE 0) 3).ovLimit (railLoop (0 : Fin 8)) (⟨true, 100000⟩ : OvCrossing).tracking ≤
      (⟨true, 100000⟩ : OvCrossing).uv)
    ∧ ((0 : Chan).val = (⟨0, 1000, 2000000⟩ : ScCrossing).chan.val ∧ ((((on.setActFld (F.PE_CHn_CTRL_EN 0)
      1).setReg (A.LP_Ln_MEMBERS 0) 0xF820).modChan 0 fun c =>
      { c with begun := true, halfNow := .pwm, cmpUp := 100 })).chanLoop (0 : Chan) = some (0 : Loop) ∧
      ((((on.setActFld (F.PE_CHn_CTRL_EN 0) 1).setReg (A.LP_Ln_MEMBERS 0) 0xF820).modChan 0 fun c =>
      { c with begun := true, halfNow := .pwm, cmpUp := 100 })).pulsing (0 : Chan) = true ∧ (0 : Loop).val < 8 ∧
      ((((on.setActFld (F.PE_CHn_CTRL_EN 0) 1).setReg (A.LP_Ln_MEMBERS 0) 0xF820).modChan 0 fun c =>
      { c with begun := true, halfNow := .pwm, cmpUp := 100 })).fld (F.PROT_Ln_SC_SC_BLANK (0 : Loop)) ≤
      (⟨0, 1000, 2000000⟩ : ScCrossing).since ∧ ((((on.setActFld (F.PE_CHn_CTRL_EN 0) 1).setReg (A.LP_Ln_MEMBERS
      0) 0xF820).modChan 0 fun c => { c with begun := true, halfNow := .pwm, cmpUp := 100 })).scLimit (0 : Loop) ≤
      ((⟨0, 1000, 2000000⟩ : ScCrossing).uv : Rat))
    ∧ ((((on.setFld (F.LP_Ln_STATUS_STATE 0) 3).setFld (F.PROT_Ln_UV_UV_OFS 0) 1).modLoop 0 fun k =>
      { k with vs := -1000000 }).loopSt (railLoop (0 : Fin 8)) = 3 ∧ (((on.setFld (F.LP_Ln_STATUS_STATE 0)
      3).setFld (F.PROT_Ln_UV_UV_OFS 0) 1).modLoop 0 fun k => { k with vs := -1000000 }).fld (F.PROT_Ln_UV_UV_OFS
      (0 : Fin 8)) ≠ 0 ∧ (((on.setFld (F.LP_Ln_STATUS_STATE 0) 3).setFld (F.PROT_Ln_UV_UV_OFS 0) 1).modLoop 0 fun
      k => { k with vs := -1000000 }).belowUv (railLoop (0 : Fin 8)) = true)
    ∧ ((((on.setFld (F.LP_Ln_STATUS_STATE 0) 2).setFld (F.PROT_Ln_TRK_TRACK_ERR 0) 1).modLoop 0 fun k =>
      { k with passed := true, vs := -1000000 }).loopSt (railLoop (0 : Fin 8)) = 2 ∧ ((((on.setFld
      (F.LP_Ln_STATUS_STATE 0) 2).setFld (F.PROT_Ln_TRK_TRACK_ERR 0) 1).modLoop 0 fun k =>
      { k with passed := true, vs := -1000000 }).loop (railLoop (0 : Fin 8))).passed = true ∧ (((on.setFld
      (F.LP_Ln_STATUS_STATE 0) 2).setFld (F.PROT_Ln_TRK_TRACK_ERR 0) 1).modLoop 0 fun k =>
      { k with passed := true, vs := -1000000 }).fld (F.PROT_Ln_TRK_TRACK_ERR (0 : Fin 8)) ≠ 0 ∧ (((on.setFld
      (F.LP_Ln_STATUS_STATE 0) 2).setFld (F.PROT_Ln_TRK_TRACK_ERR 0) 1).modLoop 0 fun k =>
      { k with passed := true, vs := -1000000 }).belowTrack (railLoop (0 : Fin 8)) = true) := by decide +kernel

theorem test_meets_LinkDuplicates_by_evaluation :
    (frameGood (frameWord 1 ⟨0, 0, 200, false⟩) = true ∧ on.linkBusyFor 0 (frameWord 1 ⟨0, 0, 200, false⟩) false =
      false ∧ frameCmd (frameWord 1 ⟨0, 0, 200, false⟩) ≠ 5) := by decide +kernel

theorem test_meets_LinkCrc :
    (15 < 16) := by decide

theorem test_meets_LinkCrc_by_evaluation :
    (frameGood 0xFFFFFFFF = false) := by decide +kernel

theorem test_meets_FaultLadderOrder :
    (bestOf [⟨4, 1, none⟩, ⟨5, 2, none⟩] = some ⟨5, 2, none⟩)
    ∧ (bestOf [] = none)
    ∧ (((on.modLoop 0 fun k => { k with handling := some ⟨4, 2, none⟩, queue := [⟨5, 1, none⟩] }).loop 0).handling
      = some ⟨4, 2, none⟩)
    ∧ (((on.modLoop 0 fun k => { k with handling := some ⟨4, 2, none⟩, queue := [⟨5, 1, none⟩] }).loop 0).handling
      = some ⟨4, 2, none⟩ ∧ ∃ x ∈ ((on.modLoop 0 fun k =>
      { k with handling := some ⟨4, 2, none⟩, queue := [⟨5, 1, none⟩] }).loop 0).queue, x.cause = 5)
    ∧ ((on.loop (0 : Loop)).handling = none)
    ∧ (((on.modLoop 0 fun k => { k with handling := some ⟨4, 2, none⟩, queue := [⟨5, 1, none⟩] }).loop 0).handling
      = some ⟨4, 2, none⟩ ∧ (∀ x ∈ ((on.modLoop 0 fun k =>
      { k with handling := some ⟨4, 2, none⟩, queue := [⟨5, 1, none⟩] }).loop 0).queue, x.cause ≠ 6) ∧
      ((on.modLoop 0 fun k => { k with handling := some ⟨4, 2, none⟩, queue := [⟨5, 1, none⟩] }).loop
      0).queue.length < 2) := by decide

theorem test_meets_LinkCommandsComplete :
    ((on.setReg (A.VLK_n_CFG 0) 0xFFFFFFFF).linkOn (0 : Port) = true)
    ∧ ((on.setReg (A.VLK_n_CFG 0) 0xFFFFFFFF).linkOn (0 : Port) = true)
    ∧ ((((on.setReg (A.VLK_n_CFG 0) 0xFFFFFFFF).setFld (F.VLK_n_ALERTs_CAUSE 0 0) 1).modLink 0 fun k =>
      { k with owed := true }).linkOn (0 : Port) = true ∧ (((on.setReg (A.VLK_n_CFG 0) 0xFFFFFFFF).setFld
      (F.VLK_n_ALERTs_CAUSE 0 0) 1).modLink 0 fun k => { k with owed := true }).attention (0 : Port) = true ∧
      (((on.setReg (A.VLK_n_CFG 0) 0xFFFFFFFF).setFld (F.VLK_n_ALERTs_CAUSE 0 0) 1).modLink 0 fun k =>
      { k with owed := true }).bit (F.VLK_n_STATUS_ATTN (0 : Port)) = false ∧ (if false then (((on.setReg
      (A.VLK_n_CFG 0) 0xFFFFFFFF).setFld (F.VLK_n_ALERTs_CAUSE 0 0) 1).modLink 0 fun k =>
      { k with owed := true }).fld (F.VLK_n_CFG_ATTN_REP (0 : Port)) ≠ 0 else ((((on.setReg (A.VLK_n_CFG 0)
      0xFFFFFFFF).setFld (F.VLK_n_ALERTs_CAUSE 0 0) 1).modLink 0 fun k => { k with owed := true }).link (0 :
      Port)).owed = true))
    ∧ ((on.setReg (A.VLK_n_MAP 0) 0xF0).slotLoop (0 : Port) (0 : Fin 2) = some (0 : Loop)) := by decide

theorem test_meets_LinkCommandsComplete_by_evaluation :
    ((on.setReg (A.VLK_n_CFG 0) 0xFFFFFFFF).linkOn (0 : Port) = true ∧ (on.setReg (A.VLK_n_CFG 0)
      0xFFFFFFFF).frameRefused (0 : Port) (0xFFFFFFFF : Word) false = true)
    ∧ ((on.setReg (A.VLK_n_CFG 0) 0xFFFFFFFF).linkOn 0 = true ∧ (on.setReg (A.VLK_n_CFG 0) 0xFFFFFFFF).linkBusyFor
      0 (frameWord 1 ⟨0, 0, 200, false⟩) false = false ∧ (on.setReg (A.VLK_n_CFG 0) 0xFFFFFFFF).linkDuplicate 0
      (frameWord 1 ⟨0, 0, 200, false⟩) = false) := by decide +kernel

theorem test_meets_PortTimersComplete_a :
    (on.domOn 2 = true)
    ∧ (((on.setTc 0 2).modPort 0 fun k => { k with role := 2 }).domOn 2 = true ∧ (((on.setTc 0 2).modPort 0 fun k
      => { k with role := 2 }).port (0 : Port)).role = 2 ∧ ((on.setTc 0 2).modPort 0 fun k =>
      { k with role := 2 }).deadBattery = false ∧ (((on.setTc 0 2).modPort 0 fun k => { k with role := 2 }).tc (0
      : Port) == 2 || ((on.setTc 0 2).modPort 0 fun k => { k with role := 2 }).tc (0 : Port) == 5) = true)
    ∧ ((on.setTc 0 1).tc (0 : Port) = 1)
    ∧ ((on.setTc 0 8).tc (0 : Port) = 8)
    ∧ ((on.setTc 0 10).tc (0 : Port) = 10)
    ∧ ((on.setTc 0 11).tc (0 : Port) = 11)
    ∧ ((((on.setTc 0 7).modPort 0 fun k => { k with span := .frs }).port (0 : Port)).span ≠ .none ∧ ((on.setTc 0
      7).modPort 0 fun k => { k with span := .frs }).attached (0 : Port) = true)
    ∧ ((on.arm 0 .receive).armed (0 : Port) .receive = true) := by decide

theorem test_meets_PortTimersComplete_b :
    ((on.arm 0 .senderResponse).armed (0 : Port) .senderResponse = true)
    ∧ (((on.setTc 0 7).arm 0 .typeCSendSourceCap).armed (0 : Port) .typeCSendSourceCap = true ∧ ((on.setTc 0
      7).arm 0 .typeCSendSourceCap).isSource (0 : Port) = true ∧ (((on.setTc 0 7).arm 0 .typeCSendSourceCap).port
      (0 : Port)).caps < 50 ∧ ((on.setTc 0 7).arm 0 .typeCSendSourceCap).bit (F.PD_Pp_STATUS_CONTRACT (0 : Port))
      = false)
    ∧ ((on.arm 0 .sinkWaitCap).armed (0 : Port) .sinkWaitCap = true)
    ∧ ((on.arm 0 .psTransition).armed (0 : Port) .psTransition = true)
    ∧ ((on.arm 0 .hardReset).armed (0 : Port) .hardReset = true)
    ∧ ((on.arm 0 .noResponse).armed (0 : Port) .noResponse = true)
    ∧ ((on.arm 0 .enterEpr).armed (0 : Port) .enterEpr = true)
    ∧ (((on.setTc 0 4).arm 0 .sinkEprKeepAlive).armed (0 : Port) .sinkEprKeepAlive = true ∧ ((on.setTc 0 4).arm 0
      .sinkEprKeepAlive).isSink (0 : Port) = true) := by decide

theorem test_meets_PortTimersComplete_c :
    ((on.arm 0 .sourceEprKeepAlive).armed (0 : Port) .sourceEprKeepAlive = true)
    ∧ (((on.setTc 0 4).arm 0 .ppsRequest).armed (0 : Port) .ppsRequest = true ∧ ((on.setTc 0 4).arm 0
      .ppsRequest).isSink (0 : Port) = true)
    ∧ ((on.arm 0 .ppsTimeout).armed (0 : Port) .ppsTimeout = true)
    ∧ ((on.arm 0 .psSourceOn).armed (0 : Port) .psSourceOn = true)
    ∧ ((on.setBit (F.PD_Pp_STATUS_VCONN_SRC 0) true).bit (F.PD_Pp_STATUS_VCONN_SRC (0 : Port)) = true)
    ∧ (((on.setFld (F.LP_Ln_STATUS_STATE 8) 3).setBit (F.PD_Pp_STATUS_FRS_ARMED 0) true).bit
      (F.PD_Pp_STATUS_FRS_ARMED (0 : Port)) = true)
    ∧ ((((on.modPath 0 fun k => { k with frsHold := true }).modPort 0 fun k => { k with span := .frs }).port (0 :
      Port)).span = .frs ∧ (((on.modPath 0 fun k => { k with frsHold := true }).modPort 0 fun k =>
      { k with span := .frs }).path (0 : Port)).frsHold = true)
    ∧ (((on.setTc 0 7).modPort 0 fun k => { k with ams := .prSwap, step := 2 }).isSource (0 : Port) = true ∧
      (((on.setTc 0 7).modPort 0 fun k => { k with ams := .prSwap, step := 2 }).port (0 : Port)).ams = .prSwap ∧
      (((on.setTc 0 7).modPort 0 fun k => { k with ams := .prSwap, step := 2 }).port (0 : Port)).step = 2) := by decide

theorem test_meets_PdMessageCommandsComplete_a :
    (((on.setTc 0 7).modPort 0 fun k => { k with pdEn := true }).domOn 10 = true ∧ (((on.setTc 0 7).modPort 0 fun
      k => { k with pdEn := true }).isSource (0 : Port) || ((on.setTc 0 7).modPort 0 fun k =>
      { k with pdEn := true }).isSink (0 : Port)) = true ∧ (((on.setTc 0 7).modPort 0 fun k =>
      { k with pdEn := true }).port (0 : Port)).pdEn = true ∧ ((on.setTc 0 7).modPort 0 fun k =>
      { k with pdEn := true }).deadBattery = false)
    ∧ (((on.setTc 0 7).modPort 0 fun k => { k with pdEn := true }).domOn 10 = true ∧ (((on.setTc 0 7).modPort 0
      fun k => { k with pdEn := true }).isSource (0 : Port) || ((on.setTc 0 7).modPort 0 fun k =>
      { k with pdEn := true }).isSink (0 : Port)) = true ∧ (((on.setTc 0 7).modPort 0 fun k =>
      { k with pdEn := true }).port (0 : Port)).pdEn = true ∧ ((on.setTc 0 7).modPort 0 fun k =>
      { k with pdEn := true }).deadBattery = false)
    ∧ (((on.setTc 0 4).modPort 0 fun k => { k with rx := [⟨.sop, .sourceCapabilities, 0, [], 2⟩] }).isSink 0 =
      true ∧ ((on.setTc 0 4).modPort 0 fun k => { k with rx := [⟨.sop, .sourceCapabilities, 0, [], 2⟩] }).coreActs
      0 = true ∧ ((on.setTc 0 4).modPort 0 fun k =>
      { k with rx := [⟨.sop, .sourceCapabilities, 0, [], 2⟩] }).c2Acts = true ∧ (((on.setTc 0 4).modPort 0 fun k
      => { k with rx := [⟨.sop, .sourceCapabilities, 0, [], 2⟩] }).takeMsg 0 (fun t => t == .sourceCapabilities ||
      t == .eprSourceCapabilities)).isSome = true)
    ∧ (((on.setTc 0 7).modPort 0 fun k => { k with rx := [⟨.sop, .request, 0, [], 2⟩] }).isSource 0 = true ∧
      ((on.setTc 0 7).modPort 0 fun k => { k with rx := [⟨.sop, .request, 0, [], 2⟩] }).coreActs 0 = true ∧
      ((on.setTc 0 7).modPort 0 fun k => { k with rx := [⟨.sop, .request, 0, [], 2⟩] }).c2Acts = true ∧
      (((on.setTc 0 7).modPort 0 fun k => { k with rx := [⟨.sop, .request, 0, [], 2⟩] }).takeMsg 0 (fun t => t ==
      .request || t == .eprRequest)).isSome = true)
    ∧ (((on.setTc 0 7).modPort 0 fun k => { k with rx := [⟨.sop, .drSwap, 0, [], 2⟩] }).c2Acts = true ∧
      (((on.setTc 0 7).modPort 0 fun k => { k with rx := [⟨.sop, .drSwap, 0, [], 2⟩] }).takeMsg 0 (fun t => t ==
      .drSwap)).isSome = true)
    ∧ (((on.setTc 0 7).modPort 0 fun k => { k with rx := [⟨.sop, .prSwap, 0, [], 2⟩] }).c2Acts = true ∧
      (((on.setTc 0 7).modPort 0 fun k => { k with rx := [⟨.sop, .prSwap, 0, [], 2⟩] }).takeMsg 0 (fun t => t ==
      .prSwap)).isSome = true)
    ∧ (((on.setTc 0 7).modPort 0 fun k => { k with rx := [⟨.sop, .vconnSwap, 0, [], 2⟩] }).c2Acts = true ∧
      (((on.setTc 0 7).modPort 0 fun k => { k with rx := [⟨.sop, .vconnSwap, 0, [], 2⟩] }).takeMsg 0 (fun t => t
      == .vconnSwap)).isSome = true)
    ∧ ((on.setTc 0 7).c2Acts = true ∧ ((on.setTc 0 7).isSink (0 : Port) || (on.setTc 0 7).isSource (0 : Port)) =
      true) := by decide

theorem test_meets_PdMessageCommandsComplete_b :
    ((((on.setTc 0 7).setBit (F.PD_Pp_STATUS_EPR_MODE 0) true).modPort 0 fun k =>
      { k with rx := [⟨.sop, .eprKeepAlive, 0, [], 2⟩] }).isSource 0 = true ∧ (((on.setTc 0 7).setBit
      (F.PD_Pp_STATUS_EPR_MODE 0) true).modPort 0 fun k => { k with rx := [⟨.sop, .eprKeepAlive, 0, [], 2⟩] }).bit
      (F.PD_Pp_STATUS_EPR_MODE 0) = true ∧ ((((on.setTc 0 7).setBit (F.PD_Pp_STATUS_EPR_MODE 0) true).modPort 0
      fun k => { k with rx := [⟨.sop, .eprKeepAlive, 0, [], 2⟩] }).takeMsg 0 (fun t => t == .eprKeepAlive)).isSome
      = true)
    ∧ (on.c2Acts = true)
    ∧ (((on.setTc 0 7).modPort 0 fun k => { k with rx := [⟨.sop, .psRdy, 0, [], 2⟩] }).c2Acts = true ∧ (((on.setTc
      0 7).modPort 0 fun k => { k with rx := [⟨.sop, .psRdy, 0, [], 2⟩] }).takeMsg 0 (fun t => t ==
      .psRdy)).isSome = true)
    ∧ ((((on.setTc 0 7).modPort 0 fun k => { k with pdEn := true }).isSink (0 : Port) || ((on.setTc 0 7).modPort 0
      fun k => { k with pdEn := true }).isSource (0 : Port)) = true ∧ (((on.setTc 0 7).modPort 0 fun k =>
      { k with pdEn := true }).port (0 : Port)).pdEn = true)
    ∧ ((((on.setTc 0 7).modPort 0 fun k => { k with pdEn := true }).isSink (0 : Port) || ((on.setTc 0 7).modPort 0
      fun k => { k with pdEn := true }).isSource (0 : Port)) = true ∧ (((on.setTc 0 7).modPort 0 fun k =>
      { k with pdEn := true }).port (0 : Port)).pdEn = true ∧ ((on.setTc 0 7).modPort 0 fun k =>
      { k with pdEn := true }).deadBattery = false)
    ∧ ((on.setBit (F.PD_Pp_STATUS_VCONN_SRC 0) true).bit (F.PD_Pp_STATUS_VCONN_SRC (0 : Port)) = true ∧ (on.setBit
      (F.PD_Pp_STATUS_VCONN_SRC 0) true).c2Acts = true) := by decide

theorem test_meets_PortPathAndBudgetCommandsComplete_a :
    (((((on.setBit (F.PD_Pp_CFG_PMEM_EN 0) true).modPort 0 fun k => { k with pmemDue := true }).port (0 :
      Port)).pmemDue || !(((on.setBit (F.PD_Pp_CFG_PMEM_EN 0) true).modPort 0 fun k =>
      { k with pmemDue := true }).port (0 : Port)).pmemKept.isEmpty) = true ∧ ((on.setBit (F.PD_Pp_CFG_PMEM_EN 0)
      true).modPort 0 fun k => { k with pmemDue := true }).bit (F.PD_Pp_CFG_PMEM_EN (0 : Port)) = true ∧
      ((on.setBit (F.PD_Pp_CFG_PMEM_EN 0) true).modPort 0 fun k => { k with pmemDue := true }).coreActs 2 = true)
    ∧ (((on.setTc 0 4).setFld (F.PP_Pp_BUD_SNK_PMAX 0) 9).coreActs 0 = true ∧ ((on.setTc 0 4).setFld
      (F.PP_Pp_BUD_SNK_PMAX 0) 9).coreActs 2 = true ∧ ((on.setTc 0 4).setFld (F.PP_Pp_BUD_SNK_PMAX 0) 9).attached
      (0 : Port) = true ∧ ((on.setTc 0 4).setFld (F.PP_Pp_BUD_SNK_PMAX 0) 9).isSource (0 : Port) = false ∧ (9 :
      Fin 1024).val ≤ ((on.setTc 0 4).setFld (F.PP_Pp_BUD_SNK_PMAX 0) 9).fld (F.PP_Pp_BUD_SNK_PMAX (0 : Port)))
    ∧ ((on.setTc 0 7).coreActs 0 = true ∧ (on.setTc 0 7).coreActs 2 = true ∧ (on.setTc 0 7).isSource (0 : Port) =
      true)
    ∧ (on.coreActs 0 = true)
    ∧ (((((on.setFld (F.LP_Ln_STATUS_STATE 8) 3).setMode 0 1).setFld (F.PP_Pp_STATUS_FETS 0) 0).modPath 0 fun k =>
      { k with safe0V := true }).mode (⟨0, 5000000⟩ : PortSense).port = 1 ∧ ((((on.setFld (F.LP_Ln_STATUS_STATE 8)
      3).setMode 0 1).setFld (F.PP_Pp_STATUS_FETS 0) 0).modPath 0 fun k => { k with safe0V := true }).portRuns
      (⟨0, 5000000⟩ : PortSense).port = true ∧ ((((on.setFld (F.LP_Ln_STATUS_STATE 8) 3).setMode 0 1).setFld
      (F.PP_Pp_STATUS_FETS 0) 0).modPath 0 fun k => { k with safe0V := true }).bit (F.PP_Pp_STATUS_FETS
      (⟨0, 5000000⟩ : PortSense).port) = false ∧ (((((on.setFld (F.LP_Ln_STATUS_STATE 8) 3).setMode 0 1).setFld
      (F.PP_Pp_STATUS_FETS 0) 0).modPath 0 fun k => { k with safe0V := true }).path (⟨0, 5000000⟩ :
      PortSense).port).safe0V = true ∧ within (⟨0, 5000000⟩ : PortSense).val 5000000 5 = true)
    ∧ ((((on.setFld (F.LP_Ln_STATUS_STATE 8) 3).setMode 0 1).setRef 8 0).mode (⟨0, 0⟩ : PortSense).port = 1 ∧
      (((on.setFld (F.LP_Ln_STATUS_STATE 8) 3).setMode 0 1).setRef 8 0).loopSt (portLoop (⟨0, 0⟩ :
      PortSense).port) = 3 ∧ (((on.setFld (F.LP_Ln_STATUS_STATE 8) 3).setMode 0 1).setRef 8 0).refNow (portLoop
      (⟨0, 0⟩ : PortSense).port) = (((on.setFld (F.LP_Ln_STATUS_STATE 8) 3).setMode 0 1).setRef 8 0).refTarget
      (portLoop (⟨0, 0⟩ : PortSense).port) ∧ within (⟨0, 0⟩ : PortSense).val ((((on.setFld (F.LP_Ln_STATUS_STATE
      8) 3).setMode 0 1).setRef 8 0).sourceTarget (⟨0, 0⟩ : PortSense).port) 3 = true)
    ∧ (((on.modPath 0 fun k => { k with closing := true }).path (0 : Port)).closing = true)
    ∧ (((on.modPath 0 fun k => { k with closing := true }).path (0 : Port)).closing = true) := by decide

theorem test_meets_PortPathAndBudgetCommandsComplete_b :
    ((on.setBit (F.PP_Pp_STATUS_DSCHG 0) true).bit (F.PP_Pp_STATUS_DSCHG (0 : Port)) = true)
    ∧ ((((on.setFld (F.LP_Ln_STATUS_STATE 8) 3).setMode 0 1).setBit (F.PP_Pp_STATUS_CL 0) true).mode (⟨0, -1⟩ :
      PortSense).port = 1 ∧ (((on.setFld (F.LP_Ln_STATUS_STATE 8) 3).setMode 0 1).setBit (F.PP_Pp_STATUS_CL 0)
      true).portRuns (⟨0, -1⟩ : PortSense).port = true ∧ (((on.setFld (F.LP_Ln_STATUS_STATE 8) 3).setMode 0
      1).setBit (F.PP_Pp_STATUS_CL 0) true).bit (F.PP_Pp_STATUS_CL (⟨0, -1⟩ : PortSense).port) = true ∧ (⟨0, -1⟩ :
      PortSense).val < (((on.setFld (F.LP_Ln_STATUS_STATE 8) 3).setMode 0 1).setBit (F.PP_Pp_STATUS_CL 0)
      true).portOcLimit (⟨0, -1⟩ : PortSense).port)
    ∧ (((on.setFld (F.LP_Ln_STATUS_STATE 8) 3).setMode 0 2).sinks (⟨0, -1⟩ : PortSense).port = true ∧ ((on.setFld
      (F.LP_Ln_STATUS_STATE 8) 3).setMode 0 2).portRuns (⟨0, -1⟩ : PortSense).port = true ∧ 8 * (⟨0, -1⟩ :
      PortSense).val < 7 * 20000 * (((on.setFld (F.LP_Ln_STATUS_STATE 8) 3).setMode 0 2).contractVolt (⟨0, -1⟩ :
      PortSense).port : Nat))
    ∧ (((on.modPath 0 fun k => { k with uvWait := true }).path (⟨0, 5000000⟩ : PortSense).port).uvWait = true ∧
      within (⟨0, 5000000⟩ : PortSense).val (20000 * ((on.modPath 0 fun k =>
      { k with uvWait := true }).contractVolt (⟨0, 5000000⟩ : PortSense).port : Nat)) 5 = true)
    ∧ ((on.setFld (F.LP_Ln_STATUS_STATE 8) 3).portRuns (0 : Port) = true)
    ∧ (((on.modPath 0 fun k => { k with hr := .sourceWait }).path (0 : Port)).hr = .sourceWait)
    ∧ ((((on.setTc 0 7).modPath 0 fun k => { k with hr := .recover }).path (0 : Port)).hr = .recover ∧ ((on.setTc
      0 7).modPath 0 fun k => { k with hr := .recover }).isSource (0 : Port) = true)
    ∧ (((on.setFld (F.LP_Ln_STATUS_STATE 8) 3).portRuns (⟨0, 100000000⟩ : PortSense).port || (on.setFld
      (F.LP_Ln_STATUS_STATE 8) 3).attached (⟨0, 100000000⟩ : PortSense).port) = true ∧ (on.setFld
      (F.LP_Ln_STATUS_STATE 8) 3).portOvLimit (⟨0, 100000000⟩ : PortSense).port ≤ (⟨0, 100000000⟩ :
      PortSense).val) := by decide

theorem test_meets_PortPathAndBudgetCommandsComplete_c :
    (((((on.setFld (F.LP_Ln_STATUS_STATE 8) 3).setActFld (F.PE_CHn_CTRL_EN 24) 1).modChan 24 fun c =>
      { c with begun := true, halfNow := .pwm, cmpUp := 100 })).portRuns (⟨0, 100000000⟩ : PortSense).port = true
      ∧ ((((on.setFld (F.LP_Ln_STATUS_STATE 8) 3).setActFld (F.PE_CHn_CTRL_EN 24) 1).modChan 24 fun c =>
      { c with begun := true, halfNow := .pwm, cmpUp := 100 })).pulsing (((((on.setFld (F.LP_Ln_STATUS_STATE 8)
      3).setActFld (F.PE_CHn_CTRL_EN 24) 1).modChan 24 fun c =>
      { c with begun := true, halfNow := .pwm, cmpUp := 100 })).inputLeg (⟨0, 100000000⟩ : PortSense).port) = true
      ∧ ((((on.setFld (F.LP_Ln_STATUS_STATE 8) 3).setActFld (F.PE_CHn_CTRL_EN 24) 1).modChan 24 fun c =>
      { c with begun := true, halfNow := .pwm, cmpUp := 100 })).peakLimitUv (⟨0, 100000000⟩ : PortSense).port ≤
      (⟨0, 100000000⟩ : PortSense).val)
    ∧ ((on.setFld (F.LP_Ln_STATUS_STATE 8) 3).portRuns (⟨0, -100000⟩ : PortSense).port = true ∧ ((on.setFld
      (F.LP_Ln_STATUS_STATE 8) 3).fld (F.PP_Pp_PROT_REV_LIM (⟨0, -100000⟩ : PortSense).port) : Int) < (if
      (on.setFld (F.LP_Ln_STATUS_STATE 8) 3).sinks (⟨0, -100000⟩ : PortSense).port then (on.setFld
      (F.LP_Ln_STATUS_STATE 8) 3).busCurrent (⟨0, -100000⟩ : PortSense).port (⟨0, -100000⟩ : PortSense).val else
      -(on.setFld (F.LP_Ln_STATUS_STATE 8) 3).busCurrent (⟨0, -100000⟩ : PortSense).port (⟨0, -100000⟩ :
      PortSense).val))
    ∧ ((on.setFld F.PP_DB_DB_ACTIVE 0).fld F.PP_DB_DB_ACTIVE = (⟨0, -100000⟩ : PortSense).port.val ∧ 60 <
      -(on.setFld F.PP_DB_DB_ACTIVE 0).busCurrent (⟨0, -100000⟩ : PortSense).port (⟨0, -100000⟩ : PortSense).val)
    ∧ (((on.modPath 0 fun k => { k with dbRetry := true }).path (0 : Port)).dbRetry = true) := by decide

theorem test_meets_PortPathAndBudgetCommandsComplete_by_evaluation :
    ((((on.setBit (F.PD_Pp_CFG_PMEM_EN 0) true).modPort 0 fun k => { k with pmemDue := true }).port (0 :
      Port)).pmemDue = true ∧ (((on.setBit (F.PD_Pp_CFG_PMEM_EN 0) true).modPort 0 fun k =>
      { k with pmemDue := true }).port (0 : Port)).pmemKept = [] ∧ ((on.setBit (F.PD_Pp_CFG_PMEM_EN 0)
      true).modPort 0 fun k => { k with pmemDue := true }).bit (F.PD_Pp_CFG_PMEM_EN (0 : Port)) = true ∧
      ((on.setBit (F.PD_Pp_CFG_PMEM_EN 0) true).modPort 0 fun k => { k with pmemDue := true }).coreActs 2 = true ∧
      ((on.setBit (F.PD_Pp_CFG_PMEM_EN 0) true).modPort 0 fun k => { k with pmemDue := true }).findFacts
      (((on.setBit (F.PD_Pp_CFG_PMEM_EN 0) true).modPort 0 fun k => { k with pmemDue := true }).facts (0 :
      Port)).quick (((on.setBit (F.PD_Pp_CFG_PMEM_EN 0) true).modPort 0 fun k => { k with pmemDue := true }).facts
      (0 : Port)).id = none ∧ ((on.setBit (F.PD_Pp_CFG_PMEM_EN 0) true).modPort 0 fun k =>
      { k with pmemDue := true }).freePlace = some 0 ∧ (((on.setBit (F.PD_Pp_CFG_PMEM_EN 0) true).modPort 0 fun k
      => { k with pmemDue := true }).facts (0 : Port)).cableId = []) := by decide +kernel

theorem test_meets_TheBudgetIsNotOverspent :
    (∀ p : Port, on.bit (F.PD_Pp_STATUS_FRS_ARMED p) = false) := by decide

theorem test_meets_TheBudgetIsNotOverspent_by_evaluation :
    ((on.setFld F.PP_BUDGET_SYS_P 4000).budgetShort = false) := by decide +kernel

theorem test_meets_SequencerCommandsComplete_a :
    (((((on.setFld F.SEQ_STATUS_CUR 1).setFld F.SEQ_STATUS_DIR 1).setFld (F.SEQ_Sn_CFG_STATE 0) 1).setReg
      (A.SEQ_STk 1) 0xFFFFFFFF).inUpStep (0 : Rail) = true ∧ ((((on.setFld F.SEQ_STATUS_CUR 1).setFld
      F.SEQ_STATUS_DIR 1).setFld (F.SEQ_Sn_CFG_STATE 0) 1).setReg (A.SEQ_STk 1) 0xFFFFFFFF).seq.rails[(0 :
      Rail)].onDone = false)
    ∧ (((((on.setFld F.SEQ_STATUS_CUR 1).setFld F.SEQ_STATUS_DIR 2).setFld (F.SEQ_Sn_CFG_STATE 0) 1).setReg
      (A.SEQ_STk 1) 0xFFFFFFFF).dir = 2 ∧ ((((on.setFld F.SEQ_STATUS_CUR 1).setFld F.SEQ_STATUS_DIR 2).setFld
      (F.SEQ_Sn_CFG_STATE 0) 1).setReg (A.SEQ_STk 1) 0xFFFFFFFF).railState (0 : Rail) = ((((on.setFld
      F.SEQ_STATUS_CUR 1).setFld F.SEQ_STATUS_DIR 2).setFld (F.SEQ_Sn_CFG_STATE 0) 1).setReg (A.SEQ_STk 1)
      0xFFFFFFFF).cur ∧ ((((on.setFld F.SEQ_STATUS_CUR 1).setFld F.SEQ_STATUS_DIR 2).setFld (F.SEQ_Sn_CFG_STATE 0)
      1).setReg (A.SEQ_STk 1) 0xFFFFFFFF).seq.rails[(0 : Rail)].offDone = false)
    ∧ (on.inUpStep (0 : Rail) = false)
    ∧ (((((on.setBit (F.SEQ_Sn_STAT_ON 0) true).setBit (F.SEQ_Sn_STAT_INSIDE 0) true).setBit (F.SEQ_Sn_CFG_PG_REQ
      0) true).setBit (F.SEQ_Sn_STAT_GOOD 0) false).railIsOn (0 : Rail) = true ∧ ((((on.setBit (F.SEQ_Sn_STAT_ON
      0) true).setBit (F.SEQ_Sn_STAT_INSIDE 0) true).setBit (F.SEQ_Sn_CFG_PG_REQ 0) true).setBit
      (F.SEQ_Sn_STAT_GOOD 0) false).bit (F.SEQ_Sn_STAT_INSIDE (0 : Rail)) = true ∧ ((((on.setBit (F.SEQ_Sn_STAT_ON
      0) true).setBit (F.SEQ_Sn_STAT_INSIDE 0) true).setBit (F.SEQ_Sn_CFG_PG_REQ 0) true).setBit
      (F.SEQ_Sn_STAT_GOOD 0) false).bit (F.SEQ_Sn_CFG_PG_REQ (0 : Rail)) = true)
    ∧ (((((on.setBit (F.SEQ_Sn_STAT_ON 0) true).setBit (F.SEQ_Sn_STAT_INSIDE 0) false).setBit (F.SEQ_Sn_CFG_PG_REQ
      0) true).setBit (F.SEQ_Sn_STAT_GOOD 0) true).railIsGood (0 : Rail) = true ∧ ((((on.setBit (F.SEQ_Sn_STAT_ON
      0) true).setBit (F.SEQ_Sn_STAT_INSIDE 0) false).setBit (F.SEQ_Sn_CFG_PG_REQ 0) true).setBit
      (F.SEQ_Sn_STAT_GOOD 0) true).bit (F.SEQ_Sn_CFG_PG_REQ (0 : Rail)) = true ∧ ((((on.setBit (F.SEQ_Sn_STAT_ON
      0) true).setBit (F.SEQ_Sn_STAT_INSIDE 0) false).setBit (F.SEQ_Sn_CFG_PG_REQ 0) true).setBit
      (F.SEQ_Sn_STAT_GOOD 0) true).bit (F.SEQ_Sn_STAT_INSIDE (0 : Rail)) = false)
    ∧ ((((((on.setFld F.SEQ_STATUS_CUR 1).setFld F.SEQ_STATUS_DIR 2).setFld (F.SEQ_Sn_CFG_STATE 0) 1).setReg
      (A.SEQ_STk 1) 0xFFFFFFFF).modRail 0 fun r => { r with offDone := true }).dir = 2 ∧ (((((on.setFld
      F.SEQ_STATUS_CUR 1).setFld F.SEQ_STATUS_DIR 2).setFld (F.SEQ_Sn_CFG_STATE 0) 1).setReg (A.SEQ_STk 1)
      0xFFFFFFFF).modRail 0 fun r => { r with offDone := true }).railState (⟨0, 0⟩ : RailSense).rail =
      (((((on.setFld F.SEQ_STATUS_CUR 1).setFld F.SEQ_STATUS_DIR 2).setFld (F.SEQ_Sn_CFG_STATE 0) 1).setReg
      (A.SEQ_STk 1) 0xFFFFFFFF).modRail 0 fun r => { r with offDone := true }).cur ∧ (((((on.setFld
      F.SEQ_STATUS_CUR 1).setFld F.SEQ_STATUS_DIR 2).setFld (F.SEQ_Sn_CFG_STATE 0) 1).setReg (A.SEQ_STk 1)
      0xFFFFFFFF).modRail 0 fun r => { r with offDone := true }).seq.rails[(⟨0, 0⟩ : RailSense).rail].offDone =
      true ∧ (((((on.setFld F.SEQ_STATUS_CUR 1).setFld F.SEQ_STATUS_DIR 2).setFld (F.SEQ_Sn_CFG_STATE 0) 1).setReg
      (A.SEQ_STk 1) 0xFFFFFFFF).modRail 0 fun r => { r with offDone := true }).senseOff (⟨0, 0⟩ : RailSense) =
      true)
    ∧ (((((((on.setFld F.SEQ_STATUS_CUR 1).setFld F.SEQ_STATUS_DIR 1).setFld (F.SEQ_Sn_CFG_STATE 0) 1).setReg
      (A.SEQ_STk 1) 0xFFFFFFFF).setBit (F.SEQ_Sn_STAT_GOOD 0) true).modRail 0 fun r =>
      { r with onDone := true }).upDone = true)
    ∧ ((((((on.setFld F.SEQ_STATUS_CUR 1).setFld F.SEQ_STATUS_DIR 2).setFld (F.SEQ_Sn_CFG_STATE 0) 1).setReg
      (A.SEQ_STk 1) 0xFFFFFFFF).modRail 0 fun r => { r with offDone := true }).downDone = true) := by decide

theorem test_meets_SequencerCommandsComplete_b :
    (((((on.setFld F.SEQ_STATUS_CUR 1).setFld F.SEQ_STATUS_DIR 1).setFld (F.SEQ_Sn_CFG_STATE 0) 1).setReg
      (A.SEQ_STk 1) 0xFFFFFFFF).dir = 1 ∧ ((((on.setFld F.SEQ_STATUS_CUR 1).setFld F.SEQ_STATUS_DIR 1).setFld
      (F.SEQ_Sn_CFG_STATE 0) 1).setReg (A.SEQ_STk 1) 0xFFFFFFFF).seq.complete = false ∧ ((((on.setFld
      F.SEQ_STATUS_CUR 1).setFld F.SEQ_STATUS_DIR 1).setFld (F.SEQ_Sn_CFG_STATE 0) 1).setReg (A.SEQ_STk 1)
      0xFFFFFFFF).fld (F.SEQ_STk_UP_TMO ((((on.setFld F.SEQ_STATUS_CUR 1).setFld F.SEQ_STATUS_DIR 1).setFld
      (F.SEQ_Sn_CFG_STATE 0) 1).setReg (A.SEQ_STk 1) 0xFFFFFFFF).cur) ≠ 0 ∧ ((((((on.setFld F.SEQ_STATUS_CUR
      1).setFld F.SEQ_STATUS_DIR 1).setFld (F.SEQ_Sn_CFG_STATE 0) 1).setReg (A.SEQ_STk 1) 0xFFFFFFFF).railsOf
      ((((on.setFld F.SEQ_STATUS_CUR 1).setFld F.SEQ_STATUS_DIR 1).setFld (F.SEQ_Sn_CFG_STATE 0) 1).setReg
      (A.SEQ_STk 1) 0xFFFFFFFF).cur).find? fun n => !(((((on.setFld F.SEQ_STATUS_CUR 1).setFld F.SEQ_STATUS_DIR
      1).setFld (F.SEQ_Sn_CFG_STATE 0) 1).setReg (A.SEQ_STk 1) 0xFFFFFFFF).seq.rails[n].onDone && ((((on.setFld
      F.SEQ_STATUS_CUR 1).setFld F.SEQ_STATUS_DIR 1).setFld (F.SEQ_Sn_CFG_STATE 0) 1).setReg (A.SEQ_STk 1)
      0xFFFFFFFF).railIsGood n)) = some 0)
    ∧ (((((on.setFld F.SEQ_STATUS_CUR 1).setFld F.SEQ_STATUS_DIR 2).setFld (F.SEQ_Sn_CFG_STATE 0) 1).setReg
      (A.SEQ_STk 1) 0xFFFFFFFF).dir = 2 ∧ ((((on.setFld F.SEQ_STATUS_CUR 1).setFld F.SEQ_STATUS_DIR 2).setFld
      (F.SEQ_Sn_CFG_STATE 0) 1).setReg (A.SEQ_STk 1) 0xFFFFFFFF).fld (F.SEQ_STk_DN_TMO ((((on.setFld
      F.SEQ_STATUS_CUR 1).setFld F.SEQ_STATUS_DIR 2).setFld (F.SEQ_Sn_CFG_STATE 0) 1).setReg (A.SEQ_STk 1)
      0xFFFFFFFF).cur) ≠ 0)
    ∧ (((on.setFld F.SEQ_CTRL_TARGET 1).modSeq fun q => { q with ready := true }).seq.ready = true ∧ ((on.setFld
      F.SEQ_CTRL_TARGET 1).modSeq fun q => { q with ready := true }).seq.holdOff = false ∧ ((on.setFld
      F.SEQ_CTRL_TARGET 1).modSeq fun q => { q with ready := true }).cur ≠ ((on.setFld F.SEQ_CTRL_TARGET 1).modSeq
      fun q => { q with ready := true }).target)
    ∧ ((on.modSeq fun q => { q with holdOff := true }).seq.holdOff = true ∧ (on.modSeq fun q =>
      { q with holdOff := true }).seq.ready = false)
    ∧ (((on.setReg A.SEQ_CFG 0xFFFFFFFF).modSeq fun q => { q with ready := true }).seq.ready = true ∧ ((on.setReg
      A.SEQ_CFG 0xFFFFFFFF).modSeq fun q => { q with ready := true }).seq.holdOff = false ∧ ((on.setReg A.SEQ_CFG
      0xFFFFFFFF).modSeq fun q => { q with ready := true }).fld F.SEQ_CFG_SYNC_TMO ≠ 0)
    ∧ (((on.modSeq fun q => { q with rst := q.rst.set 0 ⟨true, false⟩ }).seq.rst[(0 : Fin 4)].stretch ||
      ((on.modSeq fun q => { q with rst := q.rst.set 0 ⟨true, false⟩ }).seq.rst[(0 : Fin 4)].lossHeld &&
      (on.modSeq fun q => { q with rst := q.rst.set 0 ⟨true, false⟩ }).rstGood (0 : Fin 4))) = true) := by decide

theorem test_meets_ASequencerStepCompletesInOrder :
    (((((((on.setFld F.SEQ_STATUS_CUR 1).setFld F.SEQ_STATUS_DIR 1).setFld (F.SEQ_Sn_CFG_STATE 0) 1).setReg
      (A.SEQ_STk 1) 0xFFFFFFFF).setBit (F.SEQ_Sn_STAT_GOOD 0) true).modRail 0 fun r =>
      { r with onDone := true }).upDone = true ∧ ((((((on.setFld F.SEQ_STATUS_CUR 1).setFld F.SEQ_STATUS_DIR
      1).setFld (F.SEQ_Sn_CFG_STATE 0) 1).setReg (A.SEQ_STk 1) 0xFFFFFFFF).setBit (F.SEQ_Sn_STAT_GOOD 0)
      true).modRail 0 fun r => { r with onDone := true }).railState (0 : Rail) = ((((((on.setFld F.SEQ_STATUS_CUR
      1).setFld F.SEQ_STATUS_DIR 1).setFld (F.SEQ_Sn_CFG_STATE 0) 1).setReg (A.SEQ_STk 1) 0xFFFFFFFF).setBit
      (F.SEQ_Sn_STAT_GOOD 0) true).modRail 0 fun r => { r with onDone := true }).cur ∧ ((((((on.setFld
      F.SEQ_STATUS_CUR 1).setFld F.SEQ_STATUS_DIR 1).setFld (F.SEQ_Sn_CFG_STATE 0) 1).setReg (A.SEQ_STk 1)
      0xFFFFFFFF).setBit (F.SEQ_Sn_STAT_GOOD 0) true).modRail 0 fun r => { r with onDone := true }).cur ≠ 0)
    ∧ ((((((on.setFld F.SEQ_STATUS_CUR 1).setFld F.SEQ_STATUS_DIR 2).setFld (F.SEQ_Sn_CFG_STATE 0) 1).setReg
      (A.SEQ_STk 1) 0xFFFFFFFF).modRail 0 fun r => { r with offDone := true }).downDone = true ∧ (((((on.setFld
      F.SEQ_STATUS_CUR 1).setFld F.SEQ_STATUS_DIR 2).setFld (F.SEQ_Sn_CFG_STATE 0) 1).setReg (A.SEQ_STk 1)
      0xFFFFFFFF).modRail 0 fun r => { r with offDone := true }).railState (0 : Rail) = (((((on.setFld
      F.SEQ_STATUS_CUR 1).setFld F.SEQ_STATUS_DIR 2).setFld (F.SEQ_Sn_CFG_STATE 0) 1).setReg (A.SEQ_STk 1)
      0xFFFFFFFF).modRail 0 fun r => { r with offDone := true }).cur ∧ (((((on.setFld F.SEQ_STATUS_CUR 1).setFld
      F.SEQ_STATUS_DIR 2).setFld (F.SEQ_Sn_CFG_STATE 0) 1).setReg (A.SEQ_STk 1) 0xFFFFFFFF).modRail 0 fun r =>
      { r with offDone := true }).cur ≠ 0)
    ∧ (8 ≤ (8 : Rail).val ∧ (on.modRail 8 fun r => { r with readsOff := true }).railReads (8 : Rail) = true)
    ∧ (on.seq.rails[(0 : Rail)].readsOff = false)
    ∧ ((on.setFld F.SEQ_STATUS_CUR 63).cur < 64) := by decide

theorem test_meets_HostTransactionsComplete :
    (on.answers 0 ⟨0x10, some [5], .good, .free⟩ = true ∧ on.hears 0 ⟨0x10, some [5], .good, .free⟩ = true ∧
      on.serves (cmdPage 0).code = true ∧ (Instr.page 0 ⟨0x10, some [5], .good, .free⟩).transaction?.isSome = true
      ∧ on.pecFails 0 ⟨0x10, some [5], .good, .free⟩ = false ∧ (cmdPage 0).count = some 1 ∧ on.mbxDownAt 0 [5] =
      false)
    ∧ ((cmdPage 0).count ≠ some 2)
    ∧ (on.overStretched 0 = false ∧ on.answers 0 ⟨0x10, none, .absent, .free⟩ = true ∧ on.hears 0
      ⟨0x10, none, .absent, .free⟩ = true ∧ (Instr.page 0 ⟨0x10, none, .absent, .free⟩).transaction?.isSome = true
      ∧ (cmdPage 0).read.isSome = true)
    ∧ ((cmdClearFaults 0).read.isNone = true)
    ∧ ((on.setFld F.TST_TW_S 200).overStretched 0 = true) := by decide

theorem test_meets_PacketErrorChecking :
    (on.answers 0 ⟨0x10, some [5], .bad, .free⟩ = true ∧ on.hears 0 ⟨0x10, some [5], .bad, .free⟩ = true ∧
      on.mbxDownAt 0 [5] = false) := by decide

theorem test_meets_PagesAreEachPortsOwn :
    (on.answers 0 ⟨0x10, some [11], .good, .free⟩ = true ∧ on.hears 0 ⟨0x10, some [11], .good, .free⟩ = true ∧
      on.serves (cmdPage 0).code = true ∧ on.pecFails 0 ⟨0x10, some [11], .good, .free⟩ = false)
    ∧ (12 ≤ (12 : Byte).toNat)
    ∧ (((on.setFld (F.HP_OWNERr_OWNER 0) 2).page (0 : HostId)).val < 8 ∧ (on.setFld (F.HP_OWNERr_OWNER 0) 2).owner
      ((on.setFld (F.HP_OWNERr_OWNER 0) 2).page (0 : HostId)).val ≠ (0 : HostId).val)
    ∧ (((on.setFld (F.HP_OWNERr_OWNER 0) 0).page (0 : HostId)).val < 8 ∧ (on.setFld (F.HP_OWNERr_OWNER 0) 0).owner
      ((on.setFld (F.HP_OWNERr_OWNER 0) 0).page (0 : HostId)).val = (0 : HostId).val) := by decide

theorem test_meets_Linear11IsNearest :
    (1023 ≤ 1023) := by decide

theorem test_meets_Linear11IsNearest_by_evaluation :
    (((List.range 16).find? (fun i => decide (-1024 ≤ mantissa 1023 i) && decide (mantissa 1023 i ≤ 1023))) = some
      8)
    ∧ (-1024 ≤ mantissa 1023 8 ∧ mantissa 1023 8 ≤ 1023) := by decide +kernel

theorem test_meets_HostEventsAndTenancyComplete_a :
    (on.answers 0 ⟨0x10, none, .absent, .free⟩ = true ∧ on.hears 0 ⟨0x10, none, .absent, .free⟩ = true ∧ on.serves
      0xD5 = false)
    ∧ (on.answers 0 ⟨0x10, none, .absent, .wonLater⟩ = true ∧ on.hears 0 ⟨0x10, none, .absent, .wonLater⟩ = false)
    ∧ (on.portOpen (0 : HostId) = true)
    ∧ (on.portOpen (0 : HostId) = true)
    ∧ (on.portOpen (0 : HostId) = true)
    ∧ (({ on with hosts := on.hosts.set 0 ⟨0, some 9, 0⟩ }).hosts[(0 : HostId)].notify = some (9 : BitVec 16) ∧
      ({ on with hosts := on.hosts.set 0 ⟨0, some 9, 0⟩ }).domOn 2 = true ∧
      ({ on with hosts := on.hosts.set 0 ⟨0, some 9, 0⟩ }).hosts[(0 : HostId)].losses = 0)
    ∧ (({ on with hosts := on.hosts.set 0 ⟨0, some 9, 0⟩ }).hosts[(0 : HostId)].notify = some (9 : BitVec 16) ∧
      ({ on with hosts := on.hosts.set 0 ⟨0, some 9, 0⟩ }).domOn 2 = true ∧
      ({ on with hosts := on.hosts.set 0 ⟨0, some 9, 0⟩ }).hosts[(0 : HostId)].losses = 0)
    ∧ (({ on with hosts := on.hosts.set 0 ⟨0, some 9, 1⟩ }).hosts[(0 : HostId)].notify = some (9 : BitVec 16) ∧
      ({ on with hosts := on.hosts.set 0 ⟨0, some 9, 1⟩ }).domOn 2 = true ∧ 0 <
      ({ on with hosts := on.hosts.set 0 ⟨0, some 9, 1⟩ }).hosts[(0 : HostId)].losses) := by decide

theorem test_meets_HostEventsAndTenancyComplete_b :
    (({ on with hosts := on.hosts.set 0 ⟨0, some 9, 3⟩ }).hosts[(0 : HostId)].notify = some (9 : BitVec 16) ∧
      ({ on with hosts := on.hosts.set 0 ⟨0, some 9, 3⟩ }).domOn 2 = true ∧
      ({ on with hosts := on.hosts.set 0 ⟨0, some 9, 3⟩ }).hosts[(0 : HostId)].losses = 3)
    ∧ ((3 : Fin 6).val = (if false then (0 : HostId).val else (0 : HostId).val + 3) ∧
      ({ on.setReg (A.MBX_CHn_DATA 64) 0x10000000 with tenancy := [3] }).coreActs 0 = true ∧
      ({ on.setReg (A.MBX_CHn_DATA 64) 0x10000000 with tenancy := [3] }).seedling = false ∧
      ({ on.setReg (A.MBX_CHn_DATA 64) 0x10000000 with tenancy := [3] }).houseOp = false ∧
      ({ on.setReg (A.MBX_CHn_DATA 64) 0x10000000 with tenancy := [3] }).tenancy.head? = some (3 : Fin 6) ∧
      tenancyOp (({ on.setReg (A.MBX_CHn_DATA 64) 0x10000000 with tenancy := [3] }).reg (A.MBX_CHn_DATA
      (tenancyChan (3 : Fin 6)))) = 1)
    ∧ ((3 : Fin 6).val = (if false then (0 : HostId).val else (0 : HostId).val + 3) ∧
      ({ on.setReg (A.MBX_CHn_DATA 64) 0x20000000 with tenancy := [3] }).coreActs 0 = true ∧
      ({ on.setReg (A.MBX_CHn_DATA 64) 0x20000000 with tenancy := [3] }).seedling = false ∧
      ({ on.setReg (A.MBX_CHn_DATA 64) 0x20000000 with tenancy := [3] }).houseOp = false ∧
      ({ on.setReg (A.MBX_CHn_DATA 64) 0x20000000 with tenancy := [3] }).tenancy.head? = some (3 : Fin 6) ∧
      tenancyOp (({ on.setReg (A.MBX_CHn_DATA 64) 0x20000000 with tenancy := [3] }).reg (A.MBX_CHn_DATA
      (tenancyChan (3 : Fin 6)))) = 2)
    ∧ ((3 : Fin 6).val = (if false then (0 : HostId).val else (0 : HostId).val + 3) ∧
      ({ on.setReg (A.MBX_CHn_DATA 64) 0x30000000 with tenancy := [3] }).coreActs 0 = true ∧
      ({ on.setReg (A.MBX_CHn_DATA 64) 0x30000000 with tenancy := [3] }).seedling = false ∧
      ({ on.setReg (A.MBX_CHn_DATA 64) 0x30000000 with tenancy := [3] }).houseOp = false ∧
      ({ on.setReg (A.MBX_CHn_DATA 64) 0x30000000 with tenancy := [3] }).tenancy.head? = some (3 : Fin 6) ∧
      tenancyOp (({ on.setReg (A.MBX_CHn_DATA 64) 0x30000000 with tenancy := [3] }).reg (A.MBX_CHn_DATA
      (tenancyChan (3 : Fin 6)))) = 3) := by decide

theorem test_meets_TenancyAnswers :
    (14 < 15) := by decide

theorem test_meets_SecureChannels :
    (on.bit (F.HP_TWk_CFG_SECURE (1 : HostId)) = false ∧ on.domOn 2 = true ∧ on.limited = false)
    ∧ ((on.setBit (F.HP_TWk_CFG_SECURE 0) true).bit (F.HP_TWk_CFG_SECURE 0) = true) := by decide

theorem test_meets_AMailboxWordIsHeldUntilAnswered :
    ((on.setBit (F.HP_TWk_CFG_SECURE 0) true).mbxCheck (Writer.host 0) (0 : Fin 256).val = 0)
    ∧ (((on.setBit (F.HP_TWk_CFG_SECURE 0) true).setFld (F.MBX_CHn_ACK_FULL 0) 1).mbxCheck (Writer.host 0) 0 = 9)
    ∧ ((on.setFld (F.MBX_CHn_ACK_FULL 0) 1).mbxReceiver (0 : Fin 256).val = some (Writer.core 0) ∧ (on.setFld
      (F.MBX_CHn_ACK_FULL 0) 1).notSecure (Writer.core 0) = false ∧ (on.setFld (F.MBX_CHn_ACK_FULL 0) 1).mbxFull
      (0 : Fin 256).val = true ∧ 65535 < 65536)
    ∧ (on.mbxReceiver 0 ≠ some (Writer.host 0)) := by decide

theorem test_meets_InterruptEnables :
    (on.domOn 2 = true ∧ on.limited = false) := by decide

theorem test_meets_ClearingCauses :
    (on.domOn 2 = true ∧ on.limited = false) := by decide

theorem test_meets_ContainmentAndLiveServiceCommandsComplete_a :
    (((on.setFld (F.LP_Ln_STATUS_STATE 0) 3).setBit F.IRQ_CONT_STATUS_CHECKER_OK true).domOn 9 = true ∧
      ((on.setFld (F.LP_Ln_STATUS_STATE 0) 3).setBit F.IRQ_CONT_STATUS_CHECKER_OK true).digital (0 : Loop) = true
      ∧ ((on.setFld (F.LP_Ln_STATUS_STATE 0) 3).setBit F.IRQ_CONT_STATUS_CHECKER_OK true).bit
      F.IRQ_CONT_STATUS_CHECKER_OK = true)
    ∧ (on.domOn 9 = true)
    ∧ (on.power.d0Up = true ∧ on.bit F.CLK_STATUS_FRC_RUN = true)
    ∧ (on.power.d0Up = true ∧ on.power.slow ≠ .fastRc)
    ∧ (on.bankOn (4 * (0x7FFFF : Fin 0x80000).val) = true ∧ 4 * (0x7FFFF : Fin 0x80000).val ≤ on.scrubEnd)
    ∧ (on.domOn 2 = true)
    ∧ (((on.setFld (F.LIVE_HOk_STATE 1) 1).modLive fun v => { v with handover := some 1 }).live.handover = some (1
      : Core) ∧ ((on.setFld (F.LIVE_HOk_STATE 1) 1).modLive fun v => { v with handover := some 1 }).hoState (1 :
      Core) = 1)
    ∧ (((on.setFld (F.LIVE_HOk_STATE 1) 2).modLive fun v => { v with handover := some 1 }).live.handover = some (1
      : Core) ∧ ((on.setFld (F.LIVE_HOk_STATE 1) 2).modLive fun v => { v with handover := some 1 }).hoState (1 :
      Core) = 2) := by decide

theorem test_meets_ContainmentAndLiveServiceCommandsComplete_b :
    (((on.setFld (F.LIVE_HOk_STATE 1) 3).modLive fun v => { v with handover := some 1 }).live.handover = some (1 :
      Core) ∧ ((on.setFld (F.LIVE_HOk_STATE 1) 3).modLive fun v => { v with handover := some 1 }).hoState (1 :
      Core) = 3)
    ∧ (((on.setFld (F.LP_Ln_STATUS_STATE 0) 3).modLive fun v =>
      { v with retrim := some ⟨0, .settling, 0, false⟩ }).live.retrim = some (⟨0, .settling, 0, false⟩ : Retrim) ∧
      (⟨0, .settling, 0, false⟩ : Retrim).step = .settling ∧ ((on.setFld (F.LP_Ln_STATUS_STATE 0) 3).modLive fun v
      => { v with retrim := some ⟨0, .settling, 0, false⟩ }).retrimLost (⟨0, .settling, 0, false⟩ : Retrim) =
      false)
    ∧ (((on.setFld (F.LP_Ln_STATUS_STATE 0) 3).modLive fun v =>
      { v with retrim := some ⟨0, .settling, 0, false⟩ }).live.retrim = some (⟨0, .settling, 0, false⟩ : Retrim) ∧
      (⟨0, .settling, 0, false⟩ : Retrim).step = .settling ∧ ((on.setFld (F.LP_Ln_STATUS_STATE 0) 3).modLive fun v
      => { v with retrim := some ⟨0, .settling, 0, false⟩ }).retrimLost (⟨0, .settling, 0, false⟩ : Retrim) =
      false)
    ∧ (((on.setFld (F.LP_Ln_STATUS_STATE 0) 3).modLive fun v =>
      { v with retrim := some ⟨0, .twin, 0, false⟩ }).live.retrim = some (⟨0, .twin, 0, false⟩ : Retrim) ∧
      (⟨0, .twin, 0, false⟩ : Retrim).step = .twin ∧ ((on.setFld (F.LP_Ln_STATUS_STATE 0) 3).modLive fun v =>
      { v with retrim := some ⟨0, .twin, 0, false⟩ }).retrimLost (⟨0, .twin, 0, false⟩ : Retrim) = false)
    ∧ (((on.setFld (F.LP_Ln_STATUS_STATE 0) 3).modLive fun v =>
      { v with retrim := some ⟨0, .done, 0, false⟩ }).live.retrim = some (⟨0, .done, 0, false⟩ : Retrim) ∧
      ((⟨0, .done, 0, false⟩ : Retrim).step = .twin ∨ (⟨0, .done, 0, false⟩ : Retrim).step = .done) ∧ ((on.setFld
      (F.LP_Ln_STATUS_STATE 0) 3).modLive fun v => { v with retrim := some ⟨0, .done, 0, false⟩ }).retrimLost
      (⟨0, .done, 0, false⟩ : Retrim) = false)
    ∧ (((on.setFld (F.LP_Ln_STATUS_STATE 0) 3).modLive fun v =>
      { v with retrim := some ⟨0, .done, 0, true⟩ }).live.retrim = some (⟨0, .done, 0, true⟩ : Retrim) ∧
      (⟨0, .done, 0, true⟩ : Retrim).step ≠ .old ∧ ((on.setFld (F.LP_Ln_STATUS_STATE 0) 3).modLive fun v =>
      { v with retrim := some ⟨0, .done, 0, true⟩ }).retrimLost (⟨0, .done, 0, true⟩ : Retrim) = true)
    ∧ ((on.modTst fun t => { t with lockout := true }).tst.lockout = true)
    ∧ ((on.modTst fun t => { t with half := true }).tst.half = true) := by decide

theorem test_meets_ContainmentAndLiveServiceCommandsComplete_by_evaluation :
    ((((on.setFld (F.LP_Ln_STATUS_STATE 0) 3).setBit (F.LP_Ln_FB_FB_TRACK 0) true).modLoop 0 fun k =>
      { k with vs := 100000 }).loopSt (⟨0, true⟩ : CrossSense).loop = 3 ∧ (((on.setFld (F.LP_Ln_STATUS_STATE 0)
      3).setBit (F.LP_Ln_FB_FB_TRACK 0) true).modLoop 0 fun k => { k with vs := 100000 }).bit (F.LP_Ln_FB_FB_TRACK
      (⟨0, true⟩ : CrossSense).loop) = true ∧ (((on.setFld (F.LP_Ln_STATUS_STATE 0) 3).setBit (F.LP_Ln_FB_FB_TRACK
      0) true).modLoop 0 fun k => { k with vs := 100000 }).sensesDiffer (⟨0, true⟩ : CrossSense) = true) := by decide +kernel

theorem test_meets_SramMirrors :
    (on.sramBad.contains 0 = false)
    ∧
      ((({ on with sramBad := [4], boot := { on.boot with sections := [⟨0, true, 1, 0, 0, 64⟩] } }).sramBad.contains
      4 = true ∨ false = true) ∧
      ({ on with sramBad := [4], boot := { on.boot with sections := [⟨0, true, 1, 0, 0, 64⟩] } }).mirrorOf 4 =
      some 0x80004 ∧
      ({ on with sramBad := [4], boot := { on.boot with sections := [⟨0, true, 1, 0, 0, 64⟩] } }).sramBad.contains
      0x80004 = false ∧ 4 % 4 = 0)
    ∧
      (({ on with sramBad := [4, 0x80004], boot := { on.boot with sections := [⟨0, true, 1, 0, 0, 64⟩] } }).sramBad.contains
      4 = true ∧
      ({ on with sramBad := [4, 0x80004], boot := { on.boot with sections := [⟨0, true, 1, 0, 0, 64⟩] } }).mirrorOf
      4 = some 0x80004 ∧
      ({ on with sramBad := [4, 0x80004], boot := { on.boot with sections := [⟨0, true, 1, 0, 0, 64⟩] } }).sramBad.contains
      0x80004 = true)
    ∧ (({ on with sramBad := [4] }).sramBad.contains 4 = true ∧ ({ on with sramBad := [4] }).mirrorOf 4 = none) := by decide

theorem test_meets_TelemetryAndKeeperCommandsComplete_a :
    ((on.modTcv fun k => { k with run := some ⟨0, .scan, true, .timed 10, false, false, false⟩ }).tcv.run = some
      (⟨0, .scan, true, .timed 10, false, false, false⟩ : TcvRun) ∧
      (⟨0, .scan, true, .timed 10, false, false, false⟩ : TcvRun).begun = true ∧ (on.modTcv fun k =>
      { k with run := some ⟨0, .scan, true, .timed 10, false, false, false⟩ }).domOn 11 = true)
    ∧ (on.domOn 11 = true ∧ on.bit F.TCV_STATUS_REF_OK = false)
    ∧ ((on.setFld F.THM_CTRL_PERIOD 1).domOn 2 = true ∧ (on.setFld F.THM_CTRL_PERIOD 1).fld F.THM_CTRL_PERIOD ≠ 0
      ∧ (on.setFld F.THM_CTRL_PERIOD 1).bit F.THM_STATUS_SHUT_HOLD = false ∧ (on.setFld F.THM_CTRL_PERIOD
      1).seedling = false ∧ (on.setFld F.THM_CTRL_PERIOD 1).bit F.THM_STATUS_BUSY = false ∧ (on.setFld
      F.THM_CTRL_PERIOD 1).fullOp = true)
    ∧ ((on.setBit F.THM_STATUS_SHUT_HOLD true).bit F.THM_STATUS_SHUT_HOLD = true ∧ (on.setBit
      F.THM_STATUS_SHUT_HOLD true).bit F.THM_STATUS_BUSY = false ∧ (on.setBit F.THM_STATUS_SHUT_HOLD true).fullOp
      = true)
    ∧ ((on.setBit F.THM_STATUS_BUSY true).bit F.THM_STATUS_BUSY = true ∧ (on.setBit F.THM_STATUS_BUSY true).domOn
      11 = true)
    ∧ ((on.modKpr fun k => { k with running := some ⟨.startRec, [(0x5000, 7)]⟩ }).kpr.running = some
      ⟨KprOp.startRec, (0x5000, (7 : Word)) :: ([] : List (Nat × Word))⟩ ∧ (on.modKpr fun k =>
      { k with running := some ⟨.startRec, [(0x5000, 7)]⟩ }).domOn 1 = true)
    ∧ ((on.modKpr fun k => { k with running := some ⟨.startRec, []⟩ }).kpr.running = some ⟨KprOp.startRec, []⟩ ∧
      (on.modKpr fun k => { k with running := some ⟨.startRec, []⟩ }).domOn 1 = true)
    ∧ (on.kprPowered = true ∧ on.power.dormant = false) := by decide

theorem test_meets_TelemetryAndKeeperCommandsComplete_b :
    (on.domOn 2 = true ∧ on.boot.kprRead = true)
    ∧ (on.domOn 2 = true ∧ on.boot.kprRead = true) := by decide

theorem test_meets_RecordCopies :
    (0 < 2 ^ 32 ∧ 0x80000001 < 2 ^ 32) := by decide

theorem test_meets_RecordCopies_by_evaluation :
    (seqs tied = (true, true, 9, 9) ∧ seqs (holding (copy 0 1) (copy 0x80000001 1)) = (true, true, 0, 0x80000001)
      ∧ seqs (holding (copy 0x7FFFFFFF 1) (copy 0 1)) = (true, true, 0x7FFFFFFF, 0) ∧ seqs (holding (copy 5 1)
      (copy 0x80000005 1)) = (true, true, 5, 0x80000005) ∧ seqs (holding (copy 5 1) []) = (true, false, 5,
      0xFFFFFFFF) ∧ seqs (holding (List.replicate 8 0) (copy 5 1)) = (false, true, 0, 5) ∧ seqs on = (false,
      false, 0xFFFFFFFF, 0xFFFFFFFF))
    ∧ ((tied.chooseCopy startKind).tie = true) := by decide +kernel

theorem test_meets_ARecordWriteSparesTheCopyInUse :
    ((List.replicate 5 (0 : Word)).length + 3 = startKind.len) := by decide

theorem test_meets_KeeperPartitions :
    (0x3FFFF < 0x40000)
    ∧ (((on.setReg A.KPR_WADDR 0x3FFFC).setReg A.KPR_WLEN 2).cmdPend = false ∧ (partition ((on.setReg A.KPR_WADDR
      0x3FFFC).setReg A.KPR_WLEN 2).writeAddr ≠ 1 ∨ 0 = 0xC5) ∧ (0x3FFFF < ((on.setReg A.KPR_WADDR 0x3FFFC).setReg
      A.KPR_WLEN 2).writeAddr + 4 * ((on.setReg A.KPR_WADDR 0x3FFFC).setReg A.KPR_WLEN 2).writeLen - 1 ∨ partition
      (((on.setReg A.KPR_WADDR 0x3FFFC).setReg A.KPR_WLEN 2).writeAddr + 4 * ((on.setReg A.KPR_WADDR
      0x3FFFC).setReg A.KPR_WLEN 2).writeLen - 1) ≠ partition ((on.setReg A.KPR_WADDR 0x3FFFC).setReg A.KPR_WLEN
      2).writeAddr))
    ∧ (((on.setReg A.KPR_WADDR 0x4000).setReg A.KPR_WLEN 1).kprCheck (.core 0) 1 0xC5 = 0) := by decide

theorem test_meets_SramReadsWhatWasStored :
    (on.sram.wf sramDefault = true ∧ 0x1FFFFC < 0x200000 ∧ 0x1FFFFC % 4 = 0 ∧ on.sramOn 0x1FFFFC = true ∧ on.inApp
      (0 : Core) = false ∧ on.inApp (1 : Core) = false ∧ on.mirrorOf 0x1FFFFC = none) := by decide

theorem test_meets_BitSpaceAndItsWords :
    (8191 < 8192 ∧ on.inApp (0 : Core) = false)
    ∧ ((on.core (0 : Core)).bits.wf bitsDefault = true)
    ∧ ((1 : Core) ≠ (0 : Core)) := by decide

theorem test_meets_MultiplierResultsLandAfterFourCycles :
    (CoreState.reset.mul = []) := by decide

theorem test_meets_ExceptionEntryAndReturn :
    (on.psrBit (0 : Core) psrExl = false ∨ 6 < Exc.illegal.code)
    ∧ ((127 : Word).toNat < 128)
    ∧ ((on.setPsr 0 fun _ => 0x10).psrBit 0 psrExl = true ∧ Exc.svc.code ≤ 6) := by decide

theorem test_meets_CoreEventCommandsComplete :
    (on.coreActs (0 : Core) = true)
    ∧ ((on.setFld (F.CORE_Ck_TIMER_COUNT 0) 1).domOn 2 = true ∧ (on.setFld (F.CORE_Ck_TIMER_COUNT 0) 1).fld
      (F.CORE_Ck_TIMER_COUNT (0 : Core)) ≠ 0 ∧ (on.setFld (F.CORE_Ck_TIMER_COUNT 0) 1).coreSt (0 : Core) ≠ 3)
    ∧ ((on.setBit F.TST_CFG_DEBUG_OPEN true).debugUnlocked = true ∧ ((on.setBit F.TST_CFG_DEBUG_OPEN true).coreSt
      (0 : Core) == 1 || (on.setBit F.TST_CFG_DEBUG_OPEN true).coreSt (0 : Core) == 2) = true)
    ∧ ((on.setFld (F.CORE_Ck_STATUS_STATE 0) 3).coreSt (0 : Core) = 3)
    ∧ (on.coreActs 3 = true ∧ on.applet = none ∧ on.psrBit 3 psrExl = false ∧ (∀ m ∈ on.appletsDue, (7 : Fin 8) ≤
      m) ∧ on.fld (F.LIVE_HOk_STATE 3) ≠ 3)
    ∧ (({ on with applet := some 0 }).applet.isSome = true) := by decide

theorem test_meets_StepRunsTheCommandInFront : ({ on with pending := [.fence 0] } : State).pending = [.fence 0] := rfl

theorem test_meets_EveryStepKeepsTheInvariant : ({ State.reset with sram := [(0, 1)] } : State).Inv
    ∧ ∃ t, step { State.reset with sram := [(0, 1)] } = .next t :=
  ⟨⟨by decide, by decide, by decide, by decide, by decide, by decide, by decide, by decide,
    fun k => ⟨by revert k; decide, by revert k; decide, by revert k; decide⟩⟩, _, rfl⟩

theorem test_meets_SettlingWhenNothingIsDue : State.reset.Quiet :=
  ⟨by decide, by decide, by decide, by decide, by decide, by decide, by decide, by decide, by decide, by decide, by decide,
    by decide, by decide, by decide⟩

theorem test_meets_TheBudgetIsNotOverspent_given :
    ∃ g, g ∈ ((on.setFld (F.LP_Ln_STATUS_STATE 0) 3).setFld (F.PROT_Ln_OL_OL_LIM 0) 8).allot.given := by
  refine ⟨(.rail 0, ((on.setFld (F.LP_Ln_STATUS_STATE 0) 3).setFld (F.PROT_Ln_OL_OL_LIM 0) 8).allot.of (.rail 0)), ?_⟩
  decide +kernel

/-- Of ArithmeticAndLogicExecute, BitInstructionsExecute, BranchesAndMultipliesExecute and
ControlAndSystemInstructionsExecute. -/
theorem test_meets_fetched : atSram.Fetched 0 (fetched atSram) ∧ (fetched atSram).inApp 0 = false
    ∧ (fetched atSram).psrBit 0 psrExl = false ∧ (fetched atSram).underPolicy 0 = false ∧ ((fetched atSram).retire 0 4 1).evtDue 0 = false :=
  ⟨⟨by decide, 1, atSram, rfl, rfl⟩, by decide, by decide, by decide, by decide⟩

/-- Core 3 runs applet 0 for the policy firmware, its PC in the sandbox. -/
def inApplet : State :=
  { (on.setPsr 3 fun _ => 0x40).modCore 3 fun c => { c with pc := 0x201F0000 } with applet := some 0 }

theorem test_fetch_in_applet : inApplet.fetch 3 = .ok 0 inApplet := by
  have h1 : inApplet.addressCheck 3 (inApplet.core 3).pc.toNat 4 = none := by decide +kernel
  have h2 : inApplet.sramRead 0x1F0000 false = ⟨true, 0, inApplet⟩ := by
    have h : inApplet.sramBad.contains 0x1F0000 = false := by decide
    unfold State.sramRead
    rw [h]
    rfl
  have h3 : regionOf (inApplet.core 3).pc.toNat = .sram 0x1F0000 := by decide +kernel
  have h4 : inApplet.sramOn 0x1F0000 = true := by decide
  simp [State.fetch, h1, h3, h4, h2]

theorem test_meets_served : inApplet.Fetched 3 (inApplet.spend 3 0) ∧ (inApplet.spend 3 0).underPolicy 3 = true
    ∧ ((inApplet.spend 3 0).served 2).coreSt 3 = 1 :=
  ⟨⟨by decide, 0, inApplet, test_fetch_in_applet, rfl⟩, by decide +kernel, by decide +kernel⟩

theorem test_meets_fetched_in_handler : (on.setPsr 0 fun _ => 0x10).Fetched 0 (fetched (on.setPsr 0 fun _ => 0x10))
    ∧ (fetched (on.setPsr 0 fun _ => 0x10)).psrBit 0 psrExl = true :=
  ⟨⟨by decide, 1, on.setPsr 0 fun _ => 0x10, rfl, rfl⟩, by decide⟩

theorem test_meets_PletraWordsHaveOneMeaning : Pletra.decode 0 = none ∧ Pletra.decode 0xF8800000 = some .wfe := by decide

theorem test_meets_BranchesAndMultipliesExecute :
    ((on.modCore 0 fun c => { c with mul := [⟨.muls, 2, 3, 4⟩] }).core 0).mul = [⟨.muls, 2, 3, 4⟩] := rfl

/-- Core 0's STATE after an access that is done; none for one that is trapped. -/
def doneIn0 : Access → Option Nat
  | .trap _ _ => none
  | .done _ _ t => some (t.coreSt 0)

/-- Loads and stores of each width that are done, and a load that is trapped. -/
theorem test_meets_LoadsAndStoresExecute :
    ([(0, 4), (2, 2), (3, 1)].all fun x =>
      doneIn0 ((fetched atSram).loadAt 0 ((fetched atSram).effAddr 0 1 (BitVec.ofNat 18 x.1)).toNat x.2 false) == some 1
      && doneIn0 ((fetched atSram).storeAt 0 ((fetched atSram).effAddr 0 1 (BitVec.ofNat 18 x.1)).toNat x.2 7) == some 1) = true
    ∧ doneIn0 ((fetched atSram).loadAt 0 ((fetched atSram).effAddr 0 1 1).toNat 4 false) = none := by decide +kernel

theorem test_meets_LoadsAndStoresExecute_misaligned : on.inApp 0 = false ∧ 0x1FFFFF < 0x200000 ∧ 0x1FFFFF % 2 ≠ 0 := by decide

theorem test_meets_BitFieldInstructionsByBits : 31 < 32 ∧ 3 < 4 ∧ (1 : Word) ≠ 0 ∧ (0 : Word).getLsbD 31 = false := by decide

end Sys2Proof.Tests
end

section
/-!
The bits that a register write stores (Table 0.6, R320): which bits of a word keep their value, and that storing a
word touches one register and nothing that is in force.
-/

namespace Sys2Proof.Machine

theorem RegWr.ones_getLsbD (x : RegWr) (i : Nat) : x.ones.getLsbD i = (x.value.getLsbD i && x.mask.getLsbD i) := by
  simp [RegWr.ones]

/-- What a write makes of one field of a word, its held bits left out: one step of `State.wordAfter`. -/
def RegWr.stored (x : RegWr) (held w : Word) (f : FieldD) : Word :=
  let m := bitsMask f.lo f.width &&& ~~~held
  match f.acc with
  | .rw | .rwsh => (w &&& ~~~(m &&& x.mask)) ||| (x.ones &&& m)
  | .w1c => w &&& ~~~(x.ones &&& m)
  | _ => w

theorem State.wordAfter_eq_foldl (s : State) (r : RegAt) (old : Word) (x : RegWr) :
    s.wordAfter r old x = r.fields.foldl (x.stored (s.heldBits r)) old := rfl

/-- A field stores nothing at a bit that the write's mask leaves out. -/
theorem RegWr.stored_getLsbD_of_unmasked (x : RegWr) (held w : Word) (f : FieldD) {i : Nat} (h : x.mask.getLsbD i = false) :
    (x.stored held w f).getLsbD i = w.getLsbD i := by
  have hones : x.ones.getLsbD i = false := by rw [RegWr.ones_getLsbD, h, Bool.and_false]
  cases hacc : f.acc with
  | rw | rwsh | w1c =>
    simpa [RegWr.stored, hacc, h, hones] using BitVec.lt_of_getLsbD
  | ro | wo | w1s => simp [RegWr.stored, hacc]

/-- A field stores nothing at a bit that it does not cover, or that a write cannot store. -/
theorem RegWr.stored_getLsbD_of_uncovered (x : RegWr) (held w : Word) (f : FieldD) {i : Nat} (hi : i < 32)
    (h : f.acc = .rw ∨ f.acc = .rwsh ∨ f.acc = .w1c → (bitsMask f.lo f.width).getLsbD i = false) :
    (x.stored held w f).getLsbD i = w.getLsbD i := by
  cases hacc : f.acc with
  | rw | rwsh | w1c =>
    have hm := h (by simp [hacc])
    simpa [RegWr.stored, hacc, hm] using fun _ => hi
  | ro | wo | w1s => simp [RegWr.stored, hacc]

/-- An RW field takes the write's bits that its mask covers. -/
theorem RegWr.stored_getLsbD_of_covered (x : RegWr) (held w : Word) (f : FieldD) {i : Nat} (hf : f.acc = .rw)
    (hcover : (bitsMask f.lo f.width).getLsbD i = true) (hheld : held.getLsbD i = false) (hmask : x.mask.getLsbD i = true) :
    (x.stored held w f).getLsbD i = x.ones.getLsbD i := by
  simpa [RegWr.stored, hf, hcover, hheld, hmask] using fun _ => BitVec.lt_of_getLsbD hcover

/-- A bit that no step of a fold changes keeps its value. -/
theorem foldl_getLsbD_eq {α : Type} {g : Word → α → Word} {l : List α} {i : Nat}
    (h : ∀ w, ∀ f ∈ l, (g w f).getLsbD i = w.getLsbD i) (w : Word) : (l.foldl g w).getLsbD i = w.getLsbD i := by
  induction l generalizing w with
  | nil => rfl
  | cons f l ih => rw [List.foldl_cons, ih fun w f' hf => h w f' (by simp [hf]), h w f (by simp)]

theorem State.wordAfter_getLsbD_of_unmasked (s : State) (r : RegAt) (old : Word) (x : RegWr) {i : Nat}
    (h : x.mask.getLsbD i = false) : (s.wordAfter r old x).getLsbD i = old.getLsbD i := by
  rw [State.wordAfter_eq_foldl]
  exact foldl_getLsbD_eq (fun w f _ => x.stored_getLsbD_of_unmasked _ w f h) old

theorem State.wordAfter_getLsbD_of_uncovered (s : State) (r : RegAt) (old : Word) (x : RegWr) {i : Nat} (hi : i < 32)
    (h : ∀ f ∈ r.fields, f.acc = .rw ∨ f.acc = .rwsh ∨ f.acc = .w1c → (bitsMask f.lo f.width).getLsbD i = false) :
    (s.wordAfter r old x).getLsbD i = old.getLsbD i := by
  rw [State.wordAfter_eq_foldl]
  exact foldl_getLsbD_eq (fun w f hf => x.stored_getLsbD_of_uncovered _ w f hi (h f hf)) old

theorem State.storeWord_of_plain (s : State) {r : RegAt} (a : Nat) (x : RegWr) (h : r.shadowed = false) :
    s.storeWord r a x = (s.mendReg a).setReg a (s.wordAfter r (s.reg a) x) := by
  simp [State.storeWord, h]

theorem State.storeWord_reg_ne (s : State) (r : RegAt) {a b : Nat} (x : RegWr) (h : b ≠ a) :
    (s.storeWord r a x).reg b = s.reg b := by
  unfold State.storeWord
  split
  · exact State.reg_setReg_ne _ _ h
  · exact State.reg_setReg_ne _ _ h

theorem State.storeWord_act (s : State) (r : RegAt) (a : Nat) (x : RegWr) : (s.storeWord r a x).act = s.act := by
  unfold State.storeWord
  split <;> rfl

/-- Settles O13: the fold of `wordAfter` over the fields changes no bit that its steps leave. -/
theorem aWriteReachesOnlyItsWritableBits : Obligations.AWriteReachesOnlyItsWritableBits := by
  unfold Obligations.AWriteReachesOnlyItsWritableBits
  refine ⟨fun s r old x i hi h => s.wordAfter_getLsbD_of_uncovered r old x hi h,
    fun s r old x i h => s.wordAfter_getLsbD_of_unmasked r old x h,
    fun s r a b x h => s.storeWord_reg_ne r x h, fun s r a x h => ?_, fun s r a x => s.storeWord_act r a x⟩
  rw [s.storeWord_of_plain a x h, State.reg_setReg_same]

end Sys2Proof.Machine
end

section
/-!
What a register write comes to (R9-R15, R328-R332): the codes of its checks, the cases of `State.regWrite`, and the state
that a refused write leaves.
-/

namespace Sys2Proof.Machine

/-- What stands before the LCK conditions of a host's write passes it or answers NOT_OWNER. -/
theorem State.hostCheck_eq_zero_or_three (s : State) (h : HostId) (r : RegAt) (x : RegWr) :
    s.hostCheck h r x = 0 ∨ s.hostCheck h r x = 3 := by
  unfold State.hostCheck
  dsimp only
  repeat' split
  all_goals simp

/-- MBX_DOWN is a code of the mailbox alone (R332). -/
theorem State.writeCheck_ne_mbxDown (s : State) (r : RegAt) (a : Nat) (x : RegWr) : s.writeCheck r a x ≠ 0xA := by
  unfold State.writeCheck
  rcases x.who with k | h
  · dsimp only
    repeat' split
    all_goals decide
  · have hc := s.hostCheck_eq_zero_or_three h r x
    dsimp only
    repeat' split
    all_goals omega

/-- A word that a mailbox does not accept: only MBX_DOWN leaves a trace, its cause. -/
theorem State.mbxSend_of_refused (s : State) (who : Writer) (n : Nat) (w : Word) (h : (s.mbxSend who n w).2 ≠ 0) :
    (s.mbxSend who n w).1 = if (s.mbxSend who n w).2 = 0xA then s.raise 10 12 else s := by
  unfold State.mbxSend at h ⊢
  split
  case h_1 heq => simp [heq] at h
  case h_2 => rfl
  case h_3 hA => exact (if_neg hA).symm

/-- An answer that a mailbox does not accept leaves the state, with another code than MBX_DOWN. -/
theorem State.mbxAck_of_refused (s : State) (who : Writer) (n code : Nat) (h : (s.mbxAck who n code).2 ≠ 0) :
    (s.mbxAck who n code).2 ≠ 0xA ∧ (s.mbxAck who n code).1 = s := by
  unfold State.mbxAck at h ⊢
  repeat' split
  all_goals simp_all

/-- The word that a write offers a register: the bits under the mask from the write, the others as they stand (R320). -/
def State.offered (s : State) (a : Nat) (x : RegWr) : Word := (s.reg a &&& ~~~x.mask) ||| x.ones

theorem State.regWrite_unassigned (s : State) {a : Nat} (x : RegWr) (hr : findReg a = none) : s.regWrite a x = ⟨1, s⟩ := by
  simp [State.regWrite, hr]

/-- What a write of a register comes to: a check refuses it; or a mailbox takes its word or answer; or it is stored, with
its effect. -/
theorem State.regWrite_cases (s : State) {a : Nat} {r : RegAt} (x : RegWr) (hr : findReg a = some r) :
    (∃ c, c ≠ 0 ∧ c ≠ 0xA ∧ s.regWrite a x = ⟨c, s⟩)
    ∨ (r.cls.name = .MBX_CHn_DATA ∧ s.regWrite a x =
        ⟨(s.mbxSend x.who r.i (s.offered a x)).2, (s.mbxSend x.who r.i (s.offered a x)).1⟩)
    ∨ (r.cls.name = .MBX_CHn_ACK ∧ s.regWrite a x =
        ⟨(s.mbxAck x.who r.i (getBits (s.offered a x) 0 16)).2, (s.mbxAck x.who r.i (getBits (s.offered a x) 0 16)).1⟩)
    ∨ (s.regWrite a x = ⟨if s.stopsSequenced r x then 0xF else 0, s.regEffect (s.storeWord r a x) r a x⟩) := by
  unfold State.regWrite
  simp only [hr]
  split
  · exact .inl ⟨7, by decide, by decide, rfl⟩
  · split
    next => 
      split
      · exact .inr (.inl ⟨‹_›, rfl⟩)
      · exact .inr (.inr (.inl ⟨‹_›, rfl⟩))
      · exact .inr (.inr (.inr rfl))
    next hc => exact .inl ⟨_, hc, s.writeCheck_ne_mbxDown r a x, rfl⟩

/-- A refused write leaves the state, but for MBX_DOWN, which raises its cause (R332), and for the VREF = 0 that R273
discards with BAD_DATA. -/
theorem State.regWrite_of_refused (s : State) (a : Nat) (x : RegWr) (h0 : (s.regWrite a x).code ≠ 0)
    (hF : (s.regWrite a x).code ≠ 0xF) :
    (s.regWrite a x).state = if (s.regWrite a x).code = 0xA then s.raise 10 12 else s := by
  cases hr : findReg a with
  | none => simp [s.regWrite_unassigned x hr]
  | some r =>
    rcases s.regWrite_cases x hr with ⟨c, -, hA, e⟩ | ⟨-, e⟩ | ⟨-, e⟩ | e
    · simp [e, hA]
    · rw [e] at h0 ⊢
      exact s.mbxSend_of_refused x.who r.i _ h0
    · rw [e] at h0 ⊢
      obtain ⟨hA, hs⟩ := s.mbxAck_of_refused x.who r.i _ h0
      exact hs.trans (if_neg hA).symm
    · rw [e] at h0 hF
      cases hq : s.stopsSequenced r x <;> simp [hq] at h0 hF

end Sys2Proof.Machine
end

section
/-!
The commands that are register writes (`Instr.write?`): each is the one register write of its row, so what an accepted and
what a refused one leaves follows from `State.regWrite`.
-/

namespace Sys2Proof.Machine

/-- A row's meaning is its register write. -/
theorem exec_of_write {c : Instr} {a : Nat} {x : RegWr} (h : c.write? = some (a, x)) (s : State) :
    exec c s = s.watch (s.rowWrite a x) := by
  cases c
  all_goals cases h <;> rfl

theorem State.watch_onlyIf {s : State} {b : Bool} (f : State → State) (h : b = true) :
    s.watch (s.onlyIf b f) = .next (s.settled (f s)) := by
  simp [State.watch, State.onlyIf, h]

/-- A row that is a write, by a writer that can write now. -/
theorem exec_of_write_of_canWrite {c : Instr} {a : Nat} {x : RegWr} {s : State} (h : c.write? = some (a, x))
    (hw : s.canWrite x.who = true) : exec c s = .next (s.settled (s.writeBy a x)) := by
  rw [exec_of_write h, State.rowWrite, State.watch_onlyIf _ hw]

theorem State.writeBy_of_accepts {s : State} {a : Nat} {x : RegWr} (h : s.Accepts a x) : s.writeBy a x = s.wrote a x := by
  simp [State.writeBy, State.wrote, h.2]

/-- A row that is a write which passes every check. -/
theorem exec_of_accepts {c : Instr} {a : Nat} {x : RegWr} {s : State} (h : c.write? = some (a, x))
    (hs : s.Accepts a x) : exec c s = .next (s.settled (s.wrote a x)) := by
  rw [exec_of_write_of_canWrite h hs.1, State.writeBy_of_accepts hs]

/-- A row that writes one field, with its effect, when the write passes its checks. -/
theorem State.watch_rowEffect {s : State} {who : Writer} {f : Fld} {v : Nat} (g : State → State)
    (hw : s.canWrite who = true) (hc : s.fieldCode who f v = 0) :
    s.watch (s.rowEffect who f v g) = .next (s.settled ((g (s.mendReg f.addr)).met who f.addr 0)) := by
  rw [State.rowEffect, State.watch_onlyIf _ hw]
  simp only [hc]

/-- An accepted write meets no NACK (R332). -/
theorem State.nackDown_of_accepts {s : State} {a : Nat} {x : RegWr} (h : s.Accepts a x) : s.nackDown x.who a x = s := by
  unfold State.nackDown
  split
  · simp [h.2]
  · rfl

/-- Settles O10: the rows of `Instr.write?` are one register write; the others call it, or its checks, with what they
carry. -/
theorem registerCommandsComplete : Obligations.RegisterCommandsComplete := by
  unfold Obligations.RegisterCommandsComplete
  refine ⟨fun c a x s => exec_of_accepts, fun w h code s hw hc hd => ?_, fun h code s hd hp => ?_,
    fun w l x s hw hc hm => ?_, fun w n v s hs => ?_, fun w s hw hc => ?_, fun w off v s hp hs => ?_⟩
  · show s.watch (doRecalibration (some w) h code s) = _
    refine (State.watch_rowEffect _ hw hc).trans ?_
    rw [if_pos (show (s.mendReg (halfGo h).addr).domOn (halfDom h) = true from hd)]
  · show s.watch (s.onlyIf (s.domOn (halfDom h) && s.fld F.PE_CAL_CTRL_PERIOD != 0) fun t => t.recalibrate h code) = _
    rw [State.watch_onlyIf _ (by simp [hd, hp])]
  · show s.watch (doOvClr w l x s) = _
    refine (State.watch_rowEffect _ hw hc).trans ?_
    rw [if_pos (show (s.mendReg (F.PROT_Ln_CLR_OV_CLR l.val).addr).mayOvClr w l = true from hm)]
  · show s.watch (s.onlyIf (s.canWrite w) fun t => (t.nackDown w (A.MBX_CHn_DATA n.val) (RegWr.word w v)).writeBy
      (A.MBX_CHn_DATA n.val) (RegWr.word w v)) = _
    have hw : s.canWrite w = true := hs.1
    have hnack : s.nackDown w (A.MBX_CHn_DATA n.val) (RegWr.word w v) = s := State.nackDown_of_accepts hs
    rw [State.watch_onlyIf _ hw, hnack, State.writeBy_of_accepts hs]
  · show s.watch (s.onlyIf (s.canWrite w) fun t => ((t.readReg w A.KPR_RDATA).state.emit
      (.data w (t.readReg w A.KPR_RDATA).word)).met w A.KPR_RDATA (t.readReg w A.KPR_RDATA).code) = _
    rw [State.watch_onlyIf _ hw, hc]
  · show s.watch (s.onlyIf (s.canWrite w && perturbations.contains (0xF0000 + off.toNat)) fun t =>
      t.writeBy (0xF0000 + off.toNat) (RegWr.word w v)) = _
    have hw : s.canWrite w = true := hs.1
    rw [State.watch_onlyIf _ (by rw [hw, hp]; rfl), State.writeBy_of_accepts hs]

/-- Settles O12: `State.regWrite_of_refused`, read for the codes other than MBX_DOWN, for MBX_DOWN, and through the row of
a host's command. -/
theorem aRefusedWriteChangesNothing : Obligations.ARefusedWriteChangesNothing := by
  unfold Obligations.ARefusedWriteChangesNothing
  have hsame : ∀ (s : State) (a : Nat) (x : RegWr), (s.regWrite a x).code ≠ 0 → (s.regWrite a x).code ≠ 0xA →
      (s.regWrite a x).code ≠ 0xF → (s.regWrite a x).state = s :=
    fun s a x h0 hA hF => (s.regWrite_of_refused a x h0 hF).trans (if_neg hA)
  refine ⟨hsame, fun s a x hA => ?_, fun s c a x h hc hwho hopen h0 hA hF => ?_⟩
  · exact (s.regWrite_of_refused a x (by simp [hA]) (by simp [hA])).trans (if_pos hA)
  · have hw : s.canWrite x.who = true := by rw [hwho]; exact hopen
    rw [exec_of_write_of_canWrite hc hw, State.writeBy, hsame s a x h0 hA hF, hwho]
    rfl

end Sys2Proof.Machine
end

section
/-!
The register space as the cores and hosts meet it (R6, R10): where there is no register, and what is not an access to a
whole aligned word.
-/

namespace Sys2Proof.Machine

theorem regionOf_register {a : Nat} (h1 : 0x40000000 ≤ a) (h2 : a < 0x40100000) : regionOf a = .reg (a - 0x40000000) := by
  unfold regionOf
  rw [if_neg (by omega), if_neg (by omega), if_neg (by omega), if_pos ⟨h1, h2⟩]

/-- Outside applet mode an access to the register space meets its checks in the region itself (R6). -/
theorem State.addressCheck_register {s : State} {k : Core} {a n : Nat} (happ : s.inApp k = false) (h1 : 0x40000000 ≤ a)
    (h2 : a < 0x40100000) : s.addressCheck k a n = none := by
  simp [State.addressCheck, happ, regionOf_register h1 h2]

/-- A core's load from the register space is a bus error unless it is of a whole aligned word that can be read. -/
theorem State.loadAt_register_bus {s : State} {k : Core} {a n : Nat} (glitch : Bool) (happ : s.inApp k = false)
    (h1 : 0x40000000 ≤ a) (h2 : a < 0x40100000)
    (hbad : (n ≠ 4 ∨ a % 4 ≠ 0) ∨ busCodes.contains (s.readReg (.core k) (a - 0x40000000)).code = true) :
    s.loadAt k a n glitch = .trap .bus s := by
  unfold State.loadAt
  rw [State.addressCheck_register happ h1 h2, regionOf_register h1 h2]
  dsimp only
  split
  · rfl
  · rw [if_pos (hbad.resolve_left ‹_›)]

/-- A core's store to the register space is a bus error unless it is of a whole aligned word that can be written. -/
theorem State.storeAt_register_bus {s : State} {k : Core} {a n : Nat} (v : Word) (happ : s.inApp k = false)
    (h1 : 0x40000000 ≤ a) (h2 : a < 0x40100000)
    (hbad : (n ≠ 4 ∨ a % 4 ≠ 0) ∨ s.regWrite (a - 0x40000000) (RegWr.word (.core k) v) = ⟨1, s⟩) :
    s.storeAt k a n v = .trap .bus s := by
  unfold State.storeAt
  rw [State.addressCheck_register happ h1 h2, regionOf_register h1 h2]
  dsimp only
  split
  · rfl
  · rw [hbad.resolve_left ‹_›]
    rfl

/-- A class lies at whole words of the 20-bit space: its base and its strides are multiples of 4. -/
def RegClass.wordPlaced (c : RegClass) : Bool := c.base % 4 == 0 && c.s1 % 4 == 0 && c.s2 % 4 == 0

theorem blockRegs_wordPlaced : ∀ b < 16, (blockRegs (b * 0x10000)).all RegClass.wordPlaced = true := by decide +kernel

/-- Above the sixteen blocks there is no register (R6, R7). -/
theorem blockRegs_eq_nil {a : Nat} (h : 0x100000 ≤ a) : blockRegs a = [] := by
  obtain ⟨b, hb⟩ : ∃ b, a / 0x10000 = b + 16 := ⟨a / 0x10000 - 16, by omega⟩
  rw [blockRegs, hb]
  rfl

theorem RegClass.at?_aligned {c : RegClass} {a : Nat} {r : RegAt} (hc : c.wordPlaced = true) (h : c.at? a = some r) :
    a % 4 = 0 := by
  simp only [RegClass.wordPlaced, Bool.and_eq_true, beq_iff_eq] at hc
  obtain ⟨⟨hb, h1⟩, h2⟩ := hc
  unfold RegClass.at? at h
  dsimp only at h
  split at h
  · cases h
  · split at h
    · next hge hin =>
      obtain ⟨-, -, hoff⟩ := hin
      have h1' := Nat.mul_mod c.s1 ((a - c.base) / c.s1) 4
      have h2' := Nat.mul_mod c.s2 ((a - c.base) % c.s1 / c.s2) 4
      rw [h1, Nat.zero_mul, Nat.zero_mod] at h1'
      rw [h2, Nat.zero_mul, Nat.zero_mod] at h2'
      omega
    · cases h

/-- Every register lies at a whole word of the 20-bit space (R6). -/
theorem findReg_aligned {a : Nat} {r : RegAt} (h : findReg a = some r) : a % 4 = 0 ∧ a < 0x100000 := by
  unfold findReg at h
  split at h
  case h_2 => cases h
  case h_1 r' hr =>
    obtain ⟨c, hc, hat⟩ := List.exists_of_findSome?_eq_some hr
    have hlt : a < 0x100000 := by
      by_contra hge
      simp [blockRegs_eq_nil (Nat.le_of_not_lt hge)] at hc
    have heq : blockRegs a = blockRegs (a / 0x10000 * 0x10000) := by
      simp only [blockRegs, Nat.mul_div_cancel _ (show 0 < 0x10000 by decide)]
    rw [heq] at hc
    exact ⟨RegClass.at?_aligned (List.all_eq_true.mp (blockRegs_wordPlaced _ (by omega)) c hc) hat, hlt⟩

/-- Settles O9: the classes are placed at whole words, and the register region takes nothing but a whole aligned word. -/
theorem registersAreWholeAlignedWords : Obligations.RegistersAreWholeAlignedWords := by
  unfold Obligations.RegistersAreWholeAlignedWords
  exact ⟨fun a r => findReg_aligned, fun s k a n glitch v happ h1 h2 hbad =>
    ⟨State.loadAt_register_bus glitch happ h1 h2 (.inl hbad), State.storeAt_register_bus v happ h1 h2 (.inl hbad)⟩⟩

theorem State.readReg_unassigned (s : State) (who : Writer) {a : Nat} (h : findReg a = none) : s.readReg who a = ⟨1, 0, s⟩ := by
  simp [State.readReg, h]

/-- Settles O8: `State.regWrite` and `State.readReg` answer UNASSIGNED, which a core meets as a bus error and a host as its
return code. -/
theorem unassignedAddresses : Obligations.UnassignedAddresses := by
  unfold Obligations.UnassignedAddresses
  intro a ha hr
  have hsub : 0x40000000 + a - 0x40000000 = a := by omega
  refine ⟨fun s x => ?_, fun s who => ?_, fun s k glitch happ => ?_, fun s k v happ => ?_, fun s h addr w haddr hopen => ?_⟩
  · rw [s.regWrite_unassigned x hr]
    exact ⟨rfl, rfl⟩
  · rw [s.readReg_unassigned who hr]
    exact ⟨rfl, rfl, rfl⟩
  · refine State.loadAt_register_bus glitch happ (by omega) (by omega) (.inr ?_)
    rw [hsub, s.readReg_unassigned _ hr]
    rfl
  · refine State.storeAt_register_bus v happ (by omega) (by omega) (.inr ?_)
    rw [hsub, s.regWrite_unassigned _ hr]
  · subst haddr
    have hwrite : (Instr.registerWrite (.host h) addr w).write? = some (addr.toNat, RegWr.word (.host h) w) := rfl
    rw [exec_of_write_of_canWrite hwrite hopen, State.writeBy, s.regWrite_unassigned _ hr]
    rfl

end Sys2Proof.Machine
end

section
/-!
What `State.reset` holds (R15, R27, R414).
-/

namespace Sys2Proof.Machine

/-- Nothing is stored at reset, so a register reads its Reset column. -/
theorem State.reset_reg (a : Nat) : State.reset.reg a = resetWord a := rfl

theorem State.reset_actReg (a : Nat) : State.reset.actReg a = resetWord a := rfl

theorem resetWord_unassigned {a : Nat} (h : findReg a = none) : resetWord a = 0 := by
  simp [resetWord, h]

/-- Settles O6: the memories are empty, so every field reads from `resetWord`; the rest stands in `State.reset`. -/
theorem resetLeavesNothingPowered : Obligations.ResetLeavesNothingPowered := by
  unfold Obligations.ResetLeavesNothingPowered
  refine ⟨rfl, fun a => ⟨State.reset_reg a, State.reset_actReg a⟩, fun a h => ?_, ?_, fun k => ⟨?_, ?_⟩, ?_, ?_,
    rfl, rfl, rfl, rfl⟩
  · rw [State.reset_reg, resetWord_unassigned h]
  · decide +kernel
  · revert k
    decide +kernel
  · revert k
    decide +kernel
  · decide +kernel
  · decide +kernel

end Sys2Proof.Machine
end

section
/-!
Accepted writes of command bits (Table 0.6): the bits of a write of one field, the registers and the parts of the state
that an effect leaves, and how an accepted write of a register without SH fields passes into its effect.
-/

namespace Sys2Proof.Machine

/-! ### Bits of a write of one field -/

theorem RegWr.field_mask_getLsbD (who : Writer) (f : Fld) (v i : Nat) :
    (RegWr.field who f v).mask.getLsbD i = (decide (i < 32) && decide (f.lo ≤ i) && decide (i < f.lo + f.width)) :=
  bitsMask_getLsbD ..

theorem RegWr.field_bit (who : Writer) (f : Fld) (v i : Nat) :
    (RegWr.field who f v).bit i
      = (decide (i < 32) && decide (f.lo ≤ i) && decide (i < f.lo + f.width) && v.testBit (i - f.lo)) := by
  rw [RegWr.bit, RegWr.ones_getLsbD, RegWr.field_mask_getLsbD]
  show ((putBits 0 f.lo f.width v).getLsbD i && _) = _
  rw [putBits_getLsbD]
  by_cases h : f.lo ≤ i ∧ i < f.lo + f.width
  · simp [h, Bool.and_comm]
  · rw [if_neg h]
    simp only [not_and_or] at h
    rcases h with h | h <;> simp [h]

/-- A write of 1 in a field of one bit writes that bit as 1, and no other. -/
theorem RegWr.field_one_bit (who : Writer) {f : Fld} {lo : Nat} (hw : f.width = 1) (hlo : f.lo = lo) (hlt : lo < 32)
    (i : Nat) : (RegWr.field who f 1).bit i = decide (i = lo) := by
  rw [RegWr.field_bit, hw, hlo]
  by_cases h : i = lo
  · subst h
    simp [hlt]
  · simp [h]
    omega

/-- A write of one field brings the field its value. -/
theorem RegWr.getBits_field_ones (who : Writer) (f : Fld) {v : Nat} (hf : f.lo + f.width ≤ 32) (hv : v < 2 ^ f.width) :
    getBits (RegWr.field who f v).ones f.lo f.width = v := by
  refine Nat.eq_of_testBit_eq fun i => ?_
  rw [getBits_testBit, show (RegWr.field who f v).ones.getLsbD (f.lo + i) = (RegWr.field who f v).bit (f.lo + i) from rfl,
    RegWr.field_bit]
  by_cases hi : i < f.width
  · simp [hi, show f.lo + i < 32 by omega]
  · simp [hi, Nat.testBit_lt_two_pow (hv.trans_le (Nat.pow_le_pow_right (by decide) (Nat.le_of_not_lt hi)))]

theorem getBits_one (w : Word) (lo : Nat) : getBits w lo 1 = (w.getLsbD lo).toNat := (Nat.toNat_testBit ..).symm

theorem State.bit_eq_getLsbD (s : State) {f : Fld} (hf : f.width = 1) : s.bit f = (s.reg f.addr).getLsbD f.lo := by
  rw [State.bit, State.fld, hf, getBits_one]
  cases (s.reg f.addr).getLsbD f.lo <;> rfl

/-! ### What an effect leaves -/

/-- From s to t no register changes but those of `as`; SRAM and the keeper stay. -/
structure State.Touches (s t : State) (as : List Nat) : Prop where
  regs : ∀ b, b ∉ as → t.reg b = s.reg b
  sram : t.sram = s.sram
  kpr : t.kpr = s.kpr

theorem State.fld_of_regs_eq {s t : State} (h : t.regs = s.regs) (f : Fld) : t.fld f = s.fld f := by
  unfold State.fld State.reg
  rw [h]

/-- A change beside registers, SRAM and keeper. -/
theorem State.Touches.of_same {s t u : State} {as : List Nat} (h : s.Touches t as) (regs : u.regs = t.regs)
    (sram : u.sram = t.sram) (kpr : u.kpr = t.kpr) : s.Touches u as :=
  ⟨fun b hb => by rw [← h.regs b hb, State.reg, State.reg, regs], sram.trans h.sram, kpr.trans h.kpr⟩

theorem State.Touches.setReg {s t : State} {as : List Nat} (h : s.Touches t as) {a : Nat} (w : Word) (ha : a ∈ as) :
    s.Touches (t.setReg a w) as :=
  ⟨fun b hb => (State.reg_setReg_ne t w (ne_of_mem_of_not_mem ha hb).symm).trans (h.regs b hb), h.sram, h.kpr⟩

theorem State.Touches.setFld {s t : State} {as : List Nat} (h : s.Touches t as) {f : Fld} (v : Nat) (ha : f.addr ∈ as) :
    s.Touches (t.setFld f v) as := h.setReg _ ha

theorem State.Touches.setBit {s t : State} {as : List Nat} (h : s.Touches t as) {f : Fld} (b : Bool) (ha : f.addr ∈ as) :
    s.Touches (t.setBit f b) as := h.setReg _ ha

/-! ### The return code OK -/

theorem State.met_ok_reg (t : State) (who : Writer) (a : Nat) {b : Nat} (hb : ∀ h : HostId, b ≠ A.HP_TWk_STATUS h) :
    (t.met who a 0).reg b = t.reg b := by
  cases who with
  | core k => rfl
  | host h => exact State.reg_setFld_ne t (f := F.HP_TWk_STATUS_LAST_CODE h) (hb h)

theorem State.met_ok_fld (t : State) (who : Writer) (a : Nat) {f : Fld} (hf : ∀ h : HostId, f.addr ≠ A.HP_TWk_STATUS h) :
    (t.met who a 0).fld f = t.fld f := by
  rw [State.fld, State.fld, State.met_ok_reg t who a hf]

theorem State.met_ok_bit (t : State) (who : Writer) (a : Nat) {f : Fld} (hf : ∀ h : HostId, f.addr ≠ A.HP_TWk_STATUS h) :
    (t.met who a 0).bit f = t.bit f := by
  rw [State.bit, State.bit, State.met_ok_fld t who a hf]

@[simp] theorem State.met_ok_sram (t : State) (who : Writer) (a : Nat) : (t.met who a 0).sram = t.sram := by
  cases who <;> rfl

@[simp] theorem State.met_ok_kpr (t : State) (who : Writer) (a : Nat) : (t.met who a 0).kpr = t.kpr := by
  cases who <;> rfl

@[simp] theorem State.met_ok_cores (t : State) (who : Writer) (a : Nat) : (t.met who a 0).cores = t.cores := by
  cases who <;> rfl

@[simp] theorem State.met_ok_core (t : State) (who : Writer) (a : Nat) (k : Core) : (t.met who a 0).core k = t.core k := by
  cases who <;> rfl

@[simp] theorem State.met_ok_power (t : State) (who : Writer) (a : Nat) : (t.met who a 0).power = t.power := by
  cases who <;> rfl

/-! ### An accepted write of a plain register -/

/-- The register at `a` is the n of index i; it has fields, none of them SH, and is not a mailbox's: a write of it that is
accepted stores its bits and has its effect. -/
structure PlainAt (a : Nat) (n : RegName) (i : Nat) (r : RegAt) : Prop where
  found : findReg a = some r
  name : r.cls.name = n
  idx : r.i = i
  fields : r.fields.isEmpty = false
  plain : r.shadowed = false
  notData : r.cls.name ≠ .MBX_CHn_DATA
  notAck : r.cls.name ≠ .MBX_CHn_ACK

/-- `PlainAt`, evaluated. -/
def plainAt (a : Nat) (n : RegName) (i : Nat) : Bool :=
  (findReg a).any fun r => r.cls.name == n && r.i == i && !r.fields.isEmpty && !r.shadowed
    && r.cls.name != .MBX_CHn_DATA && r.cls.name != .MBX_CHn_ACK

theorem exists_plainAt {a : Nat} {n : RegName} {i : Nat} (h : plainAt a n i = true) : ∃ r, PlainAt a n i r := by
  obtain ⟨r, hr, hq⟩ := (Option.any_eq_true _ _).mp h
  simp only [Bool.and_eq_true, Bool.not_eq_true', beq_iff_eq, bne_iff_ne] at hq
  obtain ⟨⟨⟨⟨⟨hname, hidx⟩, hfields⟩, hplain⟩, hdata⟩, hack⟩ := hq
  exact ⟨r, hr, hname, hidx, hfields, hplain, hdata, hack⟩

theorem PlainAt.wrote {a : Nat} {n : RegName} {i : Nat} {r : RegAt} (h : PlainAt a n i r) {s : State} {x : RegWr}
    (hs : s.Accepts a x) : s.wrote a x = (s.regEffect (s.storeWord r a x) r a x).met x.who a 0 := by
  have hcode := hs.2
  unfold State.wrote
  rcases s.regWrite_cases x h.found with ⟨c, hc, -, e⟩ | ⟨hn, -⟩ | ⟨hn, -⟩ | e
  · rw [e] at hcode
    exact absurd hcode hc
  · exact absurd hn h.notData
  · exact absurd hn h.notAck
  · rw [e]

/-- What storing a write leaves in a plain register: everything but the register. -/
theorem PlainAt.touches_storeWord {a : Nat} {n : RegName} {i : Nat} {r : RegAt} (h : PlainAt a n i r) (s : State) (x : RegWr)
    {as : List Nat} (ha : a ∈ as) : s.Touches (s.storeWord r a x) as := by
  rw [s.storeWord_of_plain a x h.plain]
  have hmend : s.Touches (s.mendReg a) as := ⟨fun b _ => rfl, rfl, rfl⟩
  exact hmend.setReg _ ha

theorem PlainAt.storeWord_cores {a : Nat} {n : RegName} {i : Nat} {r : RegAt} (h : PlainAt a n i r) (s : State) (x : RegWr) :
    (s.storeWord r a x).cores = s.cores := by
  rw [s.storeWord_of_plain a x h.plain]
  rfl

theorem PlainAt.storeWord_core {a : Nat} {n : RegName} {i : Nat} {r : RegAt} (h : PlainAt a n i r) (s : State) (x : RegWr)
    (k : Core) : (s.storeWord r a x).core k = s.core k := by
  unfold State.core
  rw [h.storeWord_cores s x]

/-- A row that is an accepted write of a plain register whose effect leaves `u`. -/
theorem PlainAt.exec_effect {a : Nat} {n : RegName} {i : Nat} {r : RegAt} (h : PlainAt a n i r) {c : Instr} {s u : State}
    {x : RegWr} {as : List Nat} (hc : c.write? = some (a, x)) (hs : s.Accepts a x)
    (hu : s.regEffect (s.storeWord r a x) r a x = u) (ht : s.Touches u as) :
    exec c s = .next (s.settled (u.met x.who a 0)) ∧ s.RegsButFor (u.met x.who a 0) as
      ∧ (u.met x.who a 0).sram = s.sram ∧ (u.met x.who a 0).kpr = s.kpr := by
  refine ⟨?_, fun b hb hst => ?_, ?_, ?_⟩
  · rw [exec_of_accepts hc hs, h.wrote hs, hu]
  · rw [State.met_ok_reg u x.who a hst, ht.regs b hb]
  · rw [State.met_ok_sram, ht.sram]
  · rw [State.met_ok_kpr, ht.kpr]

theorem asIdx_val {n i : Nat} (h : 0 < n) {k : Fin n} (hi : i = k.val) : asIdx n i h = k := by
  subst hi
  exact Fin.ext (Nat.mod_eq_of_lt k.isLt)

end Sys2Proof.Machine
end

section
/-!
What accepted writes of command bits do: for each command the effect of its write, then what the command leaves.
-/

namespace Sys2Proof.Machine

/-- The status registers of the host ports lie in block 8. -/
theorem ne_hostStatus_of_block {a b : Nat} (h : a / 0x10000 = b) (hb : b ≠ 8) (k : HostId) : a ≠ A.HP_TWk_STATUS k := by
  unfold A.HP_TWk_STATUS
  omega

/-- A bit of a register outside the host ports that is set reads 1 once OK has been met. -/
theorem State.met_ok_bit_setBit (t : State) (who : Writer) (a : Nat) {f : Fld} {b : Nat} (hf : f.lo + f.width ≤ 32)
    (hw : f.width = 1) (hblock : f.addr / 0x10000 = b) (hb : b ≠ 8) : ((t.setBit f true).met who a 0).bit f = true := by
  rw [State.met_ok_bit _ who a (ne_hostStatus_of_block hblock hb), State.bit_setBit_same t true hf hw]

/-! ### The engine -/

theorem exists_plainAt_PE_CTRL : ∃ r, PlainAt A.PE_CTRL .PE_CTRL 0 r := exists_plainAt (by decide +kernel)

/-- The command bits of a write of PE_CTRL: LOAD_ALL and CLR_TRG_DROP (R103, R119). -/
def State.peCommands (u : State) (x : RegWr) : State :=
  let t := if x.bit 1 then u.setBit F.PE_CTRL_LOAD_ALL true else u
  if x.bit 2 then t.setReg A.PE_TRG_DROP 0 else t

theorem State.peCommands_of_loadAll (u : State) {x : RegWr} (h1 : x.bit 1 = true) (h2 : x.bit 2 = false) :
    u.peCommands x = u.setBit F.PE_CTRL_LOAD_ALL true := by
  simp [State.peCommands, h1, h2]

theorem State.peCommands_of_clrTrgDrop (u : State) {x : RegWr} (h1 : x.bit 1 = false) (h2 : x.bit 2 = true) :
    u.peCommands x = u.setReg A.PE_TRG_DROP 0 := by
  simp [State.peCommands, h1, h2]

/-- A write of PE_CTRL that leaves ENGINE_EN alone does no more than its command bits. -/
theorem PlainAt.effect_PE_CTRL {r : RegAt} (h : PlainAt A.PE_CTRL .PE_CTRL 0 r) (s : State) {x : RegWr}
    (hx : x.mask.getLsbD 0 = false) :
    s.regEffect (s.storeWord r A.PE_CTRL x) r A.PE_CTRL x = (s.storeWord r A.PE_CTRL x).peCommands x := by
  have hen : (s.storeWord r A.PE_CTRL x).bit F.PE_CTRL_ENGINE_EN = (s.reg A.PE_CTRL).getLsbD 0 := by
    rw [State.bit_eq_getLsbD _ rfl, s.storeWord_of_plain _ x h.plain]
    exact (congrArg (BitVec.getLsbD · 0) (State.reg_setReg_same _ _ _)).trans (s.wordAfter_getLsbD_of_unmasked r _ x hx)
  show (s.storeWord r A.PE_CTRL x).engineEffect r.cls.name (s.reg A.PE_CTRL) x = _
  rw [h.name]
  simp only [State.engineEffect, hen]
  cases (s.reg A.PE_CTRL).getLsbD 0 <;> rfl

/-- LOAD_ALL reads 1 until the load is made (R103). -/
theorem exec_loadAll {who : Writer} {s : State}
    (hs : s.Accepts F.PE_CTRL_LOAD_ALL.addr (RegWr.field who F.PE_CTRL_LOAD_ALL 1)) :
    ∃ t : State, exec (.loadAll who) s = .next (s.settled t) ∧ t.bit F.PE_CTRL_LOAD_ALL = true ∧ t.cores = s.cores ∧
      s.RegsButFor t [A.PE_CTRL] ∧ t.sram = s.sram ∧ t.kpr = s.kpr := by
  obtain ⟨r, h⟩ := exists_plainAt_PE_CTRL
  have hbit : ∀ i, (RegWr.field who F.PE_CTRL_LOAD_ALL 1).bit i = decide (i = 1) :=
    RegWr.field_one_bit who rfl rfl (by decide)
  have heff := (h.effect_PE_CTRL s ((RegWr.field_mask_getLsbD who F.PE_CTRL_LOAD_ALL 1 0).trans rfl)).trans
    (State.peCommands_of_loadAll _ (hbit 1) (hbit 2))
  obtain ⟨he, hframe⟩ := h.exec_effect (c := .loadAll who) rfl hs heff
    ((h.touches_storeWord s _ List.mem_cons_self).setBit true List.mem_cons_self)
  refine ⟨_, he, State.met_ok_bit_setBit _ _ _ (by decide) rfl rfl (by decide), ?_, hframe⟩
  exact (State.met_ok_cores _ _ _).trans (h.storeWord_cores s _)

/-- CLR_TRG_DROP clears the count of dropped triggers (R119). -/
theorem exec_clrTrgDrop {who : Writer} {s : State}
    (hs : s.Accepts F.PE_CTRL_CLR_TRG_DROP.addr (RegWr.field who F.PE_CTRL_CLR_TRG_DROP 1)) :
    ∃ t : State, exec (.clrTrgDrop who) s = .next (s.settled t) ∧ t.reg A.PE_TRG_DROP = 0 ∧
      s.RegsButFor t [A.PE_CTRL, A.PE_TRG_DROP] ∧ t.sram = s.sram ∧ t.kpr = s.kpr := by
  obtain ⟨r, h⟩ := exists_plainAt_PE_CTRL
  have hbit : ∀ i, (RegWr.field who F.PE_CTRL_CLR_TRG_DROP 1).bit i = decide (i = 2) :=
    RegWr.field_one_bit who rfl rfl (by decide)
  have heff := (h.effect_PE_CTRL s ((RegWr.field_mask_getLsbD who F.PE_CTRL_CLR_TRG_DROP 1 0).trans rfl)).trans
    (State.peCommands_of_clrTrgDrop _ (hbit 1) (hbit 2))
  obtain ⟨he, hframe⟩ := h.exec_effect (c := .clrTrgDrop who) rfl hs heff
    ((h.touches_storeWord s _ (as := [A.PE_CTRL, A.PE_TRG_DROP]) List.mem_cons_self).setReg 0
      (List.mem_cons_of_mem _ List.mem_cons_self))
  refine ⟨_, he, ?_, hframe⟩
  rw [State.met_ok_reg _ _ _ (ne_hostStatus_of_block (show A.PE_TRG_DROP / 0x10000 = 1 from rfl) (by decide)),
    State.reg_setReg_same]

/-! ### Loops -/

theorem exists_plainAt_LP_Ln_CTRL (l : Loop) : ∃ r, PlainAt (A.LP_Ln_CTRL l) .LP_Ln_CTRL l r :=
  exists_plainAt (by revert l; decide +kernel)

theorem LP_Ln_CTRL_block (l : Loop) : A.LP_Ln_CTRL l / 0x10000 = 2 := by
  unfold A.LP_Ln_CTRL
  omega

theorem PlainAt.effect_LP_Ln_CTRL {l : Loop} {r : RegAt} (h : PlainAt (A.LP_Ln_CTRL l) .LP_Ln_CTRL l r) (s : State) (x : RegWr) :
    s.regEffect (s.storeWord r (A.LP_Ln_CTRL l) x) r (A.LP_Ln_CTRL l) x = (s.storeWord r (A.LP_Ln_CTRL l) x).loopCtrl l x := by
  simp only [State.regEffect, LP_Ln_CTRL_block, State.loopEffect, h.fields, h.name, asIdx_val _ h.idx]
  rfl

theorem State.loopCtrl_of_swap (u : State) (l : Loop) {x : RegWr} (h8 : x.bit 8 = true) (h9 : x.bit 9 = false)
    (h10 : x.bit 10 = false) : u.loopCtrl l x = u.setBit (F.LP_Ln_CTRL_SWAP l) true := by
  simp [State.loopCtrl, h8, h9, h10]

theorem State.loopCtrl_of_fbRet (u : State) (l : Loop) {x : RegWr} (h8 : x.bit 8 = false) (h9 : x.bit 9 = false)
    (h10 : x.bit 10 = true) (h5 : u.loopSt l = 5) : u.loopCtrl l x = u.setBit (F.LP_Ln_CTRL_FB_RET l) true := by
  simp [State.loopCtrl, h8, h9, h10, h5]

/-- SWAP reads 1 until the sets are swapped (R133). -/
theorem exec_swap {who : Writer} {l : Loop} {s : State}
    (hs : s.Accepts (F.LP_Ln_CTRL_SWAP l.val).addr (RegWr.field who (F.LP_Ln_CTRL_SWAP l.val) 1)) :
    ∃ t : State, exec (.swap who l) s = .next (s.settled t) ∧ t.bit (F.LP_Ln_CTRL_SWAP l.val) = true ∧
      s.RegsButFor t [A.LP_Ln_CTRL l.val] ∧ t.sram = s.sram ∧ t.kpr = s.kpr := by
  obtain ⟨r, h⟩ := exists_plainAt_LP_Ln_CTRL l
  have hbit : ∀ i, (RegWr.field who (F.LP_Ln_CTRL_SWAP l) 1).bit i = decide (i = 8) :=
    RegWr.field_one_bit who rfl rfl (by decide)
  have heff := (h.effect_LP_Ln_CTRL s _).trans (State.loopCtrl_of_swap _ l (hbit 8) (hbit 9) (hbit 10))
  obtain ⟨he, hframe⟩ := h.exec_effect (c := .swap who l) rfl hs heff
    ((h.touches_storeWord s _ List.mem_cons_self).setBit true List.mem_cons_self)
  exact ⟨_, he, State.met_ok_bit_setBit _ _ _ (by simp [F.LP_Ln_CTRL_SWAP]) rfl (LP_Ln_CTRL_block l) (by decide), hframe⟩

/-- FB_RET in STATE 5 reads 1 until the loop returns (R149). -/
theorem exec_fbRet {who : Writer} {l : Loop} {s : State}
    (hs : s.Accepts (F.LP_Ln_CTRL_FB_RET l.val).addr (RegWr.field who (F.LP_Ln_CTRL_FB_RET l.val) 1)) (h5 : s.loopSt l = 5) :
    ∃ t : State, exec (.fbRet who l) s = .next (s.settled t) ∧ t.bit (F.LP_Ln_CTRL_FB_RET l.val) = true ∧
      s.RegsButFor t [A.LP_Ln_CTRL l.val] ∧ t.sram = s.sram ∧ t.kpr = s.kpr := by
  obtain ⟨r, h⟩ := exists_plainAt_LP_Ln_CTRL l
  have hbit : ∀ i, (RegWr.field who (F.LP_Ln_CTRL_FB_RET l) 1).bit i = decide (i = 10) :=
    RegWr.field_one_bit who rfl rfl (by decide)
  have hst : (s.storeWord r (A.LP_Ln_CTRL l) (RegWr.field who (F.LP_Ln_CTRL_FB_RET l) 1)).loopSt l = 5 := by
    have hne : A.LP_Ln_STATUS l ≠ A.LP_Ln_CTRL l := by
      unfold A.LP_Ln_STATUS A.LP_Ln_CTRL
      omega
    rw [← h5]
    exact congrArg (getBits · _ _) (s.storeWord_reg_ne r _ hne)
  have heff := (h.effect_LP_Ln_CTRL s _).trans (State.loopCtrl_of_fbRet _ l (hbit 8) (hbit 9) (hbit 10) hst)
  obtain ⟨he, hframe⟩ := h.exec_effect (c := .fbRet who l) rfl hs heff
    ((h.touches_storeWord s _ List.mem_cons_self).setBit true List.mem_cons_self)
  exact ⟨_, he, State.met_ok_bit_setBit _ _ _ (by simp [F.LP_Ln_CTRL_FB_RET]) rfl (LP_Ln_CTRL_block l) (by decide), hframe⟩

/-! ### Links -/

theorem State.forAll_eq_self {n : Nat} {s : State} {f : Fin n → State → State} (h : ∀ i, f i s = s) : s.forAll f = s := by
  unfold State.forAll
  induction upto n with
  | nil => rfl
  | cons i l ih => rw [List.foldl_cons, h i, ih]

/-- LNK_SETTLED reads the maps and status of the ports, and the status of the loops. -/
theorem State.lnkSettled_congr {s t : State} (hmap : ∀ v : Port, t.reg (A.VLK_n_MAP v) = s.reg (A.VLK_n_MAP v))
    (hown : ∀ (v : Port) (k : Fin 2), t.targetOwn v k = s.targetOwn v k)
    (hloop : ∀ l : Loop, t.reg (A.LP_Ln_STATUS l) = s.reg (A.LP_Ln_STATUS l)) (v : Port) (k : Fin 2) :
    t.lnkSettled v k = s.lnkSettled v k := by
  have hcode : t.slotCode = s.slotCode := by
    funext v k
    unfold State.slotCode
    rw [show t.fld (F.VLK_n_MAP_LOOP0 v) = s.fld (F.VLK_n_MAP_LOOP0 v) from congrArg (getBits · _ _) (hmap v),
      show t.fld (F.VLK_n_MAP_LOOP1 v) = s.fld (F.VLK_n_MAP_LOOP1 v) from congrArg (getBits · _ _) (hmap v)]
  have hsettled : ∀ l : Loop, t.bit (F.LP_Ln_STATUS_SETTLED l) = s.bit (F.LP_Ln_STATUS_SETTLED l) :=
    fun l => congrArg (getBits · _ _ == 1) (hloop l)
  have hslot : t.slotLoop v k = s.slotLoop v k := by
    simp only [State.slotLoop, State.slotConflict, hcode]
    rfl
  unfold State.lnkSettled
  rw [hslot]
  cases s.slotLoop v k with
  | none => rfl
  | some l =>
    dsimp only
    rw [hown, hsettled]

theorem State.noteSettled_eq_self {s was : State} (h : ∀ (v : Port) (k : Fin 2), s.lnkSettled v k = was.lnkSettled v k) :
    s.noteSettled was = s := by
  refine State.forAll_eq_self fun v => State.forAll_eq_self fun k => ?_
  rw [h, if_neg (by simp)]

/-- What CNT_CLR of a link port does beside its store: the counts clear, and a port that is not enabled ends its pulse. -/
def State.vlkCleared (u : State) (v : Port) : State :=
  if (u.clearErr v).bit (F.VLK_n_CFG_EN v) then u.clearErr v else (u.clearErr v).endPulse v

theorem State.targetOwn_endPulse (u : State) (v w : Port) (k : Fin 2) : (u.endPulse v).targetOwn w k = u.targetOwn w k := by
  refine congrArg (· == 1) (State.fld_setFld_beside u 0 ?_)
  simp [F.VLK_n_STATUS_ATTN, F.VLK_n_STATUS_TARGET_OWN, Fld.at]
  omega

theorem State.targetOwn_congr {s t : State} {v : Port} (h : t.reg (A.VLK_n_STATUS v) = s.reg (A.VLK_n_STATUS v)) (k : Fin 2) :
    t.targetOwn v k = s.targetOwn v k := congrArg (getBits · _ _ == 1) h

theorem State.targetOwn_vlkCleared (u : State) (v w : Port) (k : Fin 2) : (u.vlkCleared v).targetOwn w k = u.targetOwn w k := by
  have hne : A.VLK_n_STATUS w ≠ A.VLK_n_ERR v := by
    unfold A.VLK_n_STATUS A.VLK_n_ERR
    omega
  have hclear : (u.clearErr v).targetOwn w k = u.targetOwn w k := State.targetOwn_congr (State.reg_setReg_ne _ _ hne) k
  unfold State.vlkCleared
  split
  · exact hclear
  · rw [State.targetOwn_endPulse, hclear]

theorem State.reg_vlkCleared (u : State) (v : Port) : (u.vlkCleared v).reg (A.VLK_n_ERR v) = 0 := by
  have hne : A.VLK_n_ERR v ≠ A.VLK_n_STATUS v := by
    unfold A.VLK_n_ERR A.VLK_n_STATUS
    omega
  have herr : (u.clearErr v).reg (A.VLK_n_ERR v) = 0 := State.reg_setReg_same ..
  unfold State.vlkCleared
  split
  · exact herr
  · exact (State.reg_setFld_ne (u.clearErr v) (f := F.VLK_n_STATUS_ATTN v) hne).trans herr

/-- The registers that CNT_CLR of a link port reaches. -/
def vlkCntClrRegs (v : Port) : List Nat := [A.VLK_n_CFG v, A.VLK_n_ERR v, A.VLK_n_STATUS v]

theorem State.Touches.vlkCleared {s u : State} {v : Port} (h : s.Touches u (vlkCntClrRegs v)) :
    s.Touches (u.vlkCleared v) (vlkCntClrRegs v) := by
  have herr : s.Touches (u.clearErr v) (vlkCntClrRegs v) := h.setReg 0 (by simp [vlkCntClrRegs])
  unfold State.vlkCleared
  split
  · exact herr
  · exact herr.setFld (f := F.VLK_n_STATUS_ATTN v) 0 (List.mem_cons_of_mem _ (List.mem_cons_of_mem _ List.mem_cons_self))

theorem exists_plainAt_VLK_n_CFG (v : Port) : ∃ r, PlainAt (A.VLK_n_CFG v) .VLK_n_CFG v r :=
  exists_plainAt (by revert v; decide +kernel)

/-- CNT_CLR of a link port settles no slot, so it raises no alert. -/
theorem PlainAt.effect_VLK_n_CFG {v : Port} {r : RegAt} (h : PlainAt (A.VLK_n_CFG v) .VLK_n_CFG v r) (s : State) {x : RegWr}
    (hx : x.bit 7 = true) :
    s.regEffect (s.storeWord r (A.VLK_n_CFG v) x) r (A.VLK_n_CFG v) x = (s.storeWord r (A.VLK_n_CFG v) x).vlkCleared v := by
  have ht := (h.touches_storeWord s x (as := vlkCntClrRegs v) List.mem_cons_self).vlkCleared
  have hblock : A.VLK_n_CFG v / 0x10000 = 3 := by
    unfold A.VLK_n_CFG
    omega
  simp only [State.regEffect, hblock, State.linkEffect, h.name, asIdx_val _ h.idx, hx, if_true]
  refine State.noteSettled_eq_self (State.lnkSettled_congr (fun w => ht.regs _ ?_) (fun w k => ?_) fun l => ht.regs _ ?_)
  · simp only [vlkCntClrRegs, A.VLK_n_MAP, A.VLK_n_CFG, A.VLK_n_ERR, A.VLK_n_STATUS, List.mem_cons, List.not_mem_nil,
      or_false]
    omega
  · refine (State.targetOwn_vlkCleared _ v w k).trans (State.targetOwn_congr (s.storeWord_reg_ne r _ ?_) k)
    unfold A.VLK_n_STATUS A.VLK_n_CFG
    omega
  · simp only [vlkCntClrRegs, A.LP_Ln_STATUS, A.VLK_n_CFG, A.VLK_n_ERR, A.VLK_n_STATUS, List.mem_cons, List.not_mem_nil,
      or_false]
    omega

/-- CNT_CLR clears the counts of the port (R178). -/
theorem exec_vlkCntClr {who : Writer} {v : Port} {s : State}
    (hs : s.Accepts (F.VLK_n_CFG_CNT_CLR v.val).addr (RegWr.field who (F.VLK_n_CFG_CNT_CLR v.val) 1)) :
    ∃ t : State, exec (.vlkCntClr who v) s = .next (s.settled t) ∧ t.reg (A.VLK_n_ERR v.val) = 0 ∧
      s.RegsButFor t [A.VLK_n_CFG v.val, A.VLK_n_ERR v.val, A.VLK_n_STATUS v.val] ∧ t.sram = s.sram ∧ t.kpr = s.kpr := by
  obtain ⟨r, h⟩ := exists_plainAt_VLK_n_CFG v
  have hbit : ∀ i, (RegWr.field who (F.VLK_n_CFG_CNT_CLR v) 1).bit i = decide (i = 7) :=
    RegWr.field_one_bit who rfl rfl (by decide)
  obtain ⟨he, hframe⟩ := h.exec_effect (c := .vlkCntClr who v) rfl hs (h.effect_VLK_n_CFG s (hbit 7))
    (h.touches_storeWord s _ (as := vlkCntClrRegs v) List.mem_cons_self).vlkCleared
  refine ⟨_, he, ?_, hframe⟩
  have hblock : A.VLK_n_ERR v / 0x10000 = 3 := by
    unfold A.VLK_n_ERR
    omega
  rw [State.met_ok_reg _ _ _ (ne_hostStatus_of_block hblock (by decide)), State.reg_vlkCleared]

/-! ### Host ports -/

theorem exists_plainAt_HP_TWk_CFG (h : HostId) : ∃ r, PlainAt (A.HP_TWk_CFG h) .HP_TWk_CFG h r :=
  exists_plainAt (by revert h; decide +kernel)

theorem PlainAt.effect_HP_TWk_CFG {k : HostId} {r : RegAt} (h : PlainAt (A.HP_TWk_CFG k) .HP_TWk_CFG k r) (s : State)
    {x : RegWr} (hx : x.bit 6 = true) :
    s.regEffect (s.storeWord r (A.HP_TWk_CFG k) x) r (A.HP_TWk_CFG k) x = (s.storeWord r (A.HP_TWk_CFG k) x).clearHpCnt k := by
  have hblock : A.HP_TWk_CFG k / 0x10000 = 8 := by
    unfold A.HP_TWk_CFG
    omega
  simp only [State.regEffect, hblock, State.hostEffect, h.name, asIdx_val _ h.idx, hx, if_true]

/-- The registers that CNT_CLR of a host port reaches. -/
def hpCntClrRegs (k : HostId) : List Nat := [A.HP_TWk_CFG k, A.HP_TWk_CNT k, A.HP_TWk_NOTIFY k]

theorem State.Touches.clearHpCnt {s u : State} {k : HostId} (h : s.Touches u (hpCntClrRegs k)) :
    s.Touches (u.clearHpCnt k) (hpCntClrRegs k) := by
  have hcnt : A.HP_TWk_CNT k ∈ hpCntClrRegs k := by simp [hpCntClrRegs]
  have hnotify : A.HP_TWk_NOTIFY k ∈ hpCntClrRegs k := by simp [hpCntClrRegs]
  exact ((h.setReg 0 hcnt).setFld (f := F.HP_TWk_NOTIFY_SENT k) 0 hnotify).setFld (f := F.HP_TWk_NOTIFY_FAILED k) 0 hnotify

theorem State.reg_clearHpCnt (u : State) (k : HostId) : (u.clearHpCnt k).reg (A.HP_TWk_CNT k) = 0 := by
  have hne : A.HP_TWk_CNT k ≠ A.HP_TWk_NOTIFY k := by
    unfold A.HP_TWk_CNT A.HP_TWk_NOTIFY
    omega
  unfold State.clearHpCnt
  rw [State.reg_setFld_ne _ (f := F.HP_TWk_NOTIFY_FAILED k) hne, State.reg_setFld_ne _ (f := F.HP_TWk_NOTIFY_SENT k) hne,
    State.reg_setReg_same]

theorem State.notifySent_clearHpCnt (u : State) (k : HostId) : (u.clearHpCnt k).fld (F.HP_TWk_NOTIFY_SENT k) = 0 := by
  unfold State.clearHpCnt
  rw [State.fld_setFld_beside _ 0 (by simp [F.HP_TWk_NOTIFY_SENT, F.HP_TWk_NOTIFY_FAILED]),
    State.fld_setFld_same _ 0 (by simp [F.HP_TWk_NOTIFY_SENT]), Nat.zero_mod]

theorem State.notifyFailed_clearHpCnt (u : State) (k : HostId) : (u.clearHpCnt k).fld (F.HP_TWk_NOTIFY_FAILED k) = 0 := by
  unfold State.clearHpCnt
  rw [State.fld_setFld_same _ 0 (by simp [F.HP_TWk_NOTIFY_FAILED]), Nat.zero_mod]

/-- CNT_CLR clears the counts of the port (R335). -/
theorem exec_hpCntClr {who : Writer} {k : HostId} {s : State}
    (hs : s.Accepts (F.HP_TWk_CFG_CNT_CLR k.val).addr (RegWr.field who (F.HP_TWk_CFG_CNT_CLR k.val) 1)) :
    ∃ t : State, exec (.hpCntClr who k) s = .next (s.settled t) ∧ t.reg (A.HP_TWk_CNT k.val) = 0 ∧
      t.fld (F.HP_TWk_NOTIFY_SENT k.val) = 0 ∧ t.fld (F.HP_TWk_NOTIFY_FAILED k.val) = 0 ∧
      s.RegsButFor t [A.HP_TWk_CFG k.val, A.HP_TWk_CNT k.val, A.HP_TWk_NOTIFY k.val] ∧ t.sram = s.sram ∧ t.kpr = s.kpr := by
  obtain ⟨r, h⟩ := exists_plainAt_HP_TWk_CFG k
  have hbit : ∀ i, (RegWr.field who (F.HP_TWk_CFG_CNT_CLR k) 1).bit i = decide (i = 6) :=
    RegWr.field_one_bit who rfl rfl (by decide)
  obtain ⟨he, hframe⟩ := h.exec_effect (c := .hpCntClr who k) rfl hs (h.effect_HP_TWk_CFG s (hbit 6))
    (h.touches_storeWord s _ (as := hpCntClrRegs k) List.mem_cons_self).clearHpCnt
  have hcnt : ∀ j : HostId, A.HP_TWk_CNT k ≠ A.HP_TWk_STATUS j := fun j => by
    unfold A.HP_TWk_CNT A.HP_TWk_STATUS
    omega
  have hnotify : ∀ j : HostId, A.HP_TWk_NOTIFY k ≠ A.HP_TWk_STATUS j := fun j => by
    unfold A.HP_TWk_NOTIFY A.HP_TWk_STATUS
    omega
  refine ⟨_, he, ?_, ?_, ?_, hframe⟩
  · rw [State.met_ok_reg _ _ _ hcnt, State.reg_clearHpCnt]
  · rw [State.met_ok_fld _ _ _ (f := F.HP_TWk_NOTIFY_SENT k) hnotify, State.notifySent_clearHpCnt]
  · rw [State.met_ok_fld _ _ _ (f := F.HP_TWk_NOTIFY_FAILED k) hnotify, State.notifyFailed_clearHpCnt]

/-! ### Start, and the voltage reference -/

theorem exists_plainAt_START_HEALTH : ∃ r, PlainAt A.START_HEALTH .START_HEALTH 0 r := exists_plainAt (by decide +kernel)

theorem PlainAt.effect_START_HEALTH {r : RegAt} (h : PlainAt A.START_HEALTH .START_HEALTH 0 r) (s : State) {x : RegWr} {k : Core}
    (hwho : x.who = .core k) (hx : x.bit k = true) :
    s.regEffect (s.storeWord r A.START_HEALTH x) r A.START_HEALTH x = (s.storeWord r A.START_HEALTH x).healthy k := by
  show (s.storeWord r A.START_HEALTH x).sysEffect r.cls.name (s.reg A.START_HEALTH) x = _
  simp only [State.sysEffect, h.name, hwho, hx, if_true]

/-- HEALTHY reads 1 in the bit of the core (R80). -/
theorem exec_healthy {k : Core} {s : State}
    (hs : s.Accepts (F.START_HEALTH_HEALTHY.at k.val).addr (RegWr.field (.core k) (F.START_HEALTH_HEALTHY.at k.val) 1)) :
    ∃ t : State, exec (.healthy k) s = .next (s.settled t) ∧ t.bit (F.START_HEALTH_HEALTHY.at k.val) = true ∧
      s.RegsButFor t [A.START_HEALTH] ∧ t.sram = s.sram ∧ t.kpr = s.kpr := by
  obtain ⟨r, h⟩ := exists_plainAt_START_HEALTH
  have hlo : (F.START_HEALTH_HEALTHY.at k).lo = k := Nat.zero_add _
  have hbit := RegWr.field_one_bit (.core k) (f := F.START_HEALTH_HEALTHY.at k) rfl hlo (k.isLt.trans (by decide)) k
  obtain ⟨he, hframe⟩ := h.exec_effect (c := .healthy k) rfl hs (h.effect_START_HEALTH s rfl (hbit.trans (decide_eq_true rfl)))
    ((h.touches_storeWord s _ List.mem_cons_self).setBit (f := F.START_HEALTH_HEALTHY.at k) true List.mem_cons_self)
  have hfit : (F.START_HEALTH_HEALTHY.at k).lo + 1 ≤ 32 := by
    rw [hlo]
    omega
  exact ⟨_, he, State.met_ok_bit_setBit _ _ _ hfit rfl (show A.START_HEALTH / 0x10000 = 0 from rfl) (by decide), hframe⟩

theorem exists_plainAt_TCV_CFG : ∃ r, PlainAt A.TCV_CFG .TCV_CFG 0 r := exists_plainAt (by decide +kernel)

/-- The fields of TCV_CFG (R385). -/
theorem PlainAt.fields_TCV_CFG {r : RegAt} (h : PlainAt A.TCV_CFG .TCV_CFG 0 r) :
    r.fields = [⟨0, 2, .rw, .own, .img 0⟩, ⟨2, 1, .rw, .own, .img 1⟩] := by
  have hmap : (findReg A.TCV_CFG).map RegAt.fields = some [⟨0, 2, .rw, .own, .img 0⟩, ⟨2, 1, .rw, .own, .img 1⟩] := by
    decide +kernel
  rw [h.found] at hmap
  exact Option.some.inj hmap

/-- REF_SEL takes the value that a write of it brings. -/
theorem PlainAt.refSel_storeWord {r : RegAt} (h : PlainAt A.TCV_CFG .TCV_CFG 0 r) (s : State) (who : Writer) (v : Fin 4) :
    (s.storeWord r A.TCV_CFG (RegWr.field who F.TCV_CFG_REF_SEL v)).fld F.TCV_CFG_REF_SEL = v := by
  rw [s.storeWord_of_plain _ _ h.plain]
  refine (congrArg (getBits · 0 2) (State.reg_setReg_same _ _ _)).trans (Nat.eq_of_testBit_eq fun i => ?_)
  rw [getBits_testBit, State.wordAfter_eq_foldl, h.fields_TCV_CFG, Nat.zero_add]
  by_cases hi : i < 2
  · have hbit : (RegWr.field who F.TCV_CFG_REF_SEL v).bit i = v.val.testBit i := by
      rw [RegWr.field_bit]
      simp [F.TCV_CFG_REF_SEL, hi, show i < 32 by omega]
    have hcover : ((bitsMask 0 2).getLsbD i) = true := by
      rw [bitsMask_getLsbD]
      simp [hi, show i < 32 by omega]
    have hbeside : ((bitsMask 2 1).getLsbD i) = false := by
      rw [bitsMask_getLsbD]
      simp [show ¬2 ≤ i by omega]
    have hheld : (s.heldBits r).getLsbD i = false := by
      simp [State.heldBits, h.name]
    have hmask : (RegWr.field who F.TCV_CFG_REF_SEL v).mask.getLsbD i = true := hcover
    rw [List.foldl_cons, List.foldl_cons, List.foldl_nil,
      RegWr.stored_getLsbD_of_uncovered _ _ _ ⟨2, 1, .rw, .own, .img 1⟩ (by omega) fun _ => hbeside,
      RegWr.stored_getLsbD_of_covered _ _ _ ⟨0, 2, .rw, .own, .img 0⟩ rfl hcover hheld hmask, decide_eq_true hi, Bool.true_and]
    exact hbit
  · rw [decide_eq_false hi, Bool.false_and,
      Nat.testBit_lt_two_pow (v.isLt.trans_le (Nat.pow_le_pow_right Nat.two_pos (Nat.le_of_not_lt hi)))]

/-- A write of TCV_CFG reaches what the telemetry converter holds beside the registers, and nothing else but the register. -/
theorem PlainAt.effect_TCV_CFG {r : RegAt} (h : PlainAt A.TCV_CFG .TCV_CFG 0 r) (s : State) (x : RegWr) :
    (s.regEffect (s.storeWord r A.TCV_CFG x) r A.TCV_CFG x).regs = (s.storeWord r A.TCV_CFG x).regs
      ∧ (s.regEffect (s.storeWord r A.TCV_CFG x) r A.TCV_CFG x).sram = (s.storeWord r A.TCV_CFG x).sram
      ∧ (s.regEffect (s.storeWord r A.TCV_CFG x) r A.TCV_CFG x).kpr = (s.storeWord r A.TCV_CFG x).kpr := by
  have heff : s.regEffect (s.storeWord r A.TCV_CFG x) r A.TCV_CFG x
      = (s.storeWord r A.TCV_CFG x).tcvEffect r (s.reg A.TCV_CFG) x s.urgPend := rfl
  rw [heff]
  simp only [State.tcvEffect, h.name]
  repeat' split
  all_goals exact ⟨rfl, rfl, rfl⟩

/-- REF_SEL selects the voltage reference (R364). -/
theorem exec_refSelWrite {who : Writer} {v : Fin 4} {s : State}
    (hs : s.Accepts F.TCV_CFG_REF_SEL.addr (RegWr.field who F.TCV_CFG_REF_SEL v.val)) :
    ∃ t : State, exec (.refSelWrite who v) s = .next (s.settled t) ∧ t.fld F.TCV_CFG_REF_SEL = v.val ∧
      s.RegsButFor t [A.TCV_CFG] ∧ t.sram = s.sram ∧ t.kpr = s.kpr := by
  obtain ⟨r, h⟩ := exists_plainAt_TCV_CFG
  obtain ⟨hregs, hsram, hkpr⟩ := h.effect_TCV_CFG s (RegWr.field who F.TCV_CFG_REF_SEL v)
  obtain ⟨he, hframe⟩ := h.exec_effect (c := .refSelWrite who v) rfl hs rfl
    ((h.touches_storeWord s _ List.mem_cons_self).of_same hregs hsram hkpr)
  refine ⟨_, he, ?_, hframe⟩
  rw [State.met_ok_fld _ _ _ (ne_hostStatus_of_block (show A.TCV_CFG / 0x10000 = 10 from rfl) (by decide)),
    State.fld_of_regs_eq hregs, h.refSel_storeWord s who v]

/-! ### Cores -/

theorem exists_plainAt_CORE_Ck_WDOG (k : Core) : ∃ r, PlainAt (A.CORE_Ck_WDOG k) .CORE_Ck_WDOG k r :=
  exists_plainAt (by revert k; decide +kernel)

/-- The watchdog starts anew on 0xA5, and on no other value (R431). -/
theorem PlainAt.effect_CORE_Ck_WDOG {k : Core} {r : RegAt} (h : PlainAt (A.CORE_Ck_WDOG k) .CORE_Ck_WDOG k r) (s : State)
    {x : RegWr} {v : Byte} (hx : getBits x.ones 8 8 = v.toNat) :
    s.regEffect (s.storeWord r (A.CORE_Ck_WDOG k) x) r (A.CORE_Ck_WDOG k) x =
      if v = 0xA5 then (s.storeWord r (A.CORE_Ck_WDOG k) x).modCore k fun c => { c with wdog := 0 }
      else s.storeWord r (A.CORE_Ck_WDOG k) x := by
  have hblock : A.CORE_Ck_WDOG k / 0x10000 = 13 := by
    unfold A.CORE_Ck_WDOG
    omega
  have hkey : v.toNat = 0xA5 ↔ v = 0xA5 := BitVec.toNat_inj (x := v) (y := 0xA5)
  simp only [State.regEffect, hblock, State.coreEffect, h.name, asIdx_val _ h.idx, hx, hkey]

/-- KICK with 0xA5 starts the watchdog anew (R431). -/
theorem exec_kick {who : Writer} {k : Core} {v : Byte} {s : State}
    (hs : s.Accepts (F.CORE_Ck_WDOG_KICK k.val).addr (RegWr.field who (F.CORE_Ck_WDOG_KICK k.val) v.toNat)) :
    ∃ t : State, exec (.kick who k v) s = .next (s.settled t) ∧ (t.core k).wdog = (if v = 0xA5 then 0 else (s.core k).wdog) ∧
      (t.core k).w = (s.core k).w ∧ s.RegsButFor t [A.CORE_Ck_WDOG k.val] ∧ t.sram = s.sram ∧ t.kpr = s.kpr := by
  obtain ⟨r, h⟩ := exists_plainAt_CORE_Ck_WDOG k
  have hones := RegWr.getBits_field_ones who (f := F.CORE_Ck_WDOG_KICK k) (by simp [F.CORE_Ck_WDOG_KICK]) v.isLt
  have ht := h.touches_storeWord s (RegWr.field who (F.CORE_Ck_WDOG_KICK k) v.toNat) (as := [A.CORE_Ck_WDOG k])
    List.mem_cons_self
  have heff := h.effect_CORE_Ck_WDOG s hones
  have hcore := h.storeWord_core s (RegWr.field who (F.CORE_Ck_WDOG_KICK k) v.toNat) k
  by_cases hv : v = 0xA5
  · rw [if_pos hv] at heff ⊢
    obtain ⟨he, hframe⟩ := h.exec_effect (c := .kick who k v) rfl hs heff (ht.of_same rfl rfl rfl)
    exact ⟨_, he, by simp, by simp [hcore], hframe⟩
  · rw [if_neg hv] at heff ⊢
    obtain ⟨he, hframe⟩ := h.exec_effect (c := .kick who k v) rfl hs heff ht
    exact ⟨_, he, by simp [hcore], by simp [hcore], hframe⟩

theorem exists_plainAt_CORE_Ck_RING (k : Core) : ∃ r, PlainAt (A.CORE_Ck_RING k) .CORE_Ck_RING k r :=
  exists_plainAt (by revert k; decide +kernel)

theorem PlainAt.effect_CORE_Ck_RING {k : Core} {r : RegAt} (h : PlainAt (A.CORE_Ck_RING k) .CORE_Ck_RING k r) (s : State)
    {x : RegWr} (hx : x.bit 0 = true) :
    s.regEffect (s.storeWord r (A.CORE_Ck_RING k) x) r (A.CORE_Ck_RING k) x =
      (s.storeWord r (A.CORE_Ck_RING k) x).setFld (F.CORE_Ck_EVT_PEND_RING k) 1 := by
  have hblock : A.CORE_Ck_RING k / 0x10000 = 13 := by
    unfold A.CORE_Ck_RING
    omega
  simp only [State.regEffect, hblock, State.coreEffect, h.name, asIdx_val _ h.idx, hx, if_true]

/-- RING makes the event of the core pending (R429). -/
theorem exec_ring {who : Writer} {k : Core} {s : State}
    (hs : s.Accepts (F.CORE_Ck_RING_RING k.val).addr (RegWr.field who (F.CORE_Ck_RING_RING k.val) 1)) :
    ∃ t : State, exec (.ring who k) s = .next (s.settled t) ∧ t.fld (F.CORE_Ck_EVT_PEND_RING k.val) = 1 ∧ t.cores = s.cores ∧
      s.RegsButFor t [A.CORE_Ck_RING k.val, A.CORE_Ck_EVT_PEND k.val] ∧ t.sram = s.sram ∧ t.kpr = s.kpr := by
  obtain ⟨r, h⟩ := exists_plainAt_CORE_Ck_RING k
  have hbit : ∀ i, (RegWr.field who (F.CORE_Ck_RING_RING k) 1).bit i = decide (i = 0) :=
    RegWr.field_one_bit who rfl rfl (by decide)
  obtain ⟨he, hframe⟩ := h.exec_effect (c := .ring who k) rfl hs (h.effect_CORE_Ck_RING s (hbit 0))
    ((h.touches_storeWord s _ (as := [A.CORE_Ck_RING k, A.CORE_Ck_EVT_PEND k]) List.mem_cons_self).setFld 1
      (List.mem_cons_of_mem _ List.mem_cons_self))
  have hblock : (F.CORE_Ck_EVT_PEND_RING k).addr / 0x10000 = 13 := by
    show A.CORE_Ck_EVT_PEND k / 0x10000 = 13
    unfold A.CORE_Ck_EVT_PEND
    omega
  refine ⟨_, he, ?_, (State.met_ok_cores _ _ _).trans (h.storeWord_cores s _), hframe⟩
  rw [State.met_ok_fld _ _ _ (ne_hostStatus_of_block hblock (by decide)),
    State.fld_setFld_same _ 1 (by simp [F.CORE_Ck_EVT_PEND_RING])]
  rfl

/-! ### Live service and the keeper -/

theorem exists_plainAt_LIVE_STAGE_CTRL : ∃ r, PlainAt A.LIVE_STAGE_CTRL .LIVE_STAGE_CTRL 0 r := exists_plainAt (by decide +kernel)

theorem PlainAt.effect_LIVE_STAGE_CTRL {r : RegAt} (h : PlainAt A.LIVE_STAGE_CTRL .LIVE_STAGE_CTRL 0 r) (s : State) {x : RegWr}
    (hx : x.bit 0 = true) : s.regEffect (s.storeWord r A.LIVE_STAGE_CTRL x) r A.LIVE_STAGE_CTRL x =
      (s.storeWord r A.LIVE_STAGE_CTRL x).setBit F.LIVE_STAGE_CTRL_VERIFY true := by
  show (s.storeWord r A.LIVE_STAGE_CTRL x).liveEffect r x = _
  simp only [State.liveEffect, h.name, hx, if_true]

/-- VERIFY reads 1 until C0 answers (R440). -/
theorem exec_verify {who : Writer} {s : State}
    (hs : s.Accepts F.LIVE_STAGE_CTRL_VERIFY.addr (RegWr.field who F.LIVE_STAGE_CTRL_VERIFY 1)) :
    ∃ t : State, exec (.verify who) s = .next (s.settled t) ∧ t.bit F.LIVE_STAGE_CTRL_VERIFY = true ∧ t.cores = s.cores ∧
      s.RegsButFor t [A.LIVE_STAGE_CTRL] ∧ t.sram = s.sram ∧ t.kpr = s.kpr := by
  obtain ⟨r, h⟩ := exists_plainAt_LIVE_STAGE_CTRL
  have hbit : ∀ i, (RegWr.field who F.LIVE_STAGE_CTRL_VERIFY 1).bit i = decide (i = 0) :=
    RegWr.field_one_bit who rfl rfl (by decide)
  obtain ⟨he, hframe⟩ := h.exec_effect (c := .verify who) rfl hs (h.effect_LIVE_STAGE_CTRL s (hbit 0))
    ((h.touches_storeWord s _ List.mem_cons_self).setBit true List.mem_cons_self)
  refine ⟨_, he, State.met_ok_bit_setBit _ _ _ (by decide) rfl rfl (by decide), ?_, hframe⟩
  exact (State.met_ok_cores _ _ _).trans (h.storeWord_cores s _)

theorem exists_plainAt_KPR_PROT : ∃ r, PlainAt A.KPR_PROT .KPR_PROT 0 r := exists_plainAt (by decide +kernel)

theorem PlainAt.effect_KPR_PROT {r : RegAt} (h : PlainAt A.KPR_PROT .KPR_PROT 0 r) (s : State) {x : RegWr}
    (hx : x.bit 2 = true) : s.regEffect (s.storeWord r A.KPR_PROT x) r A.KPR_PROT x =
      (s.storeWord r A.KPR_PROT x).setBit F.KPR_PROT_PROT_LOCK true := by
  show (s.storeWord r A.KPR_PROT x).kprEffect r.cls.name x = _
  simp only [State.kprEffect, h.name, hx, if_true]

/-- PROT_LOCK reads 1 (R392). -/
theorem exec_protLock {who : Writer} {s : State}
    (hs : s.Accepts F.KPR_PROT_PROT_LOCK.addr (RegWr.field who F.KPR_PROT_PROT_LOCK 1)) :
    ∃ t : State, exec (.protLock who) s = .next (s.settled t) ∧ t.bit F.KPR_PROT_PROT_LOCK = true ∧
      s.RegsButFor t [A.KPR_PROT] ∧ t.sram = s.sram ∧ t.kpr = s.kpr := by
  obtain ⟨r, h⟩ := exists_plainAt_KPR_PROT
  have hbit : ∀ i, (RegWr.field who F.KPR_PROT_PROT_LOCK 1).bit i = decide (i = 2) :=
    RegWr.field_one_bit who rfl rfl (by decide)
  obtain ⟨he, hframe⟩ := h.exec_effect (c := .protLock who) rfl hs (h.effect_KPR_PROT s (hbit 2))
    ((h.touches_storeWord s _ List.mem_cons_self).setBit true List.mem_cons_self)
  exact ⟨_, he, State.met_ok_bit_setBit _ _ _ (by decide) rfl rfl (by decide), hframe⟩

theorem exists_plainAt_KPR_STATUS : ∃ r, PlainAt A.KPR_STATUS .KPR_STATUS 0 r := exists_plainAt (by decide +kernel)

theorem PlainAt.effect_KPR_STATUS {r : RegAt} (h : PlainAt A.KPR_STATUS .KPR_STATUS 0 r) (s : State) {x : RegWr}
    (hx : x.bit 3 = true) : s.regEffect (s.storeWord r A.KPR_STATUS x) r A.KPR_STATUS x =
      (s.storeWord r A.KPR_STATUS x).modPower fun p => { p with holdup := false } := by
  show (s.storeWord r A.KPR_STATUS x).kprEffect r.cls.name x = _
  simp only [State.kprEffect, h.name, hx, if_true]

/-- HOLDUP_USED clears (R395). -/
theorem exec_holdupUsedClear {who : Writer} {s : State}
    (hs : s.Accepts F.KPR_STATUS_HOLDUP_USED.addr (RegWr.field who F.KPR_STATUS_HOLDUP_USED 1)) :
    ∃ t : State, exec (.holdupUsedClear who) s = .next (s.settled t) ∧ t.power.holdup = false ∧
      s.RegsButFor t [A.KPR_STATUS] ∧ t.sram = s.sram ∧ t.kpr = s.kpr := by
  obtain ⟨r, h⟩ := exists_plainAt_KPR_STATUS
  have hbit : ∀ i, (RegWr.field who F.KPR_STATUS_HOLDUP_USED 1).bit i = decide (i = 3) :=
    RegWr.field_one_bit who rfl rfl (by decide)
  obtain ⟨he, hframe⟩ := h.exec_effect (c := .holdupUsedClear who) rfl hs (h.effect_KPR_STATUS s (hbit 3))
    ((h.touches_storeWord s _ List.mem_cons_self).of_same rfl rfl rfl)
  exact ⟨_, he, by simp [State.modPower], hframe⟩

/-- Settles O11: each clause is its command's theorem. -/
theorem whatRegisterWritesDo : Obligations.WhatRegisterWritesDo := by
  unfold Obligations.WhatRegisterWritesDo
  exact ⟨fun _ _ => exec_loadAll, fun _ _ => exec_clrTrgDrop, fun _ _ _ => exec_swap, fun _ _ _ => exec_fbRet,
    fun _ _ _ => exec_vlkCntClr, fun _ _ _ => exec_hpCntClr, fun _ _ => exec_healthy, fun _ _ _ => exec_refSelWrite,
    fun _ _ _ _ => exec_kick, fun _ _ _ => exec_ring, fun _ _ => exec_verify, fun _ _ => exec_protLock,
    fun _ _ => exec_holdupUsedClear⟩

end Sys2Proof.Machine
end

section
/-!
Settling where nothing falls due (R37, R68, R370, R426): each of its stages leaves a quiet state as it is, and what
is then left of it, the notifies and attention pulses, writes only the ports' own records.
-/

namespace Sys2Proof.Machine

/-! ### The stages of settling -/

theorem State.Quiet.settleStart {t : State} (h : t.Quiet) : t.settleStart = t := by
  simp [State.settleStart, h.restart, h.attempt, h.start]

theorem State.Quiet.selectConv {t : State} (h : t.Quiet) : t.selectConv = t := by
  rcases h.conversion with hoff | hrun | ⟨hurgent, hstart⟩
  · simp [State.selectConv, hoff]
  · rw [State.selectConv, if_pos (by rw [hrun, Bool.or_true])]
  · simp [State.selectConv, hurgent, hstart]

theorem State.Quiet.settleVerify {t : State} (h : t.Quiet) : t.settleVerify = t := by
  simp [State.settleVerify, h.verify]

theorem State.Quiet.boundary {t : State} (h : t.Quiet) (k : Core) : t.boundary k = t := by
  have hwake : t.wakeCore k = t := by simp [State.wakeCore, h.wake k]
  have hbudget : t.takeBudget k = t := by simp [State.takeBudget, h.budget k]
  have hevent : t.takeEvent k = t := by simp [State.takeEvent, h.event k]
  rw [State.boundary, hwake, hbudget, hevent]

theorem State.Quiet.settleCores {t : State} (h : t.Quiet) : t.settleCores = t := by
  rw [State.settleCores, State.forAll_eq_self h.boundary, State.endApplet, h.applet]
  rfl

theorem State.Quiet.settleDomains {t : State} (h : t.Quiet) : t.settleDomains = t := by
  have hlt : ∀ d ∈ [1, 3, 5, 7, 8, 9, 10, 4, 11, 6], d < 12 := by decide
  refine List.foldlRecOn (motive := (· = t)) _ _ rfl fun u hu d hd => ?_
  subst hu
  have hwanted := h.domains d (hlt d hd)
  refine if_neg fun hdrop => ?_
  simp only [Bool.and_eq_true, Bool.not_eq_true'] at hdrop
  simp [hwanted hdrop.1] at hdrop

theorem State.Quiet.leaveEpr {t : State} (h : t.Quiet) (p : Port) : t.leaveEpr p = t := by
  refine if_pos ?_
  rcases h.epr p with hmode | hholds | hams | hc2
  · simp [hmode]
  · simp [hholds]
  · simp [hams]
  · simp [hc2]

theorem State.Quiet.offerAfterReset {t : State} (h : t.Quiet) (p : Port) : t.offerAfterReset p = t := by
  refine if_neg ?_
  rcases h.offer p with hc2 | hsource | hfets | hcaps | hcontract
  · simp [hc2]
  · simp [hsource]
  · simp [hfets]
  · simp [hcaps.ne']
  · simp [hcontract]

/-- With both buffers empty there is no message to take. -/
theorem State.takeMsg_of_empty {s : State} {p : Port} (f : PdType → Bool) (hrx : (s.port p).rx = [])
    (hprime : (s.port p).rxPrime = []) : s.takeMsg p f = none := by
  simp [State.takeMsg, hrx, hprime]

theorem State.drain_of_empty {s : State} {p : Port} (n : Nat) (hrx : (s.port p).rx = []) (hprime : (s.port p).rxPrime = []) :
    State.drain n p s = s := by
  cases n with
  | zero => rfl
  | succ n => simp [State.drain, State.takeMsg_of_empty _ hrx hprime]

theorem State.Quiet.settlePort {t : State} (h : t.Quiet) (p : Port) : t.settlePort p = t := by
  obtain ⟨hrx, hprime⟩ := h.messages p
  rw [State.settlePort, h.leaveEpr p, h.offerAfterReset p, State.drain_of_empty 6 hrx hprime]

theorem State.Quiet.settlePorts {t : State} (h : t.Quiet) : t.settlePorts = t := State.forAll_eq_self h.settlePort

theorem State.Quiet.settleInside {t : State} (h : t.Quiet) : t.settleInside = t := by
  refine State.forAll_eq_self fun l => if_neg ?_
  rcases h.inside l with hout | hcan
  · simp [hout]
  · simp [hcan]

/-- Of settling, a quiet state leaves the notifies and attention pulses. -/
theorem State.Quiet.settled {t : State} (h : t.Quiet) (s : State) : s.settled t = s.noteChange t := by
  rw [State.settled, h.settleStart, h.selectConv, h.settleVerify, h.settleCores, h.settleDomains, h.settlePorts,
    h.settleInside]

/-! ### Notifies and attention pulses (R175, R313) -/

/-- From t to u only the host ports' and link ports' own records change. -/
def State.OnlyPortRecords (t u : State) : Prop := ∃ hs ls, u = { t with hosts := hs, links := ls }

theorem State.OnlyPortRecords.noteView {t u : State} (h : t.OnlyPortRecords u) (s : State) (k : HostId) :
    t.OnlyPortRecords (s.noteView u k) := by
  obtain ⟨hs, ls, rfl⟩ := h
  unfold State.noteView
  split
  · exact ⟨_, ls, rfl⟩
  · exact ⟨hs, ls, rfl⟩

theorem State.OnlyPortRecords.noteAlerts {t u : State} (h : t.OnlyPortRecords u) (s : State) (v : Port) :
    t.OnlyPortRecords (s.noteAlerts u v) := by
  obtain ⟨hs, ls, rfl⟩ := h
  unfold State.noteAlerts
  split
  · exact ⟨hs, _, rfl⟩
  · exact ⟨hs, ls, rfl⟩

theorem State.noteChange_onlyPortRecords (s t : State) : t.OnlyPortRecords (s.noteChange t) := by
  have hviews : t.OnlyPortRecords ((upto 3).foldl (fun u k => s.noteView u k) t) :=
    List.foldlRecOn _ _ ⟨t.hosts, t.links, rfl⟩ fun _ hu k _ => hu.noteView s k
  exact List.foldlRecOn _ _ hviews fun _ hu v _ => hu.noteAlerts s v

/-- No bit of an n-bit number rises from the number to itself. -/
theorem and_two_pow_sub_one_sub_self {n x : Nat} (hx : x < 2 ^ n) : x &&& (2 ^ n - 1 - x) = 0 := by
  refine Nat.eq_of_testBit_eq fun i => ?_
  rw [Nat.sub_sub, Nat.add_comm 1 x, Nat.testBit_and, Nat.testBit_two_pow_sub_succ hx]
  cases x.testBit i <;> simp

theorem foldl_bits_lt (f : Nat → Bool) (n : Nat) :
    (List.range n).foldl (fun w g => w + (f g).toNat * 2 ^ g) 0 < 2 ^ n := by
  induction n with
  | zero => simp
  | succ n ih =>
    have hbit : (f n).toNat * 2 ^ n ≤ 1 * 2 ^ n := Nat.mul_le_mul_right _ (Bool.toNat_le (f n))
    rw [List.range_succ, List.foldl_append, List.foldl_cons, List.foldl_nil]
    omega

theorem groupBits_lt (f : Nat → Bool) : groupBits f < 2 ^ 16 := by
  unfold groupBits
  exact foldl_bits_lt f 16

theorem State.view_risen_self (t : State) (k : Nat) : t.view k &&& (65535 - t.view k) = 0 := by
  unfold State.view
  exact and_two_pow_sub_one_sub_self (n := 16) (groupBits_lt _)

theorem State.alertPending_risen_self (t : State) (v : Port) (k : Fin 2) :
    t.alertPending v k &&& (127 - t.alertPending v k) = 0 :=
  and_two_pow_sub_one_sub_self (n := 7) (Nat.and_lt_two_pow _ (t.fld_lt (F.VLK_n_CFG_ATTN_MASK v)))

theorem State.noteView_self (t : State) (k : HostId) : t.noteView t k = t := by
  rw [State.noteView, t.view_risen_self k]
  rfl

theorem State.noteAlerts_self (t : State) (v : Port) : t.noteAlerts t v = t := by
  simp [State.noteAlerts, t.alertPending_risen_self v]

theorem State.noteChange_self (t : State) : t.noteChange t = t := by
  rw [State.noteChange, List.foldl_fixed' t.noteView_self, List.foldl_fixed' t.noteAlerts_self]

/-- Settles O7: a quiet state passes every stage of settling as it is, and the notes write the ports' records alone, where a
view or an alert has risen. -/
theorem settlingWhenNothingIsDue : Obligations.SettlingWhenNothingIsDue := by
  unfold Obligations.SettlingWhenNothingIsDue
  exact ⟨fun s t h => h.settled s, State.noteChange_onlyPortRecords, State.noteChange_self⟩

end Sys2Proof.Machine
end

section
/-!
The commands of chapter 01: what each leaves where its condition holds, and what the pins of a domain that is off hold (R39).
-/

namespace Sys2Proof.Machine

/-! ### Rows that are one operation of the model -/

section
variable {s : State}

theorem exec_houseInputGood (src : Fin 5) (h : s.bit F.SUPPLY_STATUS_HOUSE_OK = false) :
    exec (.houseInputGood src) s = .next (s.settled (s.houseGood src.val)) :=
  State.watch_onlyIf (fun s => s.houseGood src.val) (by simp [h])

theorem exec_houseInputFail (fast : Bool) (h : s.bit F.SUPPLY_STATUS_HOUSE_OK = true) :
    exec (.houseInputFail fast) s = .next (s.settled (s.houseFail fast)) :=
  State.watch_onlyIf (fun s => s.houseFail fast) h

theorem exec_d0Reset (h : s.bit F.SUPPLY_STATUS_HOUSE_OK = false) : exec .d0Reset s = .next (s.settled s.d0Reset) :=
  State.watch_onlyIf State.d0Reset (by simp [h])

theorem exec_supplyLoss (m : FullSupply) (hok : s.bit F.SUPPLY_STATUS_HOUSE_OK = true) (hfull : s.fullOp = true) :
    exec (.supplyLoss m) s = .next (s.settled (s.supplyLoss m)) :=
  State.watch_onlyIf (fun s => s.supplyLoss m) (by simp [hok, hfull])

theorem exec_vconnInBad (h : s.bit F.SUPPLY_STATUS_VCONN_IN_OK = true) : exec .vconnInBad s = .next (s.settled s.vconnBad) :=
  State.watch_onlyIf State.vconnBad h

theorem exec_resetnLow (hup : s.power.d0Up = true) (hhigh : s.power.resetnLow = false) :
    exec .resetnLow s = .next (s.settled s.resetnFall) :=
  State.watch_onlyIf State.resetnFall (by simp [hup, hhigh])

theorem exec_clockMonitorTrip (hdom : s.domOn 9 = true) (hlock : s.bit F.CLK_STATUS_PLL_LOCK = true) :
    exec .clockMonitorTrip s = .next (s.settled s.clockTrip) :=
  State.watch_onlyIf State.clockTrip (by simp [hdom, hlock])

theorem exec_domainPowerUp {d : Dom} (h0 : d.val ≠ 0) (hwanted : s.domWanted d.val = true) (hoff : s.domOn d.val = false)
    (hneeds : (d.val ≤ 2 || s.domOn 2) = true) : exec (.domainPowerUp d) s = .next (s.settled (s.domainUp d.val)) :=
  State.watch_onlyIf (fun s => s.domainUp d.val) (by simp [h0, hwanted, hoff, hneeds])

end

/-! ### Supplies (R26, R29, R46) -/

theorem State.noteSrc_of_houseOk {s : State} (h : s.bit F.SUPPLY_STATUS_HOUSE_OK = true) (src : Nat) :
    s.noteSrc src = s.setFld F.SUPPLY_STATUS_HOUSE_SRC src := if_pos h

/-- A monitor that reads as before only moves HOUSE_SRC. -/
theorem exec_supplyMonitorChange_same {m : Monitor} {good : Bool} (hi : Bool) (src : Fin 5) {s : State}
    (h : s.bit (monitorFld m) = good) :
    exec (.supplyMonitorChange m good hi src) s = .next (s.settled (s.noteSrc src.val)) := by
  show s.watch (doSupplyMonitorChange m good hi src s) = _
  simp only [doSupplyMonitorChange, if_pos h, State.watch]

theorem exec_supplyMonitorChange_of_ne {m : Monitor} {good : Bool} (hi : Bool) (src : Fin 5) {s : State}
    (h : s.bit (monitorFld m) ≠ good) : exec (.supplyMonitorChange m good hi src) s =
      .next (s.settled ((s.noteSrc src.val).monitorChange m good hi)) := by
  show s.watch (doSupplyMonitorChange m good hi src s) = _
  simp only [doSupplyMonitorChange, if_neg h, State.watch]

/-- A supply without an IO bank's level becomes good: full operation may begin (R26, R28). -/
theorem State.monitorChange_good_of_noBank {m : Monitor} (hm : m = .vdda ∨ m = .vddCore) (s : State) (hi : Bool) :
    s.monitorChange m true hi = (s.setBit (monitorFld m) true).enterFull s.fullOp := by
  rcases hm with rfl | rfl <;> rfl

/-! ### Wakes (R42, R53) -/

/-- In dormant a wake bit is recorded, and dormant is left with SEQ_SYNC held low (R42, R288; log 50). -/
theorem State.wakeBit_of_dormant {s : State} (h : s.power.dormant = true) (f : Fld) : s.wakeBit f = (s.setFld f 1).wakeUp :=
  if_pos h

theorem State.wakeBy_of_dormant {s : State} {bit : Nat} (h : s.power.dormant = true)
    (hcfg : s.bit ⟨A.WAKE_CFG, bit, 1⟩ = true) : s.wakeBy bit = (s.setFld ⟨A.WAKE_CAUSE, bit, 1⟩ 1).wakeUp := by
  rw [State.wakeBy, if_pos hcfg, State.wakeBit_of_dormant h]

theorem exec_attachWatchDetect {p : Port} {s : State} (h : s.power.dormant = true)
    (hwatch : s.fld ⟨A.DORMANT_CFG, 2 * p.val, 2⟩ ≠ 0) (hcfg : s.bit ⟨A.WAKE_CFG, p.val, 1⟩ = true) :
    exec (.attachWatchDetect p) s = .next (s.settled ((s.setFld ⟨A.WAKE_CAUSE, p.val, 1⟩ 1).wakeUp)) := by
  have hwatches : s.watches p = true := by simp [State.watches, State.watchOf, h, hwatch]
  show s.watch (s.onlyIf (s.watches p) fun s => s.wakeBy p.val) = _
  rw [State.watch_onlyIf _ hwatches, State.wakeBy_of_dormant h hcfg]

/-- The sources that WAKE_CFG enables, but for the timer. -/
theorem exec_wake {src : WakeSrc} {s : State} (hresetn : src ≠ .resetn) (htimer : src ≠ .timer)
    (h : s.power.dormant = true) (hcan : s.canWake src = true) (hcfg : s.bit ⟨A.WAKE_CFG, wakeSrcBit src, 1⟩ = true) :
    exec (.wake src) s = .next (s.settled ((s.setFld ⟨A.WAKE_CAUSE, wakeSrcBit src, 1⟩ 1).wakeUp)) := by
  show s.watch (doWake src s) = _
  rw [doWake, State.watch_onlyIf _ hcan]
  cases src with
  | resetn => exact absurd rfl hresetn
  | timer => exact absurd rfl htimer
  | cc p | vbus p | tw k | sync | vin => rw [← State.wakeBy_of_dormant h hcfg]

theorem exec_wake_resetn {s : State} (h : s.power.dormant = true) :
    exec (.wake .resetn) s = .next (s.settled ((s.setFld ⟨A.WAKE_CAUSE, 14, 1⟩ 1).wakeUp)) := by
  show s.watch (s.onlyIf true fun s => s.wakeBit ⟨A.WAKE_CAUSE, 14, 1⟩) = _
  rw [State.watch_onlyIf _ rfl, State.wakeBit_of_dormant h]

theorem exec_wakeTimer {s : State} (harmed : s.power.timerArmed = true) (h : s.power.dormant = true)
    (hcfg : s.bit ⟨A.WAKE_CFG, 12, 1⟩ = true) : exec .wakeTimer s = .next (s.settled
      (((s.modPower fun p => { p with timerArmed := false }).setFld ⟨A.WAKE_CAUSE, 12, 1⟩ 1).wakeUp)) := by
  have hexpires : s.timerExpires = (State.setFld (s.modPower fun p => { p with timerArmed := false })
      ⟨A.WAKE_CAUSE, 12, 1⟩ 1).wakeUp :=
    State.wakeBy_of_dormant (s := s.modPower fun p => { p with timerArmed := false }) h hcfg
  show s.watch (s.onlyIf s.power.timerArmed fun s => s.timerExpires) = _
  rw [State.watch_onlyIf _ harmed, hexpires]

/-! ### Pins of a domain that is off (R39) -/

/-- A rail channel's pin is at mid-level while its domain is off. -/
theorem State.pin_of_domain_off {s : State} {n : Chan} (hrail : isRail n = true) (h : s.domOn (chanDom n) = false) :
    s.pin n = 2 := by
  simp [State.pin, State.pinAt, h, hrail]

theorem State.signal_of_domain_off (s : State) (source : Bool) :
    (∀ n : Fin 24, s.domOn (chanDom ⟨n.val, by omega⟩) = false → s.bit F.SUPPLY_STATUS_VDDIO_A_OK = true →
      s.signal source (.pwm n) = .mid)
    ∧ (∀ k : Fin 8, s.domOn 9 = false → s.bit F.SUPPLY_STATUS_VDDIO_A_OK = true → s.signal source (.stgEn k) = .low)
    ∧ (∀ n : Fin 28, s.domOn 2 = false → s.bit F.SUPPLY_STATUS_VDDIO_B_OK = true → s.signal source (.seqEn n) = .low)
    ∧ (∀ p : Port, s.domOn 10 = false → s.signal source (.gate p) = .atSource ∧ s.signal source (.dschg p) = .released) := by
  refine ⟨fun n h hbank => ?_, fun k h hbank => ?_, fun n h hbank => ?_, fun p h => ⟨?_, ?_⟩⟩
  · have hpin := State.pin_of_domain_off (n := ⟨n.val, by omega⟩) (decide_eq_true n.isLt) h
    simp [State.signal, State.onBankA, hbank, hpin]
  · simp [State.signal, State.onBankA, hbank, h, levelOf]
  · simp [State.signal, State.onBankB, hbank, h, levelOf]
  · simp [State.signal, h]
  · simp [State.signal, h]

/-- Settles O14: each row is its operation where its condition holds; monitors, wakes and pins have theorems of their own. -/
theorem supplyAndClockCommandsComplete : Obligations.SupplyAndClockCommandsComplete := by
  unfold Obligations.SupplyAndClockCommandsComplete
  refine ⟨fun src s => exec_houseInputGood src, fun fast s => exec_houseInputFail fast,
    fun s h => ⟨s.d0Reset, exec_d0Reset h, rfl, rfl, rfl, rfl, rfl, rfl, rfl⟩,
    fun p good hi src s hok hne => ?_, fun m hi src s hm hok hbad => ?_,
    fun m good hi src s => exec_supplyMonitorChange_of_ne hi src, fun m good hi src s => exec_supplyMonitorChange_same hi src,
    fun s h => ?_, fun m s => exec_supplyLoss m, fun s => exec_vconnInBad, fun s => exec_resetnLow, fun s h => ?_,
    fun high s => rfl, fun s hxtal hslow => ?_, fun s h => ?_, fun hz s h => ?_, fun s h => ?_, fun s hwanted hlock => ?_,
    fun s => exec_clockMonitorTrip, fun d s => exec_domainPowerUp, fun p s => exec_attachWatchDetect,
    fun src s => exec_wake, fun s => exec_wake_resetn, fun s harmed h hcfg => ⟨exec_wakeTimer harmed h hcfg, rfl⟩,
    State.signal_of_domain_off⟩
  · rw [exec_supplyMonitorChange_of_ne hi src hne, State.noteSrc_of_houseOk hok]
    rfl
  · have hne : s.bit (monitorFld m) ≠ true := by simp [hbad]
    rw [exec_supplyMonitorChange_of_ne hi src hne, State.noteSrc_of_houseOk hok, State.monitorChange_good_of_noBank hm]
  · show s.watch (doVddCoreQualified s) = _
    rw [doVddCoreQualified, State.watch_onlyIf _ h]
  · show s.watch (doResetnRise s) = _
    rw [doResetnRise, State.watch_onlyIf _ h]
  · show s.watch (doCrystalQualified s) = _
    rw [doCrystalQualified, State.watch_onlyIf _ (by simp [hxtal, hslow])]
  · show s.watch (doXtalFail s) = _
    rw [doXtalFail, State.watch_onlyIf _ h]
  · show s.watch (doSyncSeenRise hz s) = _
    rw [doSyncSeenRise, State.watch_onlyIf _ (by simp [h])]
  · show s.watch (doSyncLost s) = _
    rw [doSyncLost, State.watch_onlyIf _ h]
  · show s.watch (doPllLock s) = _
    rw [doPllLock, State.watch_onlyIf _ (by simp [hwanted, hlock])]

end Sys2Proof.Machine
end

section
/-!
The start sequence (chapter 02): what each of its commands leaves where its condition holds.
-/

namespace Sys2Proof.Machine

/-! ### The keeper read (R470) -/

theorem State.detectFull_boot (s : State) : s.detectFull.boot = s.boot := by
  unfold State.detectFull
  split
  · rfl
  · rfl

theorem State.keeperRead_kprRead (s : State) : s.keeperRead.boot.kprRead = true := by
  unfold State.keeperRead
  rw [State.detectFull_boot]
  rfl

theorem exec_keeperRead {s : State} (h1 : s.domOn 1 = true) (h2 : s.domOn 2 = true) (hread : s.boot.kprRead = false) :
    exec .keeperRead s = .next (s.settled s.keeperRead) :=
  State.watch_onlyIf State.keeperRead (by simp [h1, h2, hread])

/-! ### The begin of an attempt (R54) -/

/-- START_ATTEMPT_BEGIN counts after the keeper read, in PHASE 0 or 1, while no attempt, seedling mode or restart is under
way; the start record has not to be read again. -/
structure State.BeforeAttempt (s : State) : Prop where
  kprRead : s.boot.kprRead = true
  phase : s.phaseNo ≤ 1
  attempt : s.boot.attempt = false
  seedling : s.seedling = false
  restart : s.boot.restart = false
  reread : s.boot.reread = false

theorem State.BeforeAttempt.exec_startAttemptBegin {s : State} (h : s.BeforeAttempt) :
    exec .startAttemptBegin s = .next (s.settled s.startOrSeedling) :=
  State.watch_onlyIf State.startOrSeedling (by simp [h.kprRead, h.phase, h.attempt, h.seedling, h.restart])

/-- At the limit seedling mode follows, whatever the supplies (R54, R73). -/
theorem State.startOrSeedling_of_limit {s : State} (hreread : s.boot.reread = false) (hlimit : s.limit ≤ s.boot.record.fails) :
    s.startOrSeedling = s.enterSeedling := by
  simp [State.startOrSeedling, hreread, hlimit]

/-- Below the limit an attempt begins in full operation, outside the hold of a thermal shutdown (R54, R72). -/
theorem State.startOrSeedling_of_fullOp {s : State} (hreread : s.boot.reread = false)
    (hlimit : s.boot.record.fails < s.limit) (hfull : s.fullOp = true) (hhold : s.bit F.THM_STATUS_SHUT_HOLD = false) :
    s.startOrSeedling = s.beginAttempt := by
  simp [State.startOrSeedling, hreread, hlimit, hfull, hhold]

/-! ### The attempt (R57, R62, R69) -/

section
variable {s : State}

theorem exec_flashProbeDone (x : Option Sfdp) (hattempt : s.boot.attempt = true) (hphase : s.phaseNo = 2) :
    exec (.flashProbeDone x) s = .next (s.settled (s.flashProbe x)) :=
  State.watch_onlyIf (fun s => s.flashProbe x) (by simp [hattempt, hphase])

/-- A flash without 1-1-4 reads is not set to quad mode: the headers of both slots are read next (R57, R58). -/
theorem State.flashProbe_of_noQuad {x : Sfdp} (hquad : x.quad = none) : s.flashProbe (some x) =
    ((((s.probeCmds).modBoot fun b => { b with flash := some x }).setPhase 3).readFlash 0 0x100).readFlash 0x180000 0x100 := by
  simp [State.flashProbe, hquad]

theorem exec_candidateReadDone {slotB : Bool} {img : List Byte} {other : Option Nat} (hattempt : s.boot.attempt = true)
    (hphase : s.phaseNo = 3) (horder : s.inOrder slotB img other = true) :
    exec (.candidateReadDone slotB img other) s = .next (s.settled (s.candidate slotB img other)) :=
  State.watch_onlyIf (fun s => s.candidate slotB img other) (by simp [hattempt, hphase, horder])

theorem exec_startTimeout (hattempt : s.boot.attempt = true) (htimeout : s.boot.timeout.isSome = true)
    (hphase : s.phaseNo = 7) : exec .startTimeout s = .next (s.settled (s.failAttempt s.timeoutCode)) :=
  State.watch_onlyIf (fun s => s.failAttempt s.timeoutCode) (by simp [hattempt, htimeout, hphase])

theorem exec_retryDelayEnd (hphase : s.phaseNo = 10) (hrestart : s.boot.restart = false) :
    exec .retryDelayEnd s = .next (s.settled s.retryEnd) :=
  State.watch_onlyIf State.retryEnd (by simp [hphase, hrestart])

/-- A flash transfer that is under way ends (R83). -/
theorem exec_flashXferDone {x : FlashXfer} (data : List Byte) (hxfer : s.boot.xfer = some x) :
    exec (.flashXferDone data) s = .next (s.settled (s.xferDone x data)) := by
  show s.watch (doFlashXferDone data s) = _
  rw [doFlashXferDone, hxfer]
  rfl

end

/-- Settles O15: each row is its operation where its condition holds; the begin of an attempt and the probe's end have
theorems that say which case of the operation the condition leaves. -/
theorem startCommandsComplete : Obligations.StartCommandsComplete := by
  unfold Obligations.StartCommandsComplete
  refine ⟨fun s h1 h2 hread => ⟨exec_keeperRead h1 h2 hread, s.keeperRead_kprRead⟩,
    fun s hkpr hphase hattempt hseed hrestart hreread hlimit => ?_,
    fun s hkpr hphase hattempt hseed hrestart hreread hlimit hfull hhold => ?_,
    fun x s hattempt hphase hquad => ?_, fun x s => exec_flashProbeDone x,
    fun slotB img other s => exec_candidateReadDone, fun s => exec_startTimeout, fun s => exec_retryDelayEnd,
    fun data x s => exec_flashXferDone data⟩
  · have hbefore : s.BeforeAttempt := ⟨hkpr, hphase, hattempt, hseed, hrestart, hreread⟩
    rw [hbefore.exec_startAttemptBegin, State.startOrSeedling_of_limit hreread hlimit]
  · have hbefore : s.BeforeAttempt := ⟨hkpr, hphase, hattempt, hseed, hrestart, hreread⟩
    rw [hbefore.exec_startAttemptBegin, State.startOrSeedling_of_fullOp hreread hlimit hfull hhold]
  · rw [exec_flashProbeDone (some x) hattempt hphase, State.flashProbe_of_noQuad hquad]

end Sys2Proof.Machine
end

section
/-!
SRAM as a core meets it (R61, R415, R417): a word stored, the word loaded after it, its parity, and what the store leaves.
-/

namespace Sys2Proof.Machine

/-! ### Words as bytes -/

/-- Little-endian bytes give the word back (R16). -/
theorem leNat_wordBytes (v : Word) : leNat (wordBytes v) = v.toNat := by
  have hv := v.isLt
  simp only [leNat, wordBytes, List.foldr_cons, List.foldr_nil, BitVec.extractLsb'_toNat, Nat.shiftRight_eq_div_pow]
  omega

/-- Bytes that lie in a memory from `a` on are read from there. -/
theorem bytesAt_of_getD {f : Nat → Byte} {a : Nat} {bs : List Byte} (h : ∀ i < bs.length, f (a + i) = bs.getD i 0) :
    bytesAt f a bs.length = BitVec.ofNat 32 (leNat bs) := by
  have hmap : ((List.range bs.length).map fun i => f (a + i)) = bs := by
    refine List.ext_getElem (by simp) fun i hi _ => ?_
    have hlt : i < bs.length := by simpa using hi
    simp [h i hlt, hlt]
  rw [bytesAt, hmap]

theorem Mem.bytesAt_setBytes_wordBytes (d : Nat → Byte) (m : Mem 8) (a : Nat) (v : Word) :
    bytesAt ((m.setBytes d a (wordBytes v)).get d) a 4 = v := by
  have hbytes : ∀ i < (wordBytes v).length, (m.setBytes d a (wordBytes v)).get d (a + i) = (wordBytes v).getD i 0 :=
    fun i hi => by
      rw [Mem.get_setBytes, if_pos ⟨Nat.le_add_right a i, Nat.add_lt_add_left hi a⟩, Nat.add_sub_cancel_left]
  refine (bytesAt_of_getD hbytes).trans ?_
  rw [leNat_wordBytes, BitVec.ofNat_toNat, BitVec.setWidth_eq]

/-! ### Stores to a bank that is on -/

theorem State.setSramBytes_sram (s : State) (a : Nat) (bs : List Byte) :
    (s.setSramBytes a bs).sram = s.sram.setBytes sramDefault a bs := rfl

/-- A word that is written gets good parity (R61). -/
theorem State.sramBad_setSramBytes (s : State) (a : Nat) {bs : List Byte} (hlen : 0 < bs.length) :
    (s.setSramBytes a bs).sramBad.contains a = false := by
  simp only [State.setSramBytes, List.contains_eq_mem, decide_eq_false_iff_not, List.mem_filter]
  rintro ⟨-, hkept⟩
  simp [hlen] at hkept

theorem State.sramStore_of_noMirror {s : State} {a : Nat} (h : s.mirrorOf a = none) (bs : List Byte) :
    s.sramStore a bs = s.setSramBytes a bs := by
  simp [State.sramStore, h]

theorem regionOf_sram {off : Nat} (h : off < 0x200000) : regionOf (0x20000000 + off) = .sram off := by
  unfold regionOf
  rw [if_neg (by omega), if_neg (by omega), if_pos (by omega), Nat.add_sub_cancel_left]

theorem State.addressCheck_aligned {s : State} {k : Core} {a n : Nat} (happ : s.inApp k = false) (h : a % n = 0) :
    s.addressCheck k a n = none := by
  simp [State.addressCheck, happ, h]

section
variable {s : State} {k : Core} {off : Nat} (happ : s.inApp k = false) (hlt : off < 0x200000) (halign : off % 4 = 0)
  (hon : s.sramOn off = true)
include happ hlt halign hon

/-- A word is stored in one cycle, at once (R417; log 48). -/
theorem State.storeAt_sram_word (v : Word) : s.storeAt k (0x20000000 + off) 4 v = .done 0 1 (s.sramStore off (wordBytes v)) := by
  unfold State.storeAt
  rw [State.addressCheck_aligned happ (by omega), regionOf_sram hlt]
  simp [hon, lowBytes, wordBytes]

/-- A word of good parity is loaded in two cycles (R415, R417). -/
theorem State.loadAt_sram_word (hgood : s.sramBad.contains off = false) :
    s.loadAt k (0x20000000 + off) 4 false = .done (bytesAt (s.sram.get sramDefault) off 4) 2 s := by
  have hword : off / 4 * 4 = off := Nat.div_mul_cancel (Nat.dvd_of_mod_eq_zero halign)
  have hread : s.sramRead off false = ⟨true, 0, s⟩ := if_pos (by rw [hgood]; rfl)
  unfold State.loadAt
  rw [State.addressCheck_aligned happ (by omega), regionOf_sram hlt]
  simp [hon, hword, hread]

end

/-- Settles O53: the store is `State.setSramBytes`, so each part is a fact of it: the load finds the bytes written, their
parity is good, and `Mem.get_setBytes` gives the bytes beside them. One cycle and two, and a store that every core sees at
once, are the model's reading (log 48). -/
theorem sramReadsWhatWasStored : Obligations.SramReadsWhatWasStored := by
  unfold Obligations.SramReadsWhatWasStored
  intro s k j off v hwf hlt halign hon hk hj hmirror
  have hgood := s.sramBad_setSramBytes off (bs := wordBytes v) (by decide : 0 < 4)
  refine ⟨s.setSramBytes off (wordBytes v), ?_, ?_, hgood, Mem.setBytes_wf off _ hwf, fun b hb => ?_, rfl, rfl⟩
  · rw [State.storeAt_sram_word hk hlt halign hon, State.sramStore_of_noMirror hmirror]
  · rw [State.loadAt_sram_word (s := s.setSramBytes off (wordBytes v)) hj hlt halign hon hgood, State.setSramBytes_sram,
      Mem.bytesAt_setBytes_wordBytes]
  · have hbeside : ¬(off ≤ b ∧ b < off + (wordBytes v).length) := by
      simp only [wordBytes, List.length_cons, List.length_nil]
      omega
    rw [State.setSramBytes_sram, Mem.get_setBytes, if_neg hbeside]

end Sys2Proof.Machine
end

section
/-!
The commands of the pulse engine (chapter 03): what each leaves where its condition holds.
-/

namespace Sys2Proof.Machine

section
variable {s : State}

/-! ### Frames, valleys and peaks (R96, R97, R106) -/

theorem exec_masterValley (late : Nat) (loadLate faultnHigh : Bool) (h : s.engine.timebase = true) :
    exec (.masterValley late loadLate faultnHigh) s =
      .next (s.settled (((s.masterValley late loadLate faultnHigh).retireValley).retrimValley)) :=
  State.watch_onlyIf (fun s => ((s.masterValley late loadLate faultnHigh).retireValley).retrimValley) h

theorem exec_valley {n : Chan} (h : s.chanRun n = true) : exec (.valley n) s = .next (s.settled (s.valley n)) :=
  State.watch_onlyIf (fun s => s.valley n) h

theorem exec_peak {n : Chan} (h : s.chanRun n = true) : exec (.peak n) s = .next (s.settled (s.peak n)) :=
  State.watch_onlyIf (fun s => s.peak n) h

/-! ### Triggers (R101, R102) -/

/-- A trigger fires in the half that its DIR selects, whatever its VALUE. -/
theorem exec_triggerFire {n : Chan} {k : Fin 4} (x : Int) (hrun : s.chanRun n = true)
    (hdir : s.afld (F.PE_CHn_TRGk_DIR n k) ≠ 0)
    (hhalf : dirMatches (s.afld (F.PE_CHn_TRGk_DIR n k)) (s.bit (F.PE_CHn_POS_DOWN n)) = true) :
    exec (.triggerFire n k x) s = .next (s.settled (s.triggerFire n k x)) :=
  State.watch_onlyIf (fun s => s.triggerFire n k x) (by simp [hrun, hdir, hhalf])

/-- To the window ADC, the trigger of an active member marks a sample of its loop. -/
theorem State.triggerFire_window {n : Chan} {k : Fin 4} {l : Loop} (x : Int)
    (hdest : s.afld (F.PE_CHn_TRGk_DEST n k) = 1) (hloop : s.chanLoop n = some l)
    (hmember : (s.loop l).order.contains n = true) : s.triggerFire n k x =
      (s.modLoop l fun q => { q with mark := some (BitVec.ofNat 10 (s.windowCode l x)), vs := x }).windowSat l
        [s.windowCode l x] := by
  rw [State.triggerFire, if_pos hdest, hloop]
  exact if_neg (by rw [hmember]; decide)

/-- To a current ADC, the trigger captures a sample unless the channel holds one: then it is dropped and counted. -/
theorem State.triggerFire_current {n : Chan} {k : Fin 4} (x : Int) (hdest : s.afld (F.PE_CHn_TRGk_DEST n k) = 0) :
    s.triggerFire n k x = if (s.chan n).held.isSome then (s.satInc ⟨A.PE_TRG_DROP, 8 * (adcOf n).val, 8⟩).raise 0 13
      else (s.modChan n fun c => { c with held := some (BitVec.ofNat 12 (clamp x 0 4095).toNat) }).modEngine fun e =>
        { e with adc := e.adc.set (adcOf n).val (e.adc[adcOf n] ++ [n]) (adcOf n).isLt } :=
  if_neg (by simp [hdest])

/-! ### Calibration and safe states (R112, R114) -/

theorem exec_delayLineCalDone {h : Half} (code : BitVec 10) (hdom : s.domOn (halfDom h) = true)
    (hok : s.bit (halfOk h) = false) : exec (.delayLineCalDone h code) s =
      .next (s.settled ((s.setBit (halfOk h) true).setFld (halfCode h) code.toNat)) :=
  State.watch_onlyIf (fun s => (s.setBit (halfOk h) true).setFld (halfCode h) code.toNat) (by simp [hdom, hok])

theorem exec_engineFreeze (hopen : s.debugOpen = true) (hdom : s.domOn 9 = true) :
    exec .engineFreeze s = .next (s.settled ((s.setBit F.PE_STATUS_FROZEN true).allNeedLoad)) :=
  State.watch_onlyIf (fun s => (s.setBit F.PE_STATUS_FROZEN true).allNeedLoad) (by simp [hopen, hdom])

theorem exec_freezeEnd (h : s.bit F.PE_STATUS_FROZEN = true) :
    exec .freezeEnd s = .next (s.settled ((s.setBit F.PE_STATUS_FROZEN false).allNeedLoad)) :=
  State.watch_onlyIf (fun s => (s.setBit F.PE_STATUS_FROZEN false).allNeedLoad) h

end

/-- Settles O16: each row is its operation where its condition holds; the two destinations of a trigger have theorems of
their own, and CURRENT_CONVERSION_DONE and FAULTN_LOW have no condition. -/
theorem engineCommandsComplete : Obligations.EngineCommandsComplete := by
  unfold Obligations.EngineCommandsComplete
  refine ⟨fun late loadLate faultnHigh s => exec_masterValley late loadLate faultnHigh, fun n s => exec_valley,
    fun n s => exec_peak, fun n k x l s hrun hdir hhalf hdest hloop hmember => ?_,
    fun n k x s hrun hdir hhalf hdest => ?_, fun adc s => rfl, fun h code s => exec_delayLineCalDone code,
    fun s => exec_engineFreeze, fun s => rfl, fun s => exec_freezeEnd⟩
  · rw [exec_triggerFire x hrun hdir hhalf, State.triggerFire_window x hdest hloop hmember]
  · rw [exec_triggerFire x hrun hdir hhalf, State.triggerFire_current x hdest]

end Sys2Proof.Machine
end

section
/-!
The commands of the rail loops (chapter 04) and of their protection (chapter 06): what each leaves where its condition
holds. The choices of the log on which they rest are named where they enter: log 65 and log 95.
-/

namespace Sys2Proof.Machine

section
variable {s : State}

/-! ### The compensator and the reference (R126, R130, R138) -/

/-- A turning point of an active member of a digital loop brings an update. -/
theorem exec_compensatorUpdate {n : Chan} {l : Loop} (vs : Vector Int 8) (shunt : Int) (hloop : s.chanLoop n = some l)
    (hdigital : s.digital l = true) (hactive : (s.loop l).order.contains n = true) :
    exec (.compensatorUpdate n vs shunt) s = .next (s.settled (s.compUpdate l n vs shunt)) := by
  show s.watch (doCompensatorUpdate n vs shunt s) = _
  rw [doCompensatorUpdate, hloop]
  exact State.watch_onlyIf (fun s => s.compUpdate l n vs shunt) (by rw [hdigital, hactive]; rfl)

theorem exec_referenceStep (l : Loop) (s : State) : exec (.referenceStep l) s = .next (s.settled (s.refStep l)) := rfl

/-- In regulation the reference moves one step toward its target (R126). -/
theorem State.refStep_of_regulation {l : Loop} (h : s.loopSt l = 3) :
    s.refStep l = s.setRef l (toward (s.refNow l) (s.refTarget l)) := by
  simp [State.refStep, h]

/-- On the fallback loop the reference stands (R149, R168; log 65). -/
theorem State.refStep_of_fallback {l : Loop} (h : s.loopSt l = 5) : s.refStep l = s := by
  simp [State.refStep, h]

theorem exec_prebiasDone {l : Loop} (uv : Nat) (selfTest : Bool) (hst : (s.loopSt l == 1 || s.loopSt l == 2) = true)
    (hhiccup : s.bit (F.PROT_Ln_STATUS_HICCUP l) = false) (hmeasured : (s.loop l).measured = false) :
    exec (.prebiasDone l uv selfTest) s = .next (s.settled (s.prebiasDone l uv selfTest)) :=
  State.watch_onlyIf (fun s => s.prebiasDone l uv selfTest) (by rw [hst, hhiccup, hmeasured]; rfl)

theorem exec_rampStart {l : Loop} (hst : s.loopSt l = 1) (hhiccup : s.bit (F.PROT_Ln_STATUS_HICCUP l) = false)
    (htest : (s.loop l).cmpFail = false) : exec (.rampStart l) s = .next (s.settled ((s.setLoopSt l 2).rampAt l)) :=
  State.watch_onlyIf (fun s => (s.setLoopSt l 2).rampAt l) (by rw [hst, hhiccup, htest]; rfl)

theorem exec_settledRise {l : Fin 8} (hst : s.loopSt (railLoop l) = 3)
    (href : s.refNow (railLoop l) = s.refTarget (railLoop l)) (hlow : s.bit (F.LP_Ln_STATUS_SETTLED l) = false)
    (hband : s.inBand (railLoop l) = true) :
    exec (.settledRise l) s = .next (s.settled (s.settledRise (railLoop l))) :=
  State.watch_onlyIf (fun s => s.settledRise (railLoop l)) (by simp [hst, href, hlow, hband])

/-! ### Stopping (R140) -/

theorem exec_stopLowEnd {l : Fin 8} (h : (s.loop (railLoop l)).stopLow = true) :
    exec (.stopLowEnd l) s = .next (s.settled (s.stopMid (railLoop l))) :=
  State.watch_onlyIf (fun s => s.stopMid (railLoop l)) h

theorem exec_stgEnFall {l : Fin 8} (hstopping : (s.loop (railLoop l)).stopping = true)
    (hlatch : s.bit (F.PROT_Ln_STATUS_OV_LATCH l) = false) :
    exec (.stgEnFall l) s = .next (s.settled (s.stgEnFall (railLoop l))) :=
  State.watch_onlyIf (fun s => s.stgEnFall (railLoop l)) (by rw [hstopping, hlatch]; rfl)

/-! ### Carding, fulling and notices (R134, R136, R172) -/

/-- A carding step takes place in a period that nothing broke, of two active channels at least (R134). -/
theorem exec_cardingStep {l : Fin 8} (hen : s.bit (F.LP_Ln_CTRL_CARD_EN l) = true) (hst : s.loopSt (railLoop l) = 3)
    (hwhole : (s.loop (railLoop l)).cardBroken = false) (hquiet : (s.loop (railLoop l)).inject = none)
    (hactive : 2 ≤ (s.loop (railLoop l)).order.length) :
    exec (.cardingStep l) s = .next (s.settled (s.cardStep (railLoop l))) := by
  show s.watch (doCardingStep l s) = _
  rw [doCardingStep, State.watch_onlyIf _ hen, if_neg]
  simp [hst, hwhole, hquiet, Nat.lt_of_lt_of_le Nat.one_lt_two hactive]

theorem exec_fullingEnd {l : Fin 8} (h : s.bit (F.LP_Ln_STATUS_FULLING l) = true) : exec (.fullingEnd l) s =
    .next (s.settled ((s.setBit (F.LP_Ln_STATUS_FULLING l) false).modLoop (railLoop l) fun k => { k with ipre := 0 })) :=
  State.watch_onlyIf
    (fun s => (s.setBit (F.LP_Ln_STATUS_FULLING l) false).modLoop (railLoop l) fun k => { k with ipre := 0 }) h

theorem exec_noticedInstant {l : Fin 8} {n : Notice} (h : (s.loop (railLoop l)).notice = some n) :
    exec (.noticedInstant l) s = .next (s.settled (s.noticed (railLoop l) n)) := by
  show s.watch (doNoticedInstant l s) = _
  rw [doNoticedInstant, h]
  rfl

/-! ### Blocking (R143, R145) -/

/-- An injection ends of itself, with RESULT 1, past its last frame (R143). -/
theorem exec_injectionEnd {l : Fin 8} {i : Inject} (hinject : (s.loop (railLoop l)).inject = some i)
    (hrunning : i.running = true) (hlast : (if s.bit (F.LP_Ln_BLK_CFG_LEN l) then 1023 else 511) < i.frame) :
    exec (.injectionEnd l) s = .next (s.settled (s.endInject (railLoop l) 1)) :=
  State.watch_onlyIf (fun s => s.endInject (railLoop l) 1) (by
    rw [hinject, Option.any_some, hrunning, decide_eq_true hlast]; rfl)

theorem exec_verdict (l : Fin 8) (f : Fit) (set : Vector (BitVec 20) 6) (s : State) :
    exec (.verdict l f set) s = .next (s.settled (s.verdict (railLoop l) f set)) := rfl

/-- A verdict other than acceptance is recorded and reported, and no coefficient moves (R145). -/
theorem State.verdict_of_refused {l : Loop} {f : Fit} {set : Vector (BitVec 20) 6} (h : s.fitVerdict l f set ≠ 1) :
    s.verdict l f set = (s.setFld (F.LP_Ln_BLK_CTRL_VERDICT l) (s.fitVerdict l f set)).raise 3 l.val :=
  if_neg fun haccepted => h haccepted.1

/-! ### The fallback loop (R147) -/

/-- A pulse starts in STATE 5, with no pulse under way, below FB_DAC. -/
theorem exec_fallbackPulseStart {l : Loop} {vs : Int} (imon : Int) (hst : s.loopSt l = 5)
    (hlow : (s.loop l).fbHigh.isNone = true) (hbelow : vs < (10 * windowStep l * s.fld (F.LP_Ln_FB_FB_DAC l) : Nat)) :
    exec (.fallbackPulseStart l vs imon) s = .next (s.settled (s.fbPulse l vs imon)) :=
  State.watch_onlyIf (fun s => s.fbPulse l vs imon) (by rw [hst, hlow, decide_eq_true hbelow]; rfl)

theorem exec_fallbackPulseEnd (l : Loop) (s : State) :
    exec (.fallbackPulseEnd l) s = .next (s.settled (s.fbPulseEnd l)) := rfl

/-- A pulse that ends of itself ends its channel's run of tripped intervals (R147, R183; log 95). -/
theorem State.fbPulseEnd_of_pulse {l : Loop} {c : Chan} (h : (s.loop l).fbHigh = some c) : s.fbPulseEnd l =
    (s.modChan c fun k => { k with scRun := 0 }).modLoop l fun k => { k with fbHigh := none } := by
  rw [State.fbPulseEnd, h]

/-! ### Comparators: over-voltage, short circuit, under-voltage, tracking (R180, R182, R186, R187) -/

/-- A crossing that reaches the threshold of an acting comparator trips it (R179, R180; log 95). -/
theorem exec_ovTrip {l : Fin 8} {x : OvCrossing} (hacts : s.ovActs (railLoop l) x.tracking = true)
    (hdom : s.domOn 9 = true) (hreached : s.ovLimit (railLoop l) x.tracking ≤ x.uv) : exec (.ovTrip l x) s =
      .next (s.settled (s.fault (railLoop l) (if x.tracking then 0x05 else 0x04))) :=
  State.watch_onlyIf (fun s => s.fault (railLoop l) (if x.tracking then 0x05 else 0x04)) (by
    rw [hacts, hdom, decide_eq_true hreached]; rfl)

/-- A crossing that reaches the threshold past the blanking of a rail's high interval trips it (R182; log 95). -/
theorem exec_scTrip {x : ScCrossing} {l : Loop} {c : Chan} (hchan : c.val = x.chan.val) (hloop : s.chanLoop c = some l)
    (hpulsing : s.pulsing c = true) (hrail : l.val < 8) (hblank : s.fld (F.PROT_Ln_SC_SC_BLANK l) ≤ x.since)
    (hreached : s.scLimit l ≤ (x.uv : Rat)) : exec (.scTrip x) s = .next (s.settled (s.scTrip l c)) := by
  have hc : (⟨x.chan.val, by omega⟩ : Chan) = c := Fin.ext hchan.symm
  show s.watch (doScTrip x s) = _
  simp only [doScTrip, hc, hloop]
  exact State.watch_onlyIf (fun s => s.scTrip l c) (by simp [hpulsing, hrail, hblank, hreached])

theorem exec_uv {l : Fin 8} (hst : s.loopSt (railLoop l) = 3) (hofs : s.fld (F.PROT_Ln_UV_UV_OFS l) ≠ 0)
    (hbelow : s.belowUv (railLoop l) = true) : exec (.uv l) s = .next (s.settled (s.fault (railLoop l) 0x06)) :=
  State.watch_onlyIf (fun s => s.fault (railLoop l) 0x06) (by simp [hst, hofs, hbelow])

theorem exec_startShort {l : Fin 8} (hst : s.loopSt (railLoop l) = 2) (hpassed : (s.loop (railLoop l)).passed = true)
    (herr : s.fld (F.PROT_Ln_TRK_TRACK_ERR l) ≠ 0) (hbelow : s.belowTrack (railLoop l) = true) :
    exec (.startShort l) s = .next (s.settled (s.fault (railLoop l) 0x03)) :=
  State.watch_onlyIf (fun s => s.fault (railLoop l) 0x03) (by simp [hst, hpassed, herr, hbelow])

/-! ### Overload blocks and hiccups (R185, R189, R190) -/

theorem exec_overloadBlockEnd {l : Fin 8} (hst : (s.loopSt (railLoop l) == 3 || s.loopSt (railLoop l) == 5) = true)
    (hlock : s.bit F.CLK_STATUS_PLL_LOCK = true) :
    exec (.overloadBlockEnd l) s = .next (s.settled (s.overloadBlock (railLoop l))) :=
  State.watch_onlyIf (fun s => s.overloadBlock (railLoop l)) (by rw [hst, hlock]; rfl)

/-- The off time of a hiccup ends in a restart; one that waits has R149's conditions to meet first (R189). -/
theorem exec_hiccupRestart {l : Fin 8} (hhiccup : s.bit (F.PROT_Ln_STATUS_HICCUP l) = true)
    (hlatch : s.bit (F.PROT_Ln_STATUS_OV_LATCH l) = false)
    (hready : (s.loop (railLoop l)).fbWait = false ∨ s.returnReady (railLoop l) = true) :
    exec (.hiccupRestart l) s = .next (s.settled (s.hiccupRestart (railLoop l))) :=
  State.watch_onlyIf (fun s => s.hiccupRestart (railLoop l)) (by simp [hhiccup, hlatch, hready])

/-- A restart without a configuration error counts in HIC_CNT and HIC_TOTAL and starts the loop (R189). -/
theorem State.hiccupRestart_of_configGood {l : Loop} (h : s.configBad l = false) : s.hiccupRestart l =
    (((s.setFld (F.PROT_Ln_STATUS_HIC_CNT l) (min (s.fld (F.PROT_Ln_STATUS_HIC_CNT l) + 1) 7)).satInc
      (F.PROT_Ln_CNT_HIC_TOTAL l)).modLoop l fun k => { k with fbWait := false }).startAt l :=
  if_neg (by simp [h])

theorem exec_hiccupClean {l : Fin 8} (h : s.loopSt (railLoop l) = 3) :
    exec (.hiccupClean l) s = .next (s.settled (s.setFld (F.PROT_Ln_STATUS_HIC_CNT l) 0)) :=
  State.watch_onlyIf (fun s => s.setFld (F.PROT_Ln_STATUS_HIC_CNT l) 0) (by simp [h])

end

/-- Settles O17: each row is its operation where its condition holds; REFERENCE_STEP, VERDICT, FALLBACK_PULSE_END and
FOLDING_QUIET have no condition, and what their operations come to in a given case has theorems of its own. That a
threshold reached counts as crossed and that a pulse's end clears the run of trips is log 95, and that the reference
stands on the fallback loop log 65. -/
theorem loopAndProtectionCommandsComplete : Obligations.LoopAndProtectionCommandsComplete := by
  unfold Obligations.LoopAndProtectionCommandsComplete
  refine ⟨fun n vs shunt l s => exec_compensatorUpdate vs shunt, fun l s hst => ?_, fun l s hst => ?_, exec_referenceStep,
    fun l s => exec_cardingStep, fun l s => exec_fullingEnd, fun l n s => exec_noticedInstant,
    fun l uv selfTest s => exec_prebiasDone uv selfTest, fun l s => exec_rampStart, fun l s => exec_stopLowEnd,
    fun l s => exec_stgEnFall, fun l s => exec_settledRise, fun l i s => exec_injectionEnd, fun l f set s hrefused => ?_,
    exec_verdict, fun l vs imon s => exec_fallbackPulseStart imon, fun l c s hpulse => ?_, fun l s => rfl,
    fun l x s => exec_ovTrip, fun x l c s => exec_scTrip, fun l s => exec_overloadBlockEnd, fun l s => exec_uv,
    fun l s => exec_startShort, fun l s hhiccup hlatch hready hgood => ?_, fun l s => exec_hiccupClean⟩
  · rw [exec_referenceStep, State.refStep_of_regulation hst]
  · rw [exec_referenceStep, State.refStep_of_fallback hst]
  · rw [exec_verdict, State.verdict_of_refused hrefused]
    rfl
  · rw [exec_fallbackPulseEnd, State.fbPulseEnd_of_pulse hpulse]
  · rw [exec_hiccupRestart hhiccup hlatch hready, State.hiccupRestart_of_configGood hgood]
    rfl

end Sys2Proof.Machine
end

section
/-!
The CRC-8 of the link and its frames (R159, R160): what the CRC of a message leaves, and what a frame reads back.
-/

namespace Sys2Proof.Machine

/-! ### The CRC-8 (R160) -/

theorem crc8Bit_of_top_eq {c : Nat} {b : Bool} (h : c.testBit 7 = b) : crc8Bit c b = c * 2 % 256 := by
  subst h
  have htop : (c / 128 % 2 == 1) = c.testBit 7 := by rw [Nat.testBit_eq_decide_div_mod_eq]; rfl
  simp [crc8Bit, htop]

theorem crc8Bit_lt (c : Nat) (b : Bool) : crc8Bit c b < 256 := by
  have hshift : c * 2 % 256 < 2 ^ 8 := Nat.mod_lt _ (by decide)
  unfold crc8Bit
  dsimp only
  split
  · exact Nat.xor_lt_two_pow hshift (by decide)
  · exact hshift

theorem crc8Byte_lt (c : Nat) (b : Byte) : crc8Byte c b < 256 := crc8Bit_lt ..

/-- The register of a CRC is eight bits wide, so `crc8` truncates nothing. -/
theorem crc8_toNat (bs : List Byte) : (crc8 bs).toNat = bs.foldl crc8Byte 0 := by
  refine Nat.mod_eq_of_lt (b := 2 ^ 8) ?_
  rcases List.eq_nil_or_concat bs with rfl | ⟨bs, b, rfl⟩
  · decide
  · rw [List.concat_eq_append, List.foldl_append, List.foldl_cons, List.foldl_nil]
    exact crc8Byte_lt ..

theorem crc8Byte_eq_foldl_range (c : Nat) (b : Byte) :
    crc8Byte c b = (List.range 8).foldl (fun c i => crc8Bit c (b.getLsbD (7 - i))) c := rfl

/-- A byte that meets itself in the register shifts out bit by bit: no step finds a difference. -/
theorem foldl_crc8Bit_self (c : Byte) {j : Nat} (hj : j ≤ 8) :
    (List.range j).foldl (fun x i => crc8Bit x (c.getLsbD (7 - i))) c.toNat = c.toNat * 2 ^ j % 256 := by
  induction j with
  | zero =>
    rw [Nat.pow_zero, Nat.mul_one, Nat.mod_eq_of_lt c.isLt]
    rfl
  | succ j ih =>
    have htop : (c.toNat * 2 ^ j % 256).testBit 7 = c.getLsbD (7 - j) := by
      rw [show 256 = 2 ^ 8 from rfl, Nat.testBit_mod_two_pow, Nat.testBit_mul_two_pow, BitVec.getLsbD,
        decide_eq_true (show j ≤ 7 by omega)]
      rfl
    rw [List.range_succ, List.foldl_append, ih (by omega)]
    exact (crc8Bit_of_top_eq htop).trans (by rw [Nat.mod_mul_mod, Nat.mul_assoc, ← Nat.pow_succ])

theorem crc8Byte_self (c : Byte) : crc8Byte c.toNat c = 0 := by
  rw [crc8Byte_eq_foldl_range, foldl_crc8Bit_self c (Nat.le_refl 8)]
  exact Nat.mul_mod_left ..

/-- A message followed by its CRC leaves 0 (R160). -/
theorem crc8_append_crc8 (bs : List Byte) : crc8 (bs ++ [crc8 bs]) = 0 := by
  refine BitVec.eq_of_toNat_eq ?_
  rw [crc8_toNat, List.foldl_append, ← crc8_toNat]
  exact crc8Byte_self _

/-! ### Frames -/

theorem getBits_eq_toNat_extractLsb' (w : Word) (lo width : Nat) : getBits w lo width = (w.extractLsb' lo width).toNat := by
  rw [getBits, BitVec.extractLsb'_toNat, Nat.shiftRight_eq_div_pow]

/-- The 24 bits of a frame that its CRC covers, above a CRC of 0 (R159). -/
def frameBody (cmd : Nat) (f : LinkFrame) : Word := (BitVec.ofNat 4 cmd ++ f.sel ++ f.tag ++ f.payload) ++ (0 : Byte)

theorem frameWord_eq (cmd : Nat) (f : LinkFrame) :
    frameWord cmd f = frameBody cmd f ||| (crc8 (frameBytes (frameBody cmd f))).setWidth 32 := rfl

/-- A byte set below a word leaves the bits above it. -/
theorem extractLsb'_or_byte {lo : Nat} (w : Word) (b : Byte) (width : Nat) (h : 8 ≤ lo) :
    (w ||| b.setWidth 32).extractLsb' lo width = w.extractLsb' lo width := by
  ext i hi
  have hb : b.getLsbD (lo + i) = false := BitVec.getLsbD_of_ge b _ (by omega)
  simp [hb]

theorem frameBytes_frameWord (cmd : Nat) (f : LinkFrame) : frameBytes (frameWord cmd f) = frameBytes (frameBody cmd f) := by
  simp only [frameBytes, frameWord_eq, extractLsb'_or_byte _ _ _ (show 8 ≤ 24 by decide),
    extractLsb'_or_byte _ _ _ (show 8 ≤ 16 by decide), extractLsb'_or_byte _ _ _ (Nat.le_refl 8)]

theorem extractLsb'_frameWord_crc (cmd : Nat) (f : LinkFrame) :
    (frameWord cmd f).extractLsb' 0 8 = crc8 (frameBytes (frameBody cmd f)) := by
  have hlow : (frameBody cmd f).extractLsb' 0 8 = 0#8 := BitVec.extractLsb'_append_eq_right
  rw [frameWord_eq, BitVec.extractLsb'_or, hlow, BitVec.zero_or]
  ext i hi
  simp [show i < 32 by omega, BitVec.getLsbD_eq_getElem hi]

theorem frameGood_frameWord (cmd : Nat) (f : LinkFrame) : frameGood (frameWord cmd f) = true := by
  rw [frameGood, frameBytes_frameWord, extractLsb'_frameWord_crc, beq_self_eq_true]

/-- A field of a frame lies above the CRC, so it is read from the body. -/
theorem getBits_frameWord (cmd : Nat) (f : LinkFrame) {lo : Nat} (width : Nat) (h : 8 ≤ lo) :
    getBits (frameWord cmd f) lo width = ((frameBody cmd f).extractLsb' lo width).toNat := by
  rw [getBits_eq_toNat_extractLsb', frameWord_eq, extractLsb'_or_byte _ _ _ h]

/-- The body's fields stand at their places (R159). -/
theorem extractLsb'_frameBody (cmd : Nat) (f : LinkFrame) : (frameBody cmd f).extractLsb' 28 4 = BitVec.ofNat 4 cmd
    ∧ (frameBody cmd f).extractLsb' 26 2 = f.sel ∧ (frameBody cmd f).extractLsb' 24 2 = f.tag
    ∧ (frameBody cmd f).extractLsb' 8 16 = f.payload := by
  have hhead {lo width : Nat} (h : 24 ≤ lo) : (frameBody cmd f).extractLsb' lo width =
      (BitVec.ofNat 4 cmd ++ f.sel ++ f.tag).extractLsb' (lo - 24) width :=
    (BitVec.extractLsb'_append_eq_of_le (Nat.le_trans (by decide) h)).trans
      (BitVec.extractLsb'_append_eq_of_le (by omega))
  have hsel {lo width : Nat} (h : 26 ≤ lo) : (frameBody cmd f).extractLsb' lo width =
      (BitVec.ofNat 4 cmd ++ f.sel).extractLsb' (lo - 26) width :=
    (hhead (by omega)).trans (BitVec.extractLsb'_append_eq_of_le (by omega))
  refine ⟨?_, ?_, ?_, ?_⟩
  · exact (hsel (by decide)).trans BitVec.extractLsb'_append_eq_left
  · exact (hsel (by decide)).trans BitVec.extractLsb'_append_eq_right
  · exact (hhead (by decide)).trans BitVec.extractLsb'_append_eq_right
  · exact (BitVec.extractLsb'_append_eq_of_le (Nat.le_refl 8)).trans BitVec.extractLsb'_append_eq_right

end Sys2Proof.Machine
end

section
/-!
The answer to a frame, at its receipt (R162, R163): a bad CRC, a duplicate, and a frame that is executed or refused.
-/

namespace Sys2Proof.Machine

/-! ### The first checks of R162 -/

section
variable {s : State} {v : Port} {w : Word} {waited : Bool}

theorem State.linkReceive_of_badCrc (h : frameGood w = false) :
    s.linkReceive v w waited = ((s.endPulse v).satInc (F.VLK_n_ERR_CRC_CNT v)).linkNak v w 1 := by
  simp [State.linkReceive, h]

theorem State.linkReceive_of_duplicate (hgood : frameGood w = true) (hfree : s.linkBusyFor v w waited = false)
    (hdup : s.linkDuplicate v w = true) : s.linkReceive v w waited =
      (((s.endPulse v).linkNote v w).satInc (F.VLK_n_ERR_DUP_CNT v)).linkAck v w none := by
  simp [State.linkReceive, hgood, hfree, hdup]

theorem State.linkReceive_of_new (hgood : frameGood w = true) (hfree : s.linkBusyFor v w waited = false)
    (hnew : s.linkDuplicate v w = false) :
    s.linkReceive v w waited = ((s.endPulse v).linkNote v w).linkExecute v w := by
  simp [State.linkReceive, hgood, hfree, hnew]

end

/-- Settles O19: a byte that meets itself in the register shifts out to 0; a frame is its body with a CRC below it; and a
bad CRC is the first check of R162. -/
theorem linkCrc : Obligations.LinkCrc := by
  unfold Obligations.LinkCrc
  refine ⟨by decide +kernel, crc8_append_crc8, fun cmd f hcmd => ?_, fun s v w waited => State.linkReceive_of_badCrc⟩
  obtain ⟨hc, hsel, htag, hpay⟩ := extractLsb'_frameBody cmd f
  refine ⟨frameGood_frameWord cmd f, ?_, ?_, ?_, ?_⟩
  · rw [frameCmd, getBits_frameWord cmd f 4 (by decide), hc]
    exact Nat.mod_eq_of_lt hcmd
  · rw [frameSel, getBits_frameWord cmd f 2 (by decide), hsel]
  · rw [frameTag, getBits_frameWord cmd f 2 (by decide), htag]
  · rw [framePay, getBits_frameWord cmd f 16 (by decide), hpay]

/-! ### Duplicates (R163) -/

section
variable (s : State) (v : Port)

theorem State.link_modLink_same (f : Link → Link) : (s.modLink v f).link v = f (s.link v) := by
  simp [State.link, State.modLink]

/-- A response leaves what a port remembers of its frames. -/
theorem State.link_linkAck (w : Word) (trailer : Option (BitVec 24)) : (s.linkAck v w trailer).link v = s.link v := rfl

/-- A frame that no check refuses becomes the one last acknowledged. -/
theorem State.acked_linkExecute {w : Word} (h : s.linkRefusal v w = 0) : ((s.linkExecute v w).link v).acked = some w := by
  simp [State.linkExecute, h, State.link_linkAck, State.link_modLink_same]

/-- A good frame ends the duplicate of every other. -/
theorem State.acked_linkNote_ne {w w2 : Word} (h : w2 ≠ w) : ((s.linkNote v w).link v).acked ≠ some w2 := by
  rw [State.linkNote, State.link_modLink_same]
  dsimp only
  split
  next hacked => simpa [hacked] using h.symm
  next => simp

theorem State.linkDuplicate_eq_true {w : Word} (hacked : (s.link v).acked = some w) (h5 : frameCmd w ≠ 5)
    (h6 : frameCmd w ≠ 6) : s.linkDuplicate v w = true := by
  simp [State.linkDuplicate, hacked, h5, h6]

theorem State.linkDuplicate_of_get {w : Word} (h : frameCmd w = 5 ∨ frameCmd w = 6) : s.linkDuplicate v w = false := by
  rcases h with h | h
  · simp [State.linkDuplicate, h]
  · simp [State.linkDuplicate, h]

theorem State.linkDuplicate_of_acked_ne {w : Word} (h : (s.link v).acked ≠ some w) : s.linkDuplicate v w = false := by
  simp [State.linkDuplicate, h]

end

/-- Settles O18: each case of R163 is a value of `linkDuplicate`, which decides the answer to a good frame on a free port;
the last two clauses say when that value arises and when it ends. -/
theorem linkDuplicates : Obligations.LinkDuplicates := by
  unfold Obligations.LinkDuplicates
  intro s v w waited hgood hfree
  exact ⟨fun hacked h5 h6 => State.linkReceive_of_duplicate hgood hfree (s.linkDuplicate_eq_true v hacked h5 h6),
    fun hget => State.linkReceive_of_new hgood hfree (s.linkDuplicate_of_get v hget),
    fun hne => State.linkReceive_of_new hgood hfree (s.linkDuplicate_of_acked_ne v hne),
    s.acked_linkExecute v, fun w2 => s.acked_linkNote_ne v⟩

end Sys2Proof.Machine
end

section
/-!
A step notice of 0 A on a loop with a blocking injection (R144, R172).
-/

namespace Sys2Proof.Machine

theorem State.linkApply_stepNotice {s : State} {v : Port} {k : Fin 2} {l : Loop} (pay : Nat) (h : s.slotLoop v k = some l) :
    s.linkApply v 3 pay k = s.linkNotice v l (signed 10 (pay / 64)) := by
  simp [State.linkApply, h]

/-- A notice of 0 A cancels the pending one without further effect (R172). -/
theorem State.linkNotice_zero (s : State) (v : Port) (l : Loop) :
    s.linkNotice v l 0 = s.modLoop l fun k => { k with notice := none } := if_pos rfl

/-- An injection that runs stops at the end of its frame (R144). -/
theorem State.stopInject_of_running {s : State} {l : Loop} {i : Inject} (result : Nat) (hi : (s.loop l).inject = some i)
    (hrun : i.running = true) : s.stopInject l result =
      s.modLoop l fun k => { k with inject := some { i with stop := i.stop.or (some result) } } := by
  simp [State.stopInject, hi, hrun]

/-- An injection in its first frame. -/
def firstFrame : Inject := { frame := 0, lfsr := 1, sumE := 0, sumD := 0, updates := 0, running := true, stop := none }

/-- Slot 0 of port 0 serves loop 0, which is in regulation; on it an injection runs and a notice of 5 A is pending. -/
def injectingUnderNotice : State :=
  (((State.reset.setReg (A.VLK_n_MAP 0) 0xF0).setFld (F.LP_Ln_STATUS_STATE 0) 3).setBit (F.LP_Ln_BLK_CTRL_RUN 0) true).modLoop 0
    fun k => { k with inject := some firstFrame, notice := some ⟨0, 5⟩ }

theorem injectingUnderNotice_slotLoop : injectingUnderNotice.slotLoop 0 0 = some 0 := by decide

theorem injectingUnderNotice_inject : (injectingUnderNotice.loop 0).inject = some firstFrame := rfl

/-- Refutes O21: its clause for a STEP_NOTICE of 0 A also stops an injection with RESULT 5, where R172 has the notice
cancel the pending one "without further effect". On a loop whose injection runs, that injection runs on. -/
theorem not_linkCommandsComplete : ¬ Obligations.LinkCommandsComplete := by
  unfold Obligations.LinkCommandsComplete
  rintro ⟨-, -, -, -, -, hslot, -⟩
  obtain ⟨-, -, hnotice, -⟩ := hslot injectingUnderNotice 0 0 0 0 injectingUnderNotice_slotLoop
  have heq := (State.linkApply_stepNotice 0 injectingUnderNotice_slotLoop).symm.trans (hnotice rfl)
  rw [show signed 10 (0 / 64) = 0 from rfl, State.linkNotice_zero,
    State.stopInject_of_running 5 injectingUnderNotice_inject rfl] at heq
  have hinject := congrArg (fun t => (t.loop 0).inject) heq
  simp only [State.modLoop_loop_same, injectingUnderNotice_inject, firstFrame] at hinject
  cases hinject

end Sys2Proof.Machine
end

section
/-!
The fault ladder of a loop: which waiting fault is taken next (R203), and how a recorded fault enters (R199, R200, R202).
-/

namespace Sys2Proof.Machine

/-- The scan of the severities 3, 2, 1, 0 stops at the first that a queued fault has, so none above it has one. -/
theorem bestOf_eq_some {q : List QFault} {x : QFault} (h : bestOf q = some x) :
    q.find? (fun y => y.sev == x.sev) = some x ∧ ∀ y ∈ q, y.sev ≤ 3 → y.sev ≤ x.sev := by
  obtain ⟨above, v, below, hscan, hfound, habove⟩ := List.findSome?_eq_some_iff.mp h
  obtain rfl : x.sev = v := by simpa using List.find?_some hfound
  refine ⟨hfound, fun y hy hy3 => Nat.le_of_not_lt fun hlt => ?_⟩
  have hscanned : y.sev ∈ above ++ x.sev :: below := hscan ▸ (by simp; omega)
  have hdesc : (above ++ x.sev :: below).Pairwise (· > ·) := hscan ▸ (by decide)
  obtain ⟨-, hrest, -⟩ := List.pairwise_append.mp hdesc
  have hlower : ∀ w ∈ below, w < x.sev := fun _ => List.rel_of_pairwise_cons hrest
  have hin : y.sev ∈ above := by
    refine (List.mem_append.mp hscanned).resolve_right fun hle => ?_
    rcases List.mem_cons.mp hle with heq | hmem
    · exact hlt.ne' heq
    · exact hlt.asymm (hlower _ hmem)
  simpa using List.find?_eq_none.mp (habove _ hin) y hy

/-- R203: everything before the fault taken is of a lower severity, and nothing after it is of a higher one. -/
theorem bestOf_split {q : List QFault} {x : QFault} (h : bestOf q = some x) :
    ∃ a b, q = a ++ x :: b ∧ (∀ y ∈ a, y.sev ≤ 3 → y.sev < x.sev) ∧ ∀ y ∈ b, y.sev ≤ 3 → y.sev ≤ x.sev := by
  obtain ⟨hfound, hmax⟩ := bestOf_eq_some h
  obtain ⟨-, a, b, rfl, hfirst⟩ := List.find?_eq_some_iff_append.mp hfound
  refine ⟨a, b, rfl, fun y hy hy3 => ?_, fun y hy => hmax y (by simp [hy])⟩
  have hne : y.sev ≠ x.sev := by simpa using hfirst y hy
  exact Nat.lt_of_le_of_ne (hmax y (by simp [hy]) hy3) hne

/-- A fault of a loop's own severities, up to 3 (R204), does not stay behind where none is taken. -/
theorem eq_nil_of_bestOf_eq_none {q : List QFault} (hsev : ∀ y ∈ q, y.sev ≤ 3) (h : bestOf q = none) : q = [] := by
  refine List.eq_nil_iff_forall_not_mem.mpr fun y hy => ?_
  have hscanned : y.sev ∈ [3, 2, 1, 0] := by
    have := hsev y hy
    simp
    omega
  simpa using List.find?_eq_none.mp (List.findSome?_eq_none_iff.mp h _ hscanned) y hy

variable {s : State} {l : Loop} {q h : QFault}

@[simp] theorem State.setQueue_queue (s : State) (l : Loop) (q : List QFault) : ((s.setQueue l q).loop l).queue = q := by
  simp [State.setQueue]

/-- R199. -/
theorem State.ladder_of_idle (hh : (s.loop l).handling = none) :
    s.ladder l q = (s.setFld (F.PROT_Ln_LADDER_RECUR l) 0).startHandling l q := by
  simp [State.ladder, hh]

/-- R200, recurrence of the cause being handled; R188 where its action is a hiccup that has ended. -/
theorem State.ladder_of_handled (hh : (s.loop l).handling = some h) (hcause : h.cause = q.cause) :
    s.ladder l q =
      if isHiccup q.cause q.sev && isHiccup h.cause h.sev && !s.bit (F.PROT_Ln_STATUS_HICCUP l) then
        (s.satInc (F.PROT_Ln_LADDER_RECUR l)).faultAction l q
      else s.satInc (F.PROT_Ln_LADDER_RECUR l) := by
  simp only [State.ladder, hh]
  exact if_pos hcause

/-- R200, recurrence of a cause that waits. -/
theorem State.ladder_of_queued (hh : (s.loop l).handling = some h) (hcause : h.cause ≠ q.cause)
    (hqueued : ∃ x ∈ (s.loop l).queue, x.cause = q.cause) :
    s.ladder l q = s.satInc (F.PROT_Ln_LADDER_RECUR l) := by
  have hany : ((s.loop l).queue.any fun x => x.cause == q.cause) = true := by simpa using hqueued
  simp [State.ladder, hh, hcause, hany]

/-- R200, nesting, short of the third fault of R202. -/
theorem State.ladder_of_nested (hh : (s.loop l).handling = some h) (hcause : h.cause ≠ q.cause)
    (hfresh : ∀ x ∈ (s.loop l).queue, x.cause ≠ q.cause) (hsev : q.sev ≤ h.sev) (hroom : (s.loop l).queue.length < 2) :
    s.ladder l q = s.setQueue l ((s.loop l).queue ++ [q]) := by
  have hany : ((s.loop l).queue.any fun x => x.cause == q.cause) = false := by simpa using hfresh
  simp [State.ladder, hh, hcause, hany, Nat.not_lt.mpr hsev, hroom]

end Sys2Proof.Machine
end

section
namespace Sys2Proof.Machine

/-- Settles O20: `bestOf` scans the severities downwards and each of them from the oldest fault; the other clauses are the
branches of `State.ladder`. -/
theorem faultLadderOrder : Obligations.FaultLadderOrder := by
  unfold Obligations.FaultLadderOrder
  exact ⟨fun _ _ => bestOf_split, fun _ => eq_nil_of_bestOf_eq_none, fun _ _ _ _ => State.ladder_of_handled,
    fun _ _ _ _ => State.ladder_of_queued, fun _ _ _ => State.ladder_of_idle, fun _ _ _ _ => State.ladder_of_nested⟩

end Sys2Proof.Machine
end

section
/-!
The timers of Type-C, of the PD protocol and of fast role swap (chapter 07): what each leaves where its condition holds.
-/

namespace Sys2Proof.Machine

theorem State.watch_of_next {s t : State} {a : Answer} (h : a = .next t) : s.watch a = .next (s.settled t) := by
  rw [h, State.watch]

section
variable {s : State} {p : Port}

/-! ### The Type-C state machines (R213, R214) -/

/-- DRP_TOGGLE needs a DRP port that is unattached, in a part that is not dead-battery powered. -/
theorem exec_drpToggle (hdom : s.domOn 2 = true) (hdrp : (s.port p).role = 2) (hlive : s.deadBattery = false)
    (hunattached : (s.tc p == 2 || s.tc p == 5) = true) : exec (.drpToggle p) s = .next (s.settled (s.drpToggle p)) :=
  State.watch_onlyIf (fun s => s.drpToggle p) (by rw [hdom, hdrp, hlive, hunattached]; rfl)

theorem exec_errorRecoveryEnd (h : s.tc p = 1) : exec (.errorRecoveryEnd p) s = .next (s.settled (s.unattached p)) :=
  State.watch_onlyIf (fun s => s.unattached p) (by rw [h]; rfl)

/-- From Try.SRC, tDRPTry ends in TryWait.SNK. -/
theorem exec_tdrptry_trySrc (h : s.tc p = 8) : exec (.tdrptry p false) s = .next (s.settled (s.setTc p 9)) :=
  State.watch_of_next (a := doTdrptry p false s) (by simp [doTdrptry, State.onlyIf, h])

/-- From Try.SNK, tDRPTry ends in TryWait.SRC. -/
theorem exec_tdrptry_trySnk (h : s.tc p = 10) : exec (.tdrptry p false) s = .next (s.settled (s.setTc p 11)) :=
  State.watch_of_next (a := doTdrptry p false s) (by simp [doTdrptry, State.onlyIf, h])

/-- From TryWait.SRC, tDRPTry ends unattached. -/
theorem exec_tdrptry_tryWaitSrc (h : s.tc p = 11) : exec (.tdrptry p false) s = .next (s.settled (s.unattached p)) :=
  State.watch_of_next (a := doTdrptry p false s) (by simp [doTdrptry, State.onlyIf, h])

theorem exec_detachExceptionEnd (hspan : (s.port p).span ≠ .none) (hattached : s.attached p = true) :
    exec (.detachExceptionEnd p) s = .next (s.settled (s.endSpan p)) :=
  State.watch_onlyIf (fun s => s.endSpan p) (by simp [hspan, hattached])

/-! ### The timers of PD (R220, R221) -/

/-- Source_Capabilities are sent again without a contract, up to the 50th time. -/
theorem exec_ttypecsendsourcecap (harmed : s.armed p .typeCSendSourceCap = true) (hsource : s.isSource p = true)
    (hcaps : (s.port p).caps < 50) (hcontract : s.bit (F.PD_Pp_STATUS_CONTRACT p) = false) :
    exec (.ttypecsendsourcecap p) s = .next (s.settled (((s.modPort p fun k => { k with caps := k.caps + 1 }).sendSourceCaps
      p true).arm p .typeCSendSourceCap)) :=
  State.watch_of_next (a := doTtypecsendsourcecap p s) (by
    simp [doTtypecsendsourcecap, State.onlyIf, harmed, hsource, hcaps, hcontract])

theorem exec_tsinkeprkeepalive (harmed : s.armed p .sinkEprKeepAlive = true) (hsink : s.isSink p = true) :
    exec (.tsinkeprkeepalive p) s = .next (s.settled ((s.sendCtl p .eprKeepAlive).arm p .sinkEprKeepAlive)) :=
  State.watch_onlyIf (fun s => (s.sendCtl p .eprKeepAlive).arm p .sinkEprKeepAlive) (by rw [harmed, hsink]; rfl)

theorem exec_tppsrequest (harmed : s.armed p .ppsRequest = true) (hsink : s.isSink p = true) : exec (.tppsrequest p) s =
    .next (s.settled (((s.modPort p fun k => { k with refreshDue := true }).arm p .ppsRequest).startPending p)) :=
  State.watch_onlyIf (fun s => ((s.modPort p fun k => { k with refreshDue := true }).arm p .ppsRequest).startPending p)
    (by rw [harmed, hsink]; rfl)

/-! ### Swaps of the power role (R231, R253, R254) -/

theorem exec_frsFail (hspan : (s.port p).span = .frs) (hhold : (s.path p).frsHold = true) :
    exec (.frsFail p) s = .next (s.settled (s.fault (portLoop p) 0x1C)) :=
  State.watch_onlyIf (fun s => s.fault (portLoop p) 0x1C) (by rw [hspan, hhold]; rfl)

/-- The old source goes off the bus in the second step of its power role swap. -/
theorem exec_prSwapSourceOff (hsource : s.isSource p = true) (hams : (s.port p).ams = .prSwap) (hstep : (s.port p).step = 2) :
    exec (.prSwapSourceOff p) s = .next (s.settled (((s.pathOff p).openFets p).discharge p)) :=
  State.watch_onlyIf (fun s => ((s.pathOff p).openFets p).discharge p) (by rw [hsource, hams, hstep]; rfl)

end

/-- Settles O22: each row is its operation where its condition holds. A row whose condition is one fact, such as a timer
that is armed, is `State.watch_onlyIf` of it; CABLE_DISCOVERY_RETRY and FRS_SIGNAL_END have no condition; the others have
theorems of their own. -/
theorem portTimersComplete : Obligations.PortTimersComplete := by
  unfold Obligations.PortTimersComplete
  exact ⟨fun p cc1 cc2 _ => State.watch_onlyIf fun s => s.tcDebounce p cc1 cc2, fun _ _ => exec_drpToggle,
    fun _ _ => exec_errorRecoveryEnd, fun _ _ => exec_tdrptry_trySrc, fun _ _ => exec_tdrptry_trySnk,
    fun _ _ => exec_tdrptry_tryWaitSrc, fun _ _ => exec_detachExceptionEnd,
    fun p _ => State.watch_onlyIf fun s => s.tReceive p, fun p _ => State.watch_onlyIf fun s => s.sendSoftReset p,
    fun _ _ => exec_ttypecsendsourcecap, fun p _ => State.watch_onlyIf fun s => s.timerReset p,
    fun p _ => State.watch_onlyIf fun s => s.timerReset p,
    fun p _ => State.watch_onlyIf fun s => (s.disarm p .hardReset).endIf (portLoop p) fun q =>
      isPortStop q.cause || q.cause == 0x1B || q.cause == 0x0E,
    fun p _ => State.watch_onlyIf fun s => s.timerReset p, fun p _ => State.watch_onlyIf fun s => s.sendSoftReset p,
    fun _ _ => exec_tsinkeprkeepalive, fun p _ => State.watch_onlyIf fun s => s.timerReset p, fun _ _ => exec_tppsrequest,
    fun p _ => State.watch_onlyIf fun s => s.timerReset p, fun p _ => State.watch_onlyIf fun s => s.errorRecovery p,
    fun p _ => State.watch_onlyIf fun s => s.vconnOverload p, fun _ _ => rfl,
    fun p _ => State.watch_onlyIf fun s => s.frsSignal p, fun _ _ => exec_frsFail, fun _ _ => exec_prSwapSourceOff,
    fun _ _ => rfl⟩

end Sys2Proof.Machine
end

section
/-!
The messages of the PD protocol (chapter 07): their receipt, and what C2 or the keep-alive hardware makes of each.
-/

namespace Sys2Proof.Machine

/-! ### Taking a message out of its buffer (R216, R217) -/

section
variable {s t : State} {p : Port} {m : PdMsg}

/-- While C2 acts, it takes a message of any type. -/
theorem State.takes_of_c2Acts (h : s.c2Acts = true) (p : Port) (x : PdType) : s.takes p x = true := by
  simp [State.takes, h]

/-- While C2 acts, a row for messages of its types acts on the oldest of them. -/
theorem State.watch_onMsg {f : PdType → Bool} (act : PdMsg → State → State) (hacts : s.c2Acts = true)
    (htake : s.takeMsg p f = some (m, t)) : s.watch (s.onMsg p f act) = .next (s.settled (act m t)) := by
  have htypes : (fun x => f x && s.takes p x) = f := by simp [State.takes_of_c2Acts hacts]
  exact State.watch_of_next (by rw [State.onMsg, htypes, htake])

/-! ### Rows of a message -/

theorem exec_pdMessageRx (crcOk : Bool) (hdom : s.domOn 10 = true) (hrole : (s.isSource p || s.isSink p) = true)
    (hen : (s.port p).pdEn = true) (hlive : s.deadBattery = false) :
    exec (.pdMessageRx p m crcOk) s = .next (s.settled (s.pdRx p m crcOk)) :=
  State.watch_onlyIf (fun s => s.pdRx p m crcOk) (by rw [hdom, hrole, hen, hlive]; rfl)

/-- A message with a bad CRC is counted, and nothing else happens (R216). -/
theorem State.pdRx_of_badCrc (s : State) (p : Port) (m : PdMsg) : s.pdRx p m false = s.satInc (F.PD_Pp_CNT_CRC_ERR p) := rfl

/-- A sink answers an offer while C0 acts, which grants its intake (R225). -/
theorem exec_sourceCapabilities (hsink : s.isSink p = true) (hc0 : s.coreActs 0 = true) (hacts : s.c2Acts = true)
    (htake : s.takeMsg p (fun t => t == .sourceCapabilities || t == .eprSourceCapabilities) = some (m, t)) :
    exec (.sourceCapabilities p) s = .next (s.settled (t.sourceCaps p m)) := by
  show s.watch (doSourceCapabilities p s) = _
  rw [doSourceCapabilities, if_pos (by rw [hsink, hacts, hc0]; rfl), State.watch_onMsg _ hacts htake]

/-- A source answers a Request while C0 acts, which grants its output (R225). -/
theorem exec_request (hsource : s.isSource p = true) (hc0 : s.coreActs 0 = true) (hacts : s.c2Acts = true)
    (htake : s.takeMsg p (fun t => t == .request || t == .eprRequest) = some (m, t)) :
    exec (.request p) s = .next (s.settled (t.request p m)) := by
  show s.watch (doRequest p s) = _
  rw [doRequest, if_pos (by rw [hsource, hc0]; rfl), State.watch_onMsg _ hacts htake]

/-- A power role swap waits for C0 where a sink would accept it: C0 grants the 15 W of the new source (R230). -/
theorem exec_prSwap (hready : s.isSink p = false ∨ s.bit (F.PD_Pp_CFG_ACC_PR p) = false ∨ s.coreActs 0 = true)
    (hacts : s.c2Acts = true) (htake : s.takeMsg p (fun t => t == .prSwap) = some (m, t)) :
    exec (.prSwap p) s = .next (s.settled (t.rxPrSwap p)) := by
  have hnotWaiting : ¬(s.isSink p && s.bit (F.PD_Pp_CFG_ACC_PR p) && !s.coreActs 0) = true := by
    rcases hready with h | h | h
    · simp [h]
    · simp [h]
    · simp [h]
  show s.watch (doPrSwap p s) = _
  rw [doPrSwap, if_neg hnotWaiting, State.watch_onMsg _ hacts htake]

theorem exec_eprMode (hacts : s.c2Acts = true) (hrole : (s.isSink p || s.isSource p) = true) :
    exec (.eprMode p) s = .next (s.settled (s.eprMode p)) :=
  State.watch_onlyIf (fun s => s.eprMode p) (by rw [hacts, hrole]; rfl)

/-- In EPR mode the hardware of a source answers a keep-alive and starts its timer again (R221). -/
theorem exec_eprKeepalive (htake : s.takeMsg p (fun t => t == .eprKeepAlive) = some (m, t)) (hsource : t.isSource p = true)
    (hepr : t.bit (F.PD_Pp_STATUS_EPR_MODE p) = true) : exec (.eprKeepalive p) s =
      .next (s.settled ((t.sendCtl p .eprKeepAliveAck).arm p .sourceEprKeepAlive)) :=
  State.watch_of_next (a := doEprKeepalive p s) (by
    rw [doEprKeepalive, htake]
    exact if_pos ⟨hsource, hepr⟩)

/-! ### Resets (R219) -/

theorem exec_hardResetRx (hrole : (s.isSink p || s.isSource p) = true) (hen : (s.port p).pdEn = true) :
    exec (.hardResetRx p) s = .next (s.settled (s.hardReset p false)) :=
  State.watch_onlyIf (fun s => s.hardReset p false) (by rw [hrole, hen]; rfl)

theorem exec_hardResetTx (hrole : (s.isSink p || s.isSource p) = true) (hen : (s.port p).pdEn = true)
    (hlive : s.deadBattery = false) : exec (.hardResetTx p) s = .next (s.settled (s.hardReset p true)) :=
  State.watch_onlyIf (fun s => s.hardReset p true) (by rw [hrole, hen, hlive]; rfl)

/-- A Cable Reset, by the source of VCONN, begins the counters of SOP' and SOP'' anew. -/
theorem exec_cableReset (hvconn : s.bit (F.PD_Pp_STATUS_VCONN_SRC p) = true) (hacts : s.c2Acts = true) :
    exec (.cableReset p) s = .next (s.settled ((s.emit (.cableReset p)).modPort p fun k =>
      { k with txId := #v[k.txId[0], 0, 0], rxId := #v[k.rxId[0], none, none], rxPrime := [] })) :=
  State.watch_onlyIf (fun s => (s.emit (.cableReset p)).modPort p fun k =>
    { k with txId := #v[k.txId[0], 0, 0], rxId := #v[k.rxId[0], none, none], rxPrime := [] }) (by rw [hvconn, hacts]; rfl)

end

/-- Settles O23: a row of a message is its operation on the oldest buffered message of its types (`State.watch_onMsg`,
directly where nothing but C2 is needed); FR_SWAP needs C2 alone. -/
theorem pdMessageCommandsComplete : Obligations.PdMessageCommandsComplete := by
  unfold Obligations.PdMessageCommandsComplete
  refine ⟨fun p m s hdom hrole hen hlive => ?_, fun _ _ crcOk _ => exec_pdMessageRx crcOk,
    fun _ _ _ _ => exec_sourceCapabilities, fun _ _ _ _ => exec_request,
    fun p _ _ _ => State.watch_onMsg fun _ s => s.rxDrSwap p, fun _ _ _ _ => exec_prSwap,
    fun p _ _ _ => State.watch_onMsg fun _ s => s.rxVconnSwap p, fun _ _ => exec_eprMode, fun _ _ _ _ => exec_eprKeepalive,
    fun p _ => State.watch_onlyIf fun s => s.frSwap p, fun p _ _ _ => State.watch_onMsg fun _ s => s.partnerReady p,
    fun _ _ => exec_hardResetRx, fun _ _ => exec_hardResetTx, fun _ _ => exec_cableReset⟩
  rw [exec_pdMessageRx false hdom hrole hen hlive, State.pdRx_of_badCrc]

end Sys2Proof.Machine
end

section
/-!
The partner memory, the budget and the power path of a port (chapters 07 and 08): what each of their commands leaves where
its condition holds.
-/

namespace Sys2Proof.Machine

section
variable {s : State} {p : Port} {x : PortSense}

/-! ### The partner memory (R237) -/

theorem exec_pmemWrite (hdue : ((s.port p).pmemDue || !(s.port p).pmemKept.isEmpty) = true)
    (hen : s.bit (F.PD_Pp_CFG_PMEM_EN p) = true) (hc2 : s.coreActs 2 = true) :
    exec (.pmemWrite p) s = .next (s.settled (s.pmemWrite p)) :=
  State.watch_onlyIf (fun s => s.pmemWrite p) (by rw [hdue, hen, hc2]; rfl)

section
variable (s : State) (p : Port) (f : PortState → PortState)

theorem State.modPort_entry : (s.modPort p f).entry = s.entry := rfl

theorem State.modPort_entries : (s.modPort p f).entries = s.entries := by
  rw [State.entries, State.entries, State.modPort_entry]

theorem State.modPort_findFacts (quick : Word) (id : List Byte) :
    (s.modPort p f).findFacts quick id = s.findFacts quick id := by
  rw [State.findFacts, State.findFacts, State.modPort_entries]

theorem State.modPort_freePlace : (s.modPort p f).freePlace = s.freePlace := by
  unfold State.freePlace
  rw [State.modPort_entries, State.modPort_entry]

end

/-- The place is made a variable first: `freePlace` searches 1 024 entries, too many to reduce it. -/
theorem State.placeEntry_of_new {i : Nat} (mk : Option (List Byte) → List Byte) (hplace : s.freePlace = some i) :
    s.placeEntry none mk = s.putEntry i (mk none) := by
  unfold State.placeEntry
  generalize s.freePlace = place at hplace
  subst hplace
  rfl

/-- A partner that has no entry yet, and no cable with an identity, takes one new place. -/
theorem State.writeFacts_of_new {f : PartnerFacts} {i : Nat} (hnew : s.findFacts f.quick f.id = none)
    (hplace : s.freePlace = some i) (hcable : f.cableId = []) :
    s.writeFacts f = s.putEntry i (partnerEntry f (s.fld F.PD_PMEM_STAMP_STAMP) none) := by
  rw [State.writeFacts, if_pos hcable, hnew, State.placeEntry_of_new _ hplace]

/-- Without a write kept from a partner that has detached, the present partner's is written. -/
theorem State.pmemWrite_of_noneKept (h : (s.port p).pmemKept = []) :
    s.pmemWrite p = (s.modPort p fun k => { k with pmemDue := false }).writeFacts (s.facts p) := by
  rw [State.pmemWrite, h]

theorem exec_pmemWrite_of_new {i : Nat} (hdue : (s.port p).pmemDue = true) (hkept : (s.port p).pmemKept = [])
    (hen : s.bit (F.PD_Pp_CFG_PMEM_EN p) = true) (hc2 : s.coreActs 2 = true)
    (hnew : s.findFacts (s.facts p).quick (s.facts p).id = none) (hplace : s.freePlace = some i)
    (hcable : (s.facts p).cableId = []) : exec (.pmemWrite p) s =
      .next (s.settled ((s.modPort p fun k => { k with pmemDue := false }).putEntry i
        (partnerEntry (s.facts p) (s.fld F.PD_PMEM_STAMP_STAMP) none))) := by
  rw [← State.modPort_findFacts s p fun k => { k with pmemDue := false }] at hnew
  rw [← State.modPort_freePlace s p fun k => { k with pmemDue := false }] at hplace
  rw [exec_pmemWrite (by rw [hdue]; rfl) hen hc2, State.pmemWrite_of_noneKept hkept,
    State.writeFacts_of_new hnew hplace hcable, State.modPort_fld_read]

/-! ### Grants (R225) -/

theorem State.attached_of_isSource (h : s.isSource p = true) : s.attached p = true := by
  have htc : (s.tc p == 7) = true := h
  simp [State.attached, htc]

theorem exec_grantRequest (want : Fin 1024) (hc0 : s.coreActs 0 = true) (hc2 : s.coreActs 2 = true)
    (hattached : s.attached p = true) : exec (.grantRequest p want) s = .next (s.settled (s.grantRequest p want.val)) :=
  State.watch_onlyIf (fun s => s.grantRequest p want.val) (by rw [hc0, hc2, hattached]; rfl)

/-- A sink is granted what lies within SNK_PMAX. -/
theorem State.grantRequest_sink {want : Nat} (hsink : s.isSource p = false)
    (hmax : want ≤ s.fld (F.PP_Pp_BUD_SNK_PMAX p)) :
    s.grantRequest p want = s.modPath p fun k => { k with intake := want } := by
  simp [State.grantRequest, State.askIntake, hsink, hmax]

/-- What a source wants is asked of the budget. -/
theorem State.grantRequest_source (want : Nat) (h : s.isSource p = true) :
    s.grantRequest p want = (s.askSource p want).2 := if_pos h

/-! ### Starting and discharging the path (R248, R249) -/

theorem exec_converterNodeQualified (hmode : s.mode x.port = 1) (hruns : s.portRuns x.port = true)
    (hopen : s.bit (F.PP_Pp_STATUS_FETS x.port) = false) (hsafe : (s.path x.port).safe0V = true)
    (hnode : within x.val 5000000 5 = true) : exec (.converterNodeQualified x) s = .next (s.settled (s.closeFets x.port)) :=
  State.watch_onlyIf (fun s => s.closeFets x.port) (by rw [hmode, hruns, hopen, hsafe, hnode]; rfl)

theorem exec_vreached (hmode : s.mode x.port = 1) (hst : s.loopSt (portLoop x.port) = 3)
    (href : s.refNow (portLoop x.port) = s.refTarget (portLoop x.port))
    (hbus : within x.val (s.sourceTarget x.port) 3 = true) : exec (.vreached x) s = .next (s.settled (s.vreached x.port)) :=
  State.watch_onlyIf (fun s => s.vreached x.port) (by simp [hmode, hst, href, hbus])

/-! ### Comparators and filters of the path (R250, R252, R261) -/

theorem exec_portOc (hmode : s.mode x.port = 1) (hruns : s.portRuns x.port = true)
    (hcl : s.bit (F.PP_Pp_STATUS_CL x.port) = true) (hbelow : x.val < s.portOcLimit x.port) :
    exec (.portOc x) s = .next (s.settled (s.fault (portLoop x.port) 0x15)) :=
  State.watch_onlyIf (fun s => s.fault (portLoop x.port) 0x15) (by simp [hmode, hruns, hcl, hbelow])

theorem exec_sinkUv (hsinks : s.sinks x.port = true) (hruns : s.portRuns x.port = true)
    (hbelow : 8 * x.val < 7 * 20000 * (s.contractVolt x.port : Nat)) :
    exec (.sinkUv x) s = .next (s.settled (s.fault (portLoop x.port) 0x16)) :=
  State.watch_onlyIf (fun s => s.fault (portLoop x.port) 0x16) (by rw [hsinks, hruns, decide_eq_true hbelow]; rfl)

theorem exec_sinkRestart (hwait : (s.path x.port).uvWait = true)
    (hbus : within x.val (20000 * (s.contractVolt x.port : Nat)) 5 = true) :
    exec (.sinkRestart x) s = .next (s.settled (((s.modPath x.port fun k => { k with uvWait := false }).sinkStart
      x.port).endIf (portLoop x.port) fun q => q.cause == 0x16)) :=
  State.watch_onlyIf (fun s => ((s.modPath x.port fun k => { k with uvWait := false }).sinkStart x.port).endIf
    (portLoop x.port) fun q => q.cause == 0x16) (by rw [hwait, hbus]; rfl)

/-- A bus that reaches the over-voltage threshold trips it (R261; log 95). -/
theorem exec_portOv (hon : (s.portRuns x.port || s.attached x.port) = true) (hreached : s.portOvLimit x.port ≤ x.val) :
    exec (.portOv x) s = .next (s.settled (s.fault (portLoop x.port) 0x11)) :=
  State.watch_onlyIf (fun s => s.portLatch x.port 0x11) (by rw [hon, decide_eq_true hreached]; rfl)

/-- A current that reaches the peak threshold in a high interval of the input leg trips it (R261; log 95). -/
theorem exec_peakTrip (hruns : s.portRuns x.port = true) (hpulsing : s.pulsing (s.inputLeg x.port) = true)
    (hreached : s.peakLimitUv x.port ≤ x.val) : exec (.peakTrip x) s = .next (s.settled (s.peakTrip x.port)) :=
  State.watch_onlyIf (fun s => s.peakTrip x.port) (by rw [hruns, hpulsing, decide_eq_true hreached]; rfl)

/-- Current out of a sink port, or into a source port, counts as reverse (R261; the sign is log 102). -/
theorem exec_revCur (hruns : s.portRuns x.port = true) (habove : (s.fld (F.PP_Pp_PROT_REV_LIM x.port) : Int) <
      if s.sinks x.port then s.busCurrent x.port x.val else -s.busCurrent x.port x.val) :
    exec (.revCur x) s = .next (s.settled (s.fault (portLoop x.port) 0x17)) :=
  State.watch_onlyIf (fun s => s.fault (portLoop x.port) 0x17) (by rw [hruns, decide_eq_true habove]; rfl)

theorem exec_dbOc (hpass : s.fld F.PP_DB_DB_ACTIVE = x.port.val) (habove : 60 < -s.busCurrent x.port x.val) :
    exec (.dbOc x) s = .next (s.settled (s.dbOc x.port)) :=
  State.watch_onlyIf (fun s => s.dbOc x.port) (by simp [hpass, habove])

/-! ### The source after a hard reset (R256) -/

theorem exec_tpshardreset (h : (s.path p).hr = .sourceWait) : exec (.tpshardreset p) s =
    .next (s.settled ((((s.pathOff p).openFets p).discharge p).modPath p fun k =>
      { k with hr := if k.safe0V then .recover else .falling })) :=
  State.watch_onlyIf (fun s => (((s.pathOff p).openFets p).discharge p).modPath p fun k =>
    { k with hr := if k.safe0V then .recover else .falling }) (by rw [h]; rfl)

theorem exec_tsrcrecover (hhr : (s.path p).hr = .recover) (hsource : s.isSource p = true) :
    exec (.tsrcrecover p) s = .next (s.settled ((s.sourceStart p).modPath p fun k => { k with hr := .sourceOn })) :=
  State.watch_onlyIf (fun s => (s.sourceStart p).modPath p fun k => { k with hr := .sourceOn }) (by rw [hhr, hsource]; rfl)

end

/-- Settles O24: each row is its operation where its condition holds. A row whose condition is one fact is
`State.watch_onlyIf` of it; DSCHG_DONE, VSYS_SHED and VSYS_OV have no condition; the others have theorems of their own.
The sign of a reverse current is log 102, and that a threshold reached counts as crossed is log 95. -/
theorem portPathAndBudgetCommandsComplete : Obligations.PortPathAndBudgetCommandsComplete := by
  unfold Obligations.PortPathAndBudgetCommandsComplete
  refine ⟨fun _ _ _ => exec_pmemWrite_of_new, fun _ _ => exec_pmemWrite,
    fun p want s hc0 hc2 hattached hsink hmax => ?_, fun p want s hc0 hc2 hsource => ?_,
    fun _ => State.watch_onlyIf fun s => s.recompute.forAll fun (p : Port) t => t.readvertise p (s.fld (F.PP_Pp_MEAS_ALLOT p)),
    fun _ _ => exec_converterNodeQualified, fun _ _ => exec_vreached, fun p _ => State.watch_onlyIf fun s => s.gateClosed p,
    fun p _ => State.watch_onlyIf fun s => (s.modPath p fun k => { k with closing := false }).fault (portLoop p) 0x18,
    fun _ _ => rfl,
    fun p _ => State.watch_onlyIf fun s => (s.setBit (F.PP_Pp_STATUS_DSCHG p) false).fault (portLoop p) 0x19,
    fun _ _ => exec_portOc, fun _ _ => exec_sinkUv, fun _ _ => exec_sinkRestart,
    fun p _ => State.watch_onlyIf fun s => s.modChan (s.outputLeg p) fun c => { c with scHold := true },
    fun _ _ => exec_tpshardreset, fun _ _ => exec_tsrcrecover, fun _ => rfl, fun _ => rfl, fun _ _ => exec_portOv,
    fun _ _ => exec_peakTrip, fun _ _ => exec_revCur, fun _ _ => exec_dbOc,
    fun p _ => State.watch_onlyIf fun s => ((s.modPath p fun k => { k with dbRetry := false }).tryPass p).endIf (portLoop p)
      fun q => q.cause == 0x1A⟩
  · rw [exec_grantRequest want hc0 hc2 hattached, State.grantRequest_sink hsink hmax]
  · rw [exec_grantRequest want hc0 hc2 (State.attached_of_isSource hsource), State.grantRequest_source _ hsource]

end Sys2Proof.Machine
end

section
/-!
The shared power budget of C0 (R265, R266): an allotment in the making is always the ledger of what each counted consumer
has been given, so that its balance is known from the gifts alone, and each step of R266 keeps it.
-/

namespace Sys2Proof.Machine

variable (s : State)

/-! ### Costs (R265) -/

/-- Every cost is so many times the cost of one step: 0.25 W of a port, 1 A of a rail. -/
theorem State.costOf_eq_mul (c : Consumer) (x : Nat) : s.costOf c x = x * s.costOf c 1 := by
  cases c with
  | rail l => simp only [State.costOf, State.railCost]; push_cast; ring
  | port p => simp only [State.costOf, State.portCost]; push_cast; ring

theorem State.costOf_add (c : Consumer) (x y : Nat) : s.costOf c (x + y) = s.costOf c x + s.costOf c y := by
  rw [s.costOf_eq_mul c (x + y), s.costOf_eq_mul c x, s.costOf_eq_mul c y, Nat.cast_add, add_mul]

/-! ### The ledger of an allotment -/

/-- R265: the consumers that count, rails before ports. -/
def State.countedConsumers : List Consumer := consumers.filter s.counted

/-- What all counted consumers cost when each has what `f` gives it. -/
def State.totalCost (f : Consumer → Nat) : Rat := (s.countedConsumers.map fun c => s.costOf c (f c)).sum

/-- The allotment that gives each counted consumer what `f` does: its balance is the supply without what is held back
and without what the gifts cost. -/
def State.ledger (f : Consumer → Nat) : Allot :=
  { avail := s.supply - s.heldBack - s.totalCost f, given := s.countedConsumers.map fun c => (c, f c) }

/-- R266: one consumer's turn in the round of its priority. -/
def State.giveStep (a : Allot) (c : Consumer) : Allot :=
  { avail := a.avail - s.costOf c (s.addStep a c),
    given := a.given.map fun g => if g.1 = c then (c, g.2 + s.addStep a c) else g }

/-- R266: the floors first, then a turn for each counted consumer in each round of priority. -/
theorem State.allot_eq_foldl : s.allot = (List.range 8).foldl (fun a prio =>
    (s.countedConsumers.filter fun c => s.prioOf c == prio).foldl s.giveStep a) (s.ledger s.floorOf) := rfl

theorem State.budgetShort_eq : s.budgetShort = decide ((s.ledger s.floorOf).avail < 0) := rfl

theorem State.countedConsumers_nodup : s.countedConsumers.Nodup :=
  List.Nodup.filter _ (by decide : consumers.Nodup)

variable {s} {f : Consumer → Nat} {a : Allot} {c : Consumer}

theorem State.counted_of_mem (hc : c ∈ s.countedConsumers) : s.counted c = true := (List.mem_filter.mp hc).2

/-- What the ledger shows as given to a counted consumer is what it has been given. -/
theorem State.ledger_of (hc : c ∈ s.countedConsumers) : (s.ledger f).of c = f c := by
  have hfind : ∀ cs : List Consumer, c ∈ cs → (cs.map fun d => (d, f d)).find? (fun g => g.1 == c) = some (c, f c) := by
    intro cs hmem
    induction cs with
    | nil => cases hmem
    | cons d ds ih =>
      by_cases hd : d = c
      · simp [hd]
      · simpa [hd] using ih ((List.mem_cons.mp hmem).resolve_left (Ne.symm hd))
  simp only [Allot.of, State.ledger, hfind _ hc]

/-- A consumer counts once, so a larger gift to it adds the cost of the difference and no more. -/
theorem State.totalCost_update (hc : c ∈ s.countedConsumers) (x : Nat) :
    s.totalCost (Function.update f c (f c + x)) = s.totalCost f + s.costOf c x := by
  have hgift : (fun d => s.costOf d (Function.update f c (f c + x) d)) =
      fun d => if d = c then s.costOf c (f c + x) else s.costOf d (f d) := by
    funext d
    by_cases hd : d = c
    · subst hd; simp
    · simp [hd]
  rw [State.totalCost, hgift, List.sum_map_ite_eq, List.count_eq_one_of_mem s.countedConsumers_nodup hc,
    s.costOf_add, State.totalCost]
  ring

/-- A turn of a counted consumer leaves a ledger: that of the larger gift. -/
theorem State.giveStep_ledger (hc : c ∈ s.countedConsumers) :
    s.giveStep (s.ledger f) c = s.ledger (Function.update f c (f c + s.addStep (s.ledger f) c)) := by
  have havail : ∀ x, (s.ledger f).avail - s.costOf c x = (s.ledger (Function.update f c (f c + x))).avail := fun x => by
    simp only [State.ledger, State.totalCost_update hc]; ring
  have hgiven : ∀ x, ((s.ledger f).given.map fun g => if g.1 = c then (c, g.2 + x) else g) =
      (s.ledger (Function.update f c (f c + x))).given := fun x => by
    simp only [State.ledger, List.map_map]
    refine List.map_congr_left fun d _ => ?_
    by_cases hd : d = c
    · subst hd; simp
    · simp [hd]
  rw [State.giveStep, havail, hgiven]

/-! ### What a step may add (R266) -/

theorem State.addStep_le_want : s.addStep a c ≤ s.wantOf c - a.of c := Nat.min_le_left _ _

/-- While something is left, a step costs no more than that: either steps cost nothing, or as many are given as what is
left pays for. -/
theorem State.costOf_addStep_le (havail : 0 ≤ a.avail) : s.costOf c (s.addStep a c) ≤ a.avail := by
  rw [s.costOf_eq_mul]
  by_cases hunit : s.costOf c 1 ≤ 0
  · exact (mul_nonpos_of_nonneg_of_nonpos (Nat.cast_nonneg _) hunit).trans havail
  · have hpos : 0 < s.costOf c 1 := not_le.mp hunit
    have hstep : s.addStep a c ≤ (a.avail / s.costOf c 1).floor.toNat := by
      simp only [State.addStep, if_neg hunit, max_eq_left havail]
      exact (Nat.min_le_right _ _).trans (Nat.min_le_left _ _)
    have hpaid : ((s.addStep a c : Nat) : Rat) ≤ a.avail / s.costOf c 1 :=
      (Nat.le_floor_iff (div_nonneg havail hpos.le)).mp hstep
    exact (le_div_iff₀ hpos).mp hpaid

/-! ### What every step of the allotment keeps -/

/-- The allotment is the ledger of gifts between floor and want, and what is left of it is not negative unless the floors
alone were too much. -/
def State.AllotsWithin (s : State) (a : Allot) : Prop :=
  ∃ f, a = s.ledger f ∧ (∀ c, s.floorOf c ≤ f c ∧ f c ≤ s.wantOf c) ∧ (s.budgetShort = false → 0 ≤ a.avail)

theorem State.floorOf_le_wantOf : s.floorOf c ≤ s.wantOf c := by
  cases c with
  | rail l => exact Nat.min_le_right _ _
  | port p => exact Nat.min_le_right _ _

theorem State.allotsWithin_floors : s.AllotsWithin (s.ledger s.floorOf) :=
  ⟨s.floorOf, rfl, fun _ => ⟨le_rfl, State.floorOf_le_wantOf⟩, fun hfloors => by
    rw [State.budgetShort_eq, decide_eq_false_iff_not] at hfloors
    exact not_lt.mp hfloors⟩

theorem State.AllotsWithin.giveStep (ha : s.AllotsWithin a) (hc : c ∈ s.countedConsumers) :
    s.AllotsWithin (s.giveStep a c) := by
  obtain ⟨f, rfl, hf, havail⟩ := ha
  refine ⟨_, State.giveStep_ledger hc, fun d => ?_, fun hfloors => ?_⟩
  · have hadd : s.addStep (s.ledger f) c ≤ s.wantOf c - f c := by
      simpa only [State.ledger_of hc] using State.addStep_le_want (s := s) (a := s.ledger f) (c := c)
    have hfc := hf c
    by_cases hd : d = c
    · subst hd; rw [Function.update_self]; omega
    · rw [Function.update_of_ne hd]; exact hf d
  · exact sub_nonneg.mpr (State.costOf_addStep_le (havail hfloors))

theorem State.allotsWithin_allot (s : State) : s.AllotsWithin s.allot := by
  rw [State.allot_eq_foldl]
  refine List.foldlRecOn _ _ State.allotsWithin_floors fun a ha prio _ => ?_
  exact List.foldlRecOn _ _ ha fun _ hb _ hc => hb.giveStep (List.mem_of_mem_filter hc)

/-! ### The statement -/

theorem State.allot_between {g : Consumer × Nat} (hg : g ∈ s.allot.given) :
    s.counted g.1 = true ∧ s.floorOf g.1 ≤ g.2 ∧ g.2 ≤ s.wantOf g.1 := by
  obtain ⟨f, hledger, hf, -⟩ := s.allotsWithin_allot
  rw [hledger] at hg
  obtain ⟨c, hc, rfl⟩ := List.mem_map.mp hg
  exact ⟨State.counted_of_mem hc, hf c⟩

theorem State.allot_cost_le (hfloors : s.budgetShort = false) :
    (s.allot.given.map fun g => s.costOf g.1 g.2).sum + s.heldBack ≤ s.supply := by
  obtain ⟨f, hledger, -, havail⟩ := s.allotsWithin_allot
  have hleft := havail hfloors
  rw [hledger] at hleft ⊢
  have hcost : ((s.ledger f).given.map fun g => s.costOf g.1 g.2).sum = s.totalCost f := by
    simp only [State.ledger, List.map_map, State.totalCost, Function.comp_def]
  simp only [State.ledger] at hleft
  rw [hcost]
  linarith

theorem State.budgetShort_iff : s.budgetShort = true ↔ s.supply < s.totalCost s.floorOf + s.heldBack := by
  rw [State.budgetShort_eq, decide_eq_true_iff, State.ledger, sub_neg, sub_lt_iff_lt_add]

/-- R254: a port whose detection is not armed has no standing budget. -/
theorem State.heldBack_of_no_frs (hfrs : ∀ p : Port, s.bit (F.PD_Pp_STATUS_FRS_ARMED p) = false) :
    s.heldBack = (s.fld F.PP_BUDGET_RESERVE : Rat) := by
  have hnone : s.standing = fun _ => 0 := funext fun p => by simp [State.standing, hfrs p]
  simp [State.heldBack, hnone]

/-- Settles O25: the floors make a ledger between floor and want and each turn of R266 keeps it one
(`State.AllotsWithin`), at a cost of no more than what is left. As in log 20, SRC_PMAX bounds the steps alone and the
floors are given in full, so SHORT speaks of the floors; as in log 21, the standing budgets are held back. -/
theorem theBudgetIsNotOverspent : Obligations.TheBudgetIsNotOverspent := by
  unfold Obligations.TheBudgetIsNotOverspent
  exact ⟨fun _ _ => State.allot_between, fun _ => State.allot_cost_le, fun _ => State.budgetShort_iff,
    fun _ => State.heldBack_of_no_frs⟩

end Sys2Proof.Machine
end

section
/-!
The sequencer (chapter 09): what each of its commands leaves where its condition holds, what the end of a step implies for
the rails of its state, and what the entry of a step sets.
-/

namespace Sys2Proof.Machine

/-! ### Rails (R276-R278, R280-R282) -/

section
variable {s : State} {n : Rail} {x : RailSense} {k : Nat}

theorem exec_railOn (hstep : s.inUpStep n = true) (hon : s.seq.rails[n].onDone = false) :
    exec (.railOn n) s = .next (s.settled (s.turnOn n)) :=
  State.watch_onlyIf (fun s => s.turnOn n) (by rw [hstep, hon]; rfl)

theorem exec_railOff (hdir : s.dir = 2) (hstate : s.railState n = s.cur) (hoff : s.seq.rails[n].offDone = false) :
    exec (.railOff n) s = .next (s.settled ((s.modRail n fun r => { r with offDone := true }).turnOff n)) :=
  State.watch_onlyIf (fun s => (s.modRail n fun r => { r with offDone := true }).turnOff n) (by rw [hdir, hstate, hoff]; simp)

theorem exec_railGood (hon : s.railIsOn n = true) (hinside : s.bit (F.SEQ_Sn_STAT_INSIDE n) = true)
    (hpg : s.bit (F.SEQ_Sn_CFG_PG_REQ n) = true) :
    exec (.railGood n) s = .next (s.settled (s.setBit (F.SEQ_Sn_STAT_GOOD n) true)) :=
  State.watch_onlyIf (fun s => s.setBit (F.SEQ_Sn_STAT_GOOD n) true) (by rw [hon, hinside, hpg]; rfl)

theorem exec_railBad (hgood : s.railIsGood n = true) (hpg : s.bit (F.SEQ_Sn_CFG_PG_REQ n) = true)
    (houtside : s.bit (F.SEQ_Sn_STAT_INSIDE n) = false) : exec (.railBad n) s = .next (s.settled (s.railBad n)) :=
  State.watch_onlyIf (fun s => s.railBad n) (by rw [hgood, hpg, houtside]; rfl)

theorem exec_railReadsOff (hdir : s.dir = 2) (hstate : s.railState x.rail = s.cur)
    (hoff : s.seq.rails[x.rail].offDone = true) (hsense : s.senseOff x = true) :
    exec (.railReadsOff x) s = .next (s.settled (s.modRail x.rail fun r => { r with readsOff := true })) :=
  State.watch_onlyIf (fun s => s.modRail x.rail fun r => { r with readsOff := true }) (by rw [hdir, hstate, hoff, hsense]; simp)

/-- Which rails are in a power-up step is told by SEQ_STATUS and the rails' configuration, not by their status. -/
theorem State.inUpStep_setBit_inside (s : State) (n : Rail) (b : Bool) :
    (s.setBit (F.SEQ_Sn_STAT_INSIDE n) b).inUpStep n = s.inUpStep n := by
  have hstatus : A.SEQ_STATUS ≠ A.SEQ_Sn_STAT n := by unfold A.SEQ_STATUS A.SEQ_Sn_STAT; omega
  have hcfg : A.SEQ_Sn_CFG n ≠ A.SEQ_Sn_STAT n := by unfold A.SEQ_Sn_CFG A.SEQ_Sn_STAT; omega
  have hdir : (s.setBit (F.SEQ_Sn_STAT_INSIDE n) b).dir = s.dir := State.fld_setFld_reg s _ hstatus
  have hcur : (s.setBit (F.SEQ_Sn_STAT_INSIDE n) b).cur = s.cur := State.fld_setFld_reg s _ hstatus
  have hstate : (s.setBit (F.SEQ_Sn_STAT_INSIDE n) b).railState n = s.railState n := State.fld_setFld_reg s _ hcfg
  simp only [State.inUpStep, hdir, hcur, hstate, State.setBit_seq]

/-- Outside the rail's power-up step a crossing counts for nothing (R286): it only moves INSIDE. -/
theorem State.crossing_of_not_inUpStep (h : s.inUpStep n = false) (within : Bool) :
    s.crossing n within = s.setBit (F.SEQ_Sn_STAT_INSIDE n) (within && s.canBeInside n) := by
  simp [State.crossing, State.inUpStep_setBit_inside, h]

theorem exec_seqWindowCrossing (uv : Int) (h : s.inUpStep n = false) : exec (.seqWindowCrossing n uv) s =
    .next (s.settled (s.setBit (F.SEQ_Sn_STAT_INSIDE n) (s.windowInside n uv && s.canBeInside n))) := by
  show s.watch (doSeqWindowCrossing n uv s) = _
  rw [doSeqWindowCrossing, State.crossing_of_not_inUpStep h, State.watch]

/-! ### Deadlines (R285) -/

/-- Of several rails that are not good SEQ_FAULT names the lowest (log 29). -/
theorem State.pgTimeout_of_lowest
    (h : ((s.railsOf s.cur).find? fun n => !(s.seq.rails[n].onDone && s.railIsGood n)) = some n) :
    s.pgTimeout = (s.seqFault 1 3 (some n)).abort := by
  rw [State.pgTimeout, h]

theorem exec_pgTimeout (hdir : s.dir = 1) (hstep : s.seq.complete = false) (htmo : s.fld (F.SEQ_STk_UP_TMO s.cur) ≠ 0)
    (hlowest : ((s.railsOf s.cur).find? fun n => !(s.seq.rails[n].onDone && s.railIsGood n)) = some n) :
    exec .pgTimeout s = .next (s.settled ((s.seqFault 1 3 (some n)).abort)) := by
  rw [← State.pgTimeout_of_lowest hlowest]
  exact State.watch_onlyIf State.pgTimeout (by simp [hdir, hstep, htmo])

theorem exec_disTimeout (hdir : s.dir = 2) (htmo : s.fld (F.SEQ_STk_DN_TMO s.cur) ≠ 0) :
    exec .disTimeout s = .next (s.settled s.disTimeout) :=
  State.watch_onlyIf State.disTimeout (by simp [hdir, htmo])

/-! ### The group (R288, R289) -/

theorem exec_syncReleaseQualified (hready : s.seq.ready = true) (hhold : s.seq.holdOff = false) (hstep : s.cur ≠ s.target) :
    exec .syncReleaseQualified s = .next (s.settled s.syncStep) :=
  State.watch_onlyIf State.syncStep (by simp [hready, hhold, hstep])

theorem State.driveSync_seq (s : State) (low : Bool) : (s.driveSync low).seq = s.seq := by
  simp only [State.driveSync]
  split
  · rfl
  · split <;> rfl

/-- At the end of SYNC_HOLD a device that is not ready for the next step drives the line as SYNC_EN gives (log 50). -/
theorem exec_syncHoldEnd (hhold : s.seq.holdOff = true) (hready : s.seq.ready = false) : exec .syncHoldEnd s =
    .next (s.settled ((s.modSeq fun q => { q with holdOff := false }).driveSync s.syncEn)) := by
  show s.watch (doSyncHoldEnd s) = _
  rw [doSyncHoldEnd, State.watch_onlyIf _ hhold, if_neg (by simp [State.driveSync_seq, hready])]

theorem exec_syncTimeout (hready : s.seq.ready = true) (hhold : s.seq.holdOff = false)
    (htmo : s.fld F.SEQ_CFG_SYNC_TMO ≠ 0) : exec .syncTimeout s = .next (s.settled ((s.seqFault 3 3 none).abort)) :=
  State.watch_onlyIf (fun s => (s.seqFault 3 3 none).abort) (by simp [hready, hhold, htmo])

/-! ### The end of a step (R280-R282) -/

theorem State.mem_railsOf : n ∈ s.railsOf k ↔ s.railState n = k ∧ k ≠ 0 := by
  simp [State.railsOf, upto]

theorem State.upDone_rail (h : s.upDone = true) (hn : n ∈ s.railsOf s.cur) :
    s.seq.rails[n].onDone = true ∧ s.railIsGood n = true := by
  simp only [State.upDone, Bool.and_eq_true, List.all_eq_true] at h
  obtain ⟨⟨-, hrails⟩, -⟩ := h
  exact hrails n hn

theorem State.downDone_rail (h : s.downDone = true) (hn : n ∈ s.railsOf s.cur) :
    s.seq.rails[n].offDone = true ∧ s.railReads n = true := by
  simp only [State.downDone, Bool.and_eq_true, List.all_eq_true] at h
  obtain ⟨-, hrails⟩ := h
  exact hrails n hn

/-- An external rail reads off by its threshold, or without wait for discharge at its off instant. -/
theorem State.railReads_external (h : 8 ≤ n.val) : s.railReads n = true ↔
    s.seq.rails[n].readsOff = true ∨ (s.bit (F.SEQ_Sn_CFG_DIS_WAIT n) = false ∧ s.seq.rails[n].offDone = true) := by
  simp [State.railReads, railLoop?, Nat.not_lt.mpr h]

/-- A rail loop reads off in STATE 0 or 6, or once it has qualified or is excused. -/
theorem State.railReads_loop (h : n.val < 8) : s.railReads n = true ↔
    s.seq.rails[n].readsOff = true ∨ s.loopSt ⟨n.val, by omega⟩ = 0 ∨ s.loopSt ⟨n.val, by omega⟩ = 6 := by
  simp [State.railReads, railLoop?, h]

end

/-! ### The entry of a step (R280, R281, R296) -/

section
variable {f : Fld}

/-- A field that no turn of a fold changes reads after it as before. -/
theorem State.fld_foldl {α : Type} {g : State → α → State} (hg : ∀ t a, (g t a).fld f = t.fld f) (l : List α) (s : State) :
    (l.foldl g s).fld f = s.fld f :=
  List.foldlRecOn (motive := fun t => t.fld f = s.fld f) l g rfl fun t ht a _ => (hg t a).trans ht

/-- A reset output moves its own register and its crown cause, not SEQ_STATUS. -/
theorem State.fld_driveRst_of_status (hf : f.addr = A.SEQ_STATUS) (s : State) (m : Fin 4) (high : Bool) :
    (s.driveRst m high).fld f = s.fld f := by
  have hrst : f.addr ≠ A.SEQ_RSTm m := by rw [hf]; unfold A.SEQ_STATUS A.SEQ_RSTm; omega
  have hcause : f.addr ≠ A.IRQ_CAUSEg 8 := by rw [hf]; decide
  unfold State.driveRst
  split
  · rfl
  · exact (State.fld_setFld_reg _ _ hcause).trans (State.fld_setFld_reg _ _ hrst)

theorem State.fld_assertRst_of_status (hf : f.addr = A.SEQ_STATUS) (s : State) (k : Nat) :
    (s.assertRst k).fld f = s.fld f := by
  refine State.fld_foldl (fun t m => ?_) _ s
  by_cases hm : t.fld (F.SEQ_RSTm_STATE m) ≤ k
  · simp only [if_pos hm]
    exact State.fld_driveRst_of_status hf t m false
  · simp only [if_neg hm]

/-- Clearing the rails of a state that is entered leaves SEQ_STATUS. -/
theorem State.fld_enterUp_rails_of_status (hf : f.addr = A.SEQ_STATUS) (l : List Rail) (s : State) :
    (l.foldl (fun t (n : Rail) => (((t.setFld (F.SEQ_Sn_STAT_CHAT n) 0).setBit (F.SEQ_Sn_STAT_FORCED n) false).modRail n
      fun _ => { onDone := false, offDone := false, readsOff := false, was := false })) s).fld f = s.fld f := by
  refine State.fld_foldl (fun t n => ?_) l s
  have hstat : f.addr ≠ A.SEQ_Sn_STAT n := by rw [hf]; unfold A.SEQ_STATUS A.SEQ_Sn_STAT; omega
  rw [State.modRail, State.modSeq_fld_read]
  exact (State.fld_setFld_reg (f := F.SEQ_Sn_STAT_FORCED n) _ _ hstat).trans
    (State.fld_setFld_reg (f := F.SEQ_Sn_STAT_CHAT n) _ _ hstat)

theorem State.dir_enterUp (s : State) (k : Nat) : (s.enterUp k).dir = 1 :=
  calc (s.enterUp k).dir
    _ = (((s.setCur k).setFld F.SEQ_STATUS_DIR 1).setBit F.SEQ_STATUS_REACHED false).dir :=
      State.fld_enterUp_rails_of_status rfl _ _
    _ = ((s.setCur k).setFld F.SEQ_STATUS_DIR 1).dir := State.fld_setFld_beside _ _ (by decide)
    _ = 1 := State.fld_setFld_same _ _ (by decide)

/-- In the registers the entry of a power-down step is the fall of the reset outputs, DIR and REACHED: what it clears of
the rails is no register. -/
theorem State.fld_enterDown (s : State) : s.enterDown.fld f =
    (((s.assertRst s.cur).setFld F.SEQ_STATUS_DIR 2).setBit F.SEQ_STATUS_REACHED false).fld f :=
  State.fld_foldl (g := fun t (n : Rail) => t.modRail n fun r => { r with offDone := false, readsOff := false })
    (fun _ _ => rfl) _ _

theorem State.dir_enterDown (s : State) : s.enterDown.dir = 2 :=
  calc s.enterDown.dir
    _ = (((s.assertRst s.cur).setFld F.SEQ_STATUS_DIR 2).setBit F.SEQ_STATUS_REACHED false).dir :=
      State.fld_enterDown s
    _ = ((s.assertRst s.cur).setFld F.SEQ_STATUS_DIR 2).dir := State.fld_setFld_beside _ _ (by decide)
    _ = 2 := State.fld_setFld_same _ _ (by decide)

theorem State.cur_enterDown (s : State) : s.enterDown.cur = s.cur :=
  calc s.enterDown.cur
    _ = (((s.assertRst s.cur).setFld F.SEQ_STATUS_DIR 2).setBit F.SEQ_STATUS_REACHED false).cur :=
      State.fld_enterDown s
    _ = ((s.assertRst s.cur).setFld F.SEQ_STATUS_DIR 2).cur := State.fld_setFld_beside _ _ (by decide)
    _ = (s.assertRst s.cur).cur := State.fld_setFld_beside _ _ (by decide)
    _ = s.cur := State.fld_assertRst_of_status rfl s s.cur

end

/-- Settles O27: the rails of a state are `State.mem_railsOf`, and each of them has what `upDone` or `downDone` asks of it;
the entry of a step writes SEQ_STATUS once the reset outputs have fallen and before it turns to the rails, and neither of
these reaches that register. -/
theorem aSequencerStepCompletesInOrder : Obligations.ASequencerStepCompletesInOrder := by
  unfold Obligations.ASequencerStepCompletesInOrder
  refine ⟨fun s n hdone hstate hcur => s.upDone_rail hdone (State.mem_railsOf.mpr ⟨hstate, hcur⟩),
    fun s n hdone hstate hcur => s.downDone_rail hdone (State.mem_railsOf.mpr ⟨hstate, hcur⟩),
    fun s n hext => (State.railReads_external hext).mp, fun s n hloop hreads => ?_,
    fun s _ => ⟨s.dir_enterUp _, s.dir_enterDown, s.cur_enterDown⟩⟩
  rw [State.railReads_loop hloop, hreads]
  simp

/-- Settles O26: each row is its operation where its condition holds; the ends of the steps and RSTOUT_RELEASE have one
condition, and their operation is `State.watch_onlyIf` of it. That PG_TIMEOUT names the lowest rail is log 29, the sense of
a rail loop outside STATE 3 and 5 is log 69, and the line after SYNC_HOLD is log 50. -/
theorem sequencerCommandsComplete : Obligations.SequencerCommandsComplete := by
  unfold Obligations.SequencerCommandsComplete
  exact ⟨fun _ _ => exec_railOn, fun _ _ => exec_railOff, fun _ uv _ => exec_seqWindowCrossing uv, fun _ _ => exec_railGood,
    fun _ _ => exec_railBad, fun _ _ => exec_railReadsOff, fun late _ => State.watch_onlyIf fun s => s.upComplete late,
    fun _ => State.watch_onlyIf State.downComplete, fun _ _ => exec_pgTimeout, fun _ => exec_disTimeout,
    fun _ => exec_syncReleaseQualified, fun _ => exec_syncHoldEnd, fun _ => exec_syncTimeout,
    fun m _ => State.watch_onlyIf fun s => (s.driveRst m true).modRst m fun _ => { stretch := false, lossHeld := false }⟩

end Sys2Proof.Machine
end

section
/-!
Transactions on a host port (R303-R309, R315, R316): the row of a command is one transaction of its port, which commits a
write, or answers a read, that the port serves; and the page of each port.
-/

namespace Sys2Proof.Machine

section
variable {s : State} {h : HostId} {t : Txn} {cmd : HostCmd} {c : Instr} {bs : List Byte} {f : State → HostRead}

/-! ### Return codes (R321, Table 10.4) -/

@[simp] theorem State.hostCode_out (s : State) (h : HostId) (code : Nat) : (s.hostCode h code).out = s.out := by
  unfold State.hostCode State.setCml
  dsimp only
  repeat' split
  all_goals rfl

/-- A code outside Table 10.4 is recorded and sets no bit of STATUS_CML. -/
theorem State.hostCode_of_noCml (s : State) (h : HostId) {code : Nat} (hdown : code ≠ 0xA)
    (hbad : badDataCodes.contains code = false) : s.hostCode h code = s.setFld (F.HP_TWk_STATUS_LAST_CODE h) code := by
  unfold State.hostCode
  dsimp only
  rw [if_neg hdown, hbad]
  exact if_neg Bool.false_ne_true

/-! ### What a transaction comes to -/

theorem State.regTransact_of_up (hup : ∀ bs : List Byte, t.write = some bs → s.mbxDownAt h bs = false) :
    s.regTransact h t cmd = s.transact h t cmd := by
  unfold State.regTransact
  cases hw : t.write with
  | none => simp
  | some bs => simp [hup bs hw]

/-- The row of a command is its transaction, where the write, if it is one, names no mailbox whose receiver is down. -/
theorem exec_of_transaction (hc : c.transaction? = some (h, t, cmd))
    (hup : ∀ bs : List Byte, t.write = some bs → s.mbxDownAt h bs = false) :
    exec c s = .next (s.settled (s.transact h t cmd)) := by
  have hreg : s.regTransact h t cmd = s.transact h t cmd := State.regTransact_of_up hup
  cases c
  case regWrite => cases hc; rw [← hreg]; rfl
  case regMaskwrite => cases hc; rw [← hreg]; rfl
  all_goals cases hc <;> rfl

theorem State.transact_of_write (hs : s.Served h t cmd) (hw : t.write = some bs) :
    s.transact h t cmd = s.commitWrite h t cmd bs := by
  obtain ⟨hanswers, hhears, hserves⟩ := hs
  simp [State.transact, hanswers, hhears, hserves, hw]

theorem State.transact_of_read (hs : s.Served h t cmd) (hr : t.write = none) :
    s.transact h t cmd = s.readCommand h t cmd := by
  obtain ⟨hanswers, hhears, hserves⟩ := hs
  simp [State.transact, hanswers, hhears, hserves, hr]

/-! ### Writes (R305, R308) -/

theorem State.commitWrite_of_badPec (hpec : s.pecFails h t = true) : s.commitWrite h t cmd bs =
    ((s.satInc (F.HP_TWk_CNT_PEC_ERR h)).setFld ((F.HP_TWk_STATUS_CML h).at 5) 1).setFld (F.HP_TWk_STATUS_LAST_CODE h) 0xC :=
  (if_pos hpec).trans (State.hostCode_of_noCml _ h (by decide) (by decide))

theorem State.commitWrite_of_badCount (hpec : s.pecFails h t = false) (hcount : cmd.count ≠ some bs.length) :
    s.commitWrite h t cmd bs = s.hostCode h 0xB := by
  simp [State.commitWrite, hpec, hcount]

theorem State.commitWrite_of_good (hpec : s.pecFails h t = false) (hcount : cmd.count = some bs.length) :
    s.commitWrite h t cmd bs = (cmd.write s bs).1.hostCode h (cmd.write s bs).2 := by
  simp [State.commitWrite, hpec, hcount]

/-- A write of a command, up to what its checks make of it. -/
theorem exec_hostWrite (hc : c.transaction? = some (h, t, cmd)) (hs : s.Served h t cmd) (hw : t.write = some bs)
    (hup : s.mbxDownAt h bs = false) : exec c s = .next (s.settled (s.commitWrite h t cmd bs)) := by
  rw [exec_of_transaction hc fun bs' hw' => by rwa [Option.some.inj (hw'.symm.trans hw)], State.transact_of_write hs hw]

theorem State.pecFails_eq_true (hpec : t.pec = .bad ∨ (t.pec = .absent ∧ s.bit (F.HP_TWk_CFG_PEC_REQ h) = true)) :
    s.pecFails h t = true := by
  rcases hpec with hbad | ⟨habsent, hreq⟩
  · simp [State.pecFails, hbad]
  · simp [State.pecFails, habsent, hreq]

theorem State.pecFails_eq_false (hpec : t.pec = .good ∨ (t.pec = .absent ∧ s.bit (F.HP_TWk_CFG_PEC_REQ h) = false)) :
    s.pecFails h t = false := by
  rcases hpec with hgood | ⟨habsent, hreq⟩
  · simp [State.pecFails, hgood]
  · simp [State.pecFails, habsent, hreq]

/-! ### Reads (R305, R307, R308) -/

theorem State.readCommand_of_stretched (hstretch : s.overStretched h = true) : s.readCommand h t cmd = s.stretchOut h true :=
  if_pos hstretch

theorem State.readCommand_of_read (hstretch : s.overStretched h = false) (hread : cmd.read = some f) : s.readCommand h t cmd =
    ((f s).state.emit (.reply h (f s).data (readPec t.addr cmd.code (f s).data))).hostCode h (f s).code := by
  simp [State.readCommand, hstretch, hread]

theorem State.readCommand_of_noRead (hstretch : s.overStretched h = false) (hread : cmd.read = none) :
    s.readCommand h t cmd = s.hostCode h 0xB := by
  simp [State.readCommand, hstretch, hread]

/-- A read of a command, up to what the port's stretching makes of it. -/
theorem exec_hostRead (hc : c.transaction? = some (h, t, cmd)) (hs : s.Served h t cmd) (hr : t.write = none) :
    exec c s = .next (s.settled (s.readCommand h t cmd)) := by
  rw [exec_of_transaction hc fun bs hw => by simp [hr] at hw, State.transact_of_read hs hr]

/-! ### Pages (R315) -/

theorem State.page_of_fld {u : State} {i : Nat} (hfld : u.fld (F.HP_TWk_STATUS_PAGE h) = i) (hi : i < 12) :
    (u.page h).val = i := by
  rw [State.page, hfld]
  exact Nat.mod_eq_of_lt hi

/-- A field of the status register of one port is none of another's. -/
theorem State.page_setFld_of_ne {g : HostId} (hg : g ≠ h) {f : Fld} (hf : f.addr = A.HP_TWk_STATUS h) (s : State) (v : Nat) :
    (s.setFld f v).page g = s.page g := by
  have hne : g.val ≠ h.val := fun e => hg (Fin.ext e)
  have haddr : A.HP_TWk_STATUS g ≠ f.addr := by
    rw [hf]
    unfold A.HP_TWk_STATUS
    omega
  rw [State.page, State.page, State.fld_setFld_reg s v haddr]

theorem leNat_singleton (b : Byte) : leNat [b] = b.toNat := by simp [leNat]

theorem exec_pageWrite {b : Byte} {u : State} {code : Nat} (hs : s.Served h t (cmdPage h)) (hw : t.write = some [b])
    (hpec : s.pecFails h t = false) (hwrite : (cmdPage h).write s [b] = (u, code)) :
    exec (.page h t) s = .next (s.settled (u.hostCode h code)) := by
  rw [exec_hostWrite (cmd := cmdPage h) rfl hs hw rfl, State.commitWrite_of_good hpec rfl, hwrite]

theorem cmdPage_write_of_lt {b : Byte} (hb : b.toNat < 12) :
    (cmdPage h).write s [b] = (s.setFld (F.HP_TWk_STATUS_PAGE h) b.toNat, 0) := by
  simp [cmdPage, leNat_singleton, hb]

theorem cmdPage_write_of_ge {b : Byte} (hb : 12 ≤ b.toNat) : (cmdPage h).write s [b] = (s, 0xF) := by
  simp [cmdPage, leNat_singleton, hb]

/-- A page that is taken, with OK recorded, is its port's alone. -/
theorem exec_page_of_lt (b : Byte) (hs : s.Served h t (cmdPage h)) (hw : t.write = some [b])
    (hpec : s.pecFails h t = false) (hb : b.toNat < 12) : ∃ u : State, exec (.page h t) s = .next (s.settled u)
      ∧ (u.page h).val = b.toNat ∧ u.fld (F.HP_TWk_STATUS_LAST_CODE h) = 0 ∧ ∀ g : HostId, g ≠ h → u.page g = s.page g := by
  refine ⟨(s.setFld (F.HP_TWk_STATUS_PAGE h) b.toNat).setFld (F.HP_TWk_STATUS_LAST_CODE h) 0, ?_, ?_, ?_, fun g hg => ?_⟩
  · rw [exec_pageWrite hs hw hpec (cmdPage_write_of_lt hb), State.hostCode_of_noCml _ h (by decide) (by decide)]
  · refine State.page_of_fld ?_ hb
    rw [State.fld_setFld_beside _ 0 (.inr (by decide : 0 + 16 ≤ 16)), State.fld_setFld_same s _ (by decide : 16 + 4 ≤ 32)]
    exact Nat.mod_eq_of_lt (hb.trans (by decide : 12 < 2 ^ 4))
  · exact State.fld_setFld_same _ 0 (by decide : 0 + 16 ≤ 32)
  · rw [State.page_setFld_of_ne hg rfl, State.page_setFld_of_ne hg rfl]

theorem State.pageWrite_of_notOwner (rails : Bool) (g : Loop → State × Nat) (hpage : (s.page h).val < 8)
    (hown : s.owner (s.page h).val ≠ h.val) : s.pageWrite h rails g = (s, 3) := by
  simp [State.pageWrite, Nat.not_le.mpr hpage, hown]

theorem State.pageWrite_of_owner (rails : Bool) (g : Loop → State × Nat) (hpage : (s.page h).val < 8)
    (hown : s.owner (s.page h).val = h.val) : s.pageWrite h rails g = g (s.page h) := by
  simp [State.pageWrite, Nat.not_le.mpr hpage, hown]

end

/-- Settles O28: a row is its transaction (`exec_of_transaction`), so a write is what its checks at STOP leave and a read
what the stretch point and the command leave. That a command without the transfer records BAD_FORMAT is log 71, and the
stretched read log 59. -/
theorem hostTransactionsComplete : Obligations.HostTransactionsComplete := by
  unfold Obligations.HostTransactionsComplete
  refine ⟨fun c h t cmd bs s hc hs hw hpec hcount hup => ?_, fun c h t cmd bs s hc hs hw hpec hcount hup => ?_,
    fun c h t cmd f s hc hs hr hstretch hread => ?_, fun c h t cmd s hc hs hr hstretch hread => ?_,
    fun c h t cmd s hc hs hr hstretch => ?_⟩
  · rw [exec_hostWrite hc hs hw hup, State.commitWrite_of_good hpec hcount]
  · rw [exec_hostWrite hc hs hw hup, State.commitWrite_of_badCount hpec hcount]
  · rw [exec_hostRead hc hs hr, State.readCommand_of_read hstretch hread]
  · rw [exec_hostRead hc hs hr, State.readCommand_of_noRead hstretch hread]
  · rw [exec_hostRead hc hs hr, State.readCommand_of_stretched hstretch]

/-- Settles O29: the PEC is the first check of a write (`State.commitWrite_of_badPec`), and what a read sends last is its
data with the PEC. -/
theorem packetErrorChecking : Obligations.PacketErrorChecking := by
  unfold Obligations.PacketErrorChecking
  refine fun c h t cmd s hc hs => ⟨fun bs hw hup hpec => ?_, fun bs _ hpec => State.pecFails_eq_false hpec,
    fun f hr hstretch hread => ⟨_, exec_hostRead hc hs hr, ?_⟩⟩
  · rw [exec_hostWrite hc hs hw hup, State.commitWrite_of_badPec (State.pecFails_eq_true hpec)]
  · rw [State.readCommand_of_read hstretch hread, State.hostCode_out]
    rfl

/-- Settles O30: PAGE writes a field of its port's own status register, and `State.pageWrite` asks for the owner of the
loop that this field names. -/
theorem pagesAreEachPortsOwn : Obligations.PagesAreEachPortsOwn := by
  unfold Obligations.PagesAreEachPortsOwn
  exact ⟨fun h t b s => exec_page_of_lt b, fun h t b s hs hw hpec hb => exec_pageWrite hs hw hpec (cmdPage_write_of_ge hb),
    fun h rails f s => State.pageWrite_of_notOwner rails f, fun h rails f s => State.pageWrite_of_owner rails f⟩

end Sys2Proof.Machine
end

section
/-!
What a host port does beside its commands (R306, R307, R309, R311, R313), and the rows of C0's answers to the tenancy
channels (R324).
-/

namespace Sys2Proof.Machine

section
variable {s : State} {h : HostId} {t : Txn} {code : Byte} {view : BitVec 16}

/-! ### Unsupported codes (R309) -/

theorem exec_unsupportedCommand_heard (hanswers : s.answers h t = true) (hhears : s.hears h t = true)
    (hserves : s.serves code.toNat = false) : exec (.unsupportedCommand h t code) s =
    .next (s.settled ((s.setFld ((F.HP_TWk_STATUS_CML h).at 7) 1).emit (.nack h))) :=
  State.watch_of_next (a := doUnsupportedCommand h t code s) (by
    simp [doUnsupportedCommand, State.onlyIf, State.refuseCommand, State.setCml, hanswers, hhears, hserves])

theorem exec_unsupportedCommand_lost (hanswers : s.answers h t = true) (hhears : s.hears h t = false) :
    exec (.unsupportedCommand h t code) s = .next (s.settled (s.emit (.nack h))) :=
  State.watch_of_next (a := doUnsupportedCommand h t code s) (by
    simp [doUnsupportedCommand, State.onlyIf, hanswers, hhears])

/-! ### Time-outs (R306, R307) -/

/-- ABANDONED sets no bit of STATUS_CML (Table 10.4). -/
theorem State.abandon_eq (s : State) (h : HostId) : s.abandon h =
    ((s.satInc (F.HP_TWk_CNT_ABANDONED h)).raise 10 15).setFld (F.HP_TWk_STATUS_LAST_CODE h) 0xD :=
  State.hostCode_of_noCml _ h (by decide) (by decide)

/-- STRETCH_TIMEOUT sets bit 1 of STATUS_CML by itself and none by its code. -/
theorem State.stretchOut_eq (s : State) (h : HostId) (read : Bool) : s.stretchOut h read =
    (if read then ((s.satInc (F.HP_TWk_CNT_STRETCH_TMO h)).raise 10 14).setFld ((F.HP_TWk_STATUS_CML h).at 1) 1
      else (((s.satInc (F.HP_TWk_CNT_STRETCH_TMO h)).raise 10 14).setFld ((F.HP_TWk_STATUS_CML h).at 1) 1).emit
        (.nack h)).setFld (F.HP_TWk_STATUS_LAST_CODE h) 0xE := by
  unfold State.stretchOut State.setCml
  rw [State.hostCode_of_noCml _ h (by decide) (by decide)]

/-! ### Host Notify (R311, R313) -/

theorem State.notifyRow_of_due {retry : Bool} (e : NotifyEnd) (hview : s.hosts[h].notify = some view) (hdom : s.domOn 2 = true)
    (hretry : decide (0 < s.hosts[h].losses) = retry) : s.notifyRow h retry e = s.notifyTry h view e := by
  unfold State.notifyRow
  simp only [hview, hdom, hretry, beq_self_eq_true, Bool.and_self, if_true]

theorem exec_hostNotify (e : NotifyEnd) (hview : s.hosts[h].notify = some view) (hdom : s.domOn 2 = true)
    (hfirst : s.hosts[h].losses = 0) : exec (.hostNotify h e) s = .next (s.settled (s.notifyTry h view e)) :=
  State.watch_of_next (congrArg _ (State.notifyRow_of_due e hview hdom (by rw [hfirst]; rfl)))

theorem exec_notifyRetry (e : NotifyEnd) (hview : s.hosts[h].notify = some view) (hdom : s.domOn 2 = true)
    (hlost : 0 < s.hosts[h].losses) : exec (.notifyRetry h e) s = .next (s.settled (s.notifyTry h view e)) :=
  State.watch_of_next (congrArg _ (State.notifyRow_of_due e hview hdom (decide_eq_true hlost)))

/-- The fourth loss of a notify gives it up (R313). -/
theorem State.notifyTry_fourthLoss (view : BitVec 16) (h3 : s.hosts[h].losses = 3) : s.notifyTry h view .lost =
    (((s.satInc (F.HP_TWk_CNT_CONTENTION h)).raise 10 (9 + h.val)).setFld ((F.HP_TWk_STATUS_CML h).at 1) 1).notifyFails h :=
  if_pos h3

/-! ### The tenancy channels (R324) -/

/-- C0, running an image's firmware, takes the channel that is first in order under the row of the operation its word
asks for. -/
theorem State.watch_tenancyRow {secure : Bool} {i : Fin 6} {op : Nat} (hi : i.val = if secure then h.val else h.val + 3)
    (hacts : s.coreActs 0 = true) (hfull : s.seedling = false) (hhouse : s.houseOp = false)
    (hfirst : s.tenancy.head? = some i) (hop : tenancyOp (s.reg (A.MBX_CHn_DATA (tenancyChan i))) = op) :
    s.watch (s.tenancyRow h secure op) = .next (s.settled (s.tenancy_ i)) := by
  have hplace : (if secure then ⟨h.val, by omega⟩ else ⟨h.val + 3, by omega⟩ : Fin 6) = i := by
    cases secure <;> exact Fin.ext hi.symm
  unfold State.tenancyRow
  simp only [hplace]
  exact State.watch_onlyIf (fun s => s.tenancy_ i) (by simp [hacts, hfull, hhouse, hfirst, hop])

end

/-- Settles O32: each row is its operation where its condition holds. That an unsupported code and a notify that fails
record no return code is log 71, and what SCL low leaves log 72. -/
theorem hostEventsAndTenancyComplete : Obligations.HostEventsAndTenancyComplete := by
  unfold Obligations.HostEventsAndTenancyComplete
  exact ⟨fun _ _ _ _ => exec_unsupportedCommand_heard, fun _ _ _ _ => exec_unsupportedCommand_lost,
    fun h _ hopen => (State.watch_onlyIf (fun s => s.abandon h) hopen).trans (by rw [State.abandon_eq]),
    fun h _ hopen => (State.watch_onlyIf (fun s => (s.abandon h).setCml h 1) hopen).trans
      (by rw [State.abandon_eq, State.setCml]),
    fun h read _ hopen => (State.watch_onlyIf (fun s => s.stretchOut h read) hopen).trans (by rw [State.stretchOut_eq]),
    fun _ _ _ => exec_hostNotify .sent, fun _ _ _ => exec_hostNotify .nacked, fun _ _ e _ => exec_notifyRetry e,
    fun h view s hview hdom h3 => (exec_notifyRetry .lost hview hdom (by omega)).trans
      (by rw [State.notifyTry_fourthLoss view h3]),
    fun _ _ _ _ => State.watch_tenancyRow, fun _ _ _ _ => State.watch_tenancyRow, fun _ _ _ _ => State.watch_tenancyRow⟩

end Sys2Proof.Machine
end

section
/-!
The mailboxes (R326-R331): what an accepted word and an answer leave in the channel's registers, and what a host on a port
that is not secure meets at a secure channel.
-/

namespace Sys2Proof.Machine

section
variable {s : State} {who : Writer} {n code a : Nat}

/-! ### Words (R328, R329) -/

theorem State.mbxSend_of_accepts (w : Word) (h : s.mbxCheck who n = 0) : s.mbxSend who n w = (s.mbxPut n w, 0) := by
  simp [State.mbxSend, h]

/-- Only MBX_DOWN of the refusals leaves a trace. -/
theorem State.mbxSend_of_refuses (w : Word) {c : Nat} (h : s.mbxCheck who n = c) (h0 : c ≠ 0) (hdown : c ≠ 0xA) :
    s.mbxSend who n w = (s, c) := by
  unfold State.mbxSend
  rw [h]
  split
  · exact absurd rfl h0
  · exact absurd rfl hdown
  · rfl

/-- What an accepted word leaves in the registers of its channel. -/
def State.mbxWord (s : State) (n : Nat) (w : Word) : State :=
  ((s.setReg (A.MBX_CHn_DATA n) w).setFld (F.MBX_CHn_ACK_FULL n) 1).setFld (F.MBX_CHn_ACK_VALID n) 0

/-- An accepted word reaches no register beside its channel's but the causes of group 10. -/
theorem State.reg_mbxPut (s : State) (n : Nat) (w : Word) (ha : a ≠ A.IRQ_CAUSEg 10) :
    (s.mbxPut n w).reg a = (s.mbxWord n w).reg a := by
  have hraise : ((s.mbxWord n w).raise 10 13).reg a = (s.mbxWord n w).reg a :=
    State.reg_setFld_ne _ (f := causeFld 10 13) ha
  have hcase : (if mbxPriv n && s.mbxDomOff n then (s.mbxWord n w).raise 10 13 else s.mbxWord n w).reg a
      = (s.mbxWord n w).reg a := by
    split
    · exact hraise
    · rfl
  unfold State.mbxPut
  dsimp only
  split <;> exact hcase

theorem State.reg_mbxWord (s : State) (n : Nat) (w : Word) : (s.mbxWord n w).reg (A.MBX_CHn_DATA n) = w := by
  have hne : A.MBX_CHn_DATA n ≠ A.MBX_CHn_ACK n := by
    unfold A.MBX_CHn_DATA A.MBX_CHn_ACK
    omega
  unfold State.mbxWord
  rw [State.reg_setFld_ne _ (f := F.MBX_CHn_ACK_VALID n) hne, State.reg_setFld_ne _ (f := F.MBX_CHn_ACK_FULL n) hne,
    State.reg_setReg_same]

theorem State.full_mbxWord (s : State) (n : Nat) (w : Word) : (s.mbxWord n w).fld (F.MBX_CHn_ACK_FULL n) = 1 :=
  (State.fld_setFld_beside _ 0 (.inr (by decide : 16 + 1 ≤ 17))).trans (State.fld_setFld_same _ 1 (by decide : 17 + 1 ≤ 32))

theorem State.valid_mbxWord (s : State) (n : Nat) (w : Word) : (s.mbxWord n w).fld (F.MBX_CHn_ACK_VALID n) = 0 :=
  State.fld_setFld_same _ 0 (by decide : 16 + 1 ≤ 32)

/-! ### Answers (R331) -/

/-- In the registers an answer is CODE, VALID and FULL of its channel. -/
theorem State.regs_mbxAnswer (s : State) (n code : Nat) : (s.mbxAnswer n code).regs =
    (((s.setFld (F.MBX_CHn_ACK_CODE n) code).setFld (F.MBX_CHn_ACK_VALID n) 1).setFld (F.MBX_CHn_ACK_FULL n) 0).regs := by
  unfold State.mbxAnswer
  dsimp only
  split <;> rfl

theorem State.code_mbxAnswer (s : State) (n code : Nat) :
    (s.mbxAnswer n code).fld (F.MBX_CHn_ACK_CODE n) = code % 2 ^ 16 := by
  rw [State.fld_of_regs_eq (s.regs_mbxAnswer n code), State.fld_setFld_beside _ 0 (.inl (by decide : 0 + 16 ≤ 17)),
    State.fld_setFld_beside _ 1 (.inl (by decide : 0 + 16 ≤ 16)), State.fld_setFld_same _ _ (by decide : 0 + 16 ≤ 32)]
  rfl

theorem State.valid_mbxAnswer (s : State) (n code : Nat) : (s.mbxAnswer n code).fld (F.MBX_CHn_ACK_VALID n) = 1 := by
  rw [State.fld_of_regs_eq (s.regs_mbxAnswer n code), State.fld_setFld_beside _ 0 (.inl (by decide : 16 + 1 ≤ 17)),
    State.fld_setFld_same _ 1 (by decide : 16 + 1 ≤ 32)]
  rfl

theorem State.full_mbxAnswer (s : State) (n code : Nat) : (s.mbxAnswer n code).fld (F.MBX_CHn_ACK_FULL n) = 0 := by
  rw [State.fld_of_regs_eq (s.regs_mbxAnswer n code), State.fld_setFld_same _ 0 (by decide : 17 + 1 ≤ 32)]
  rfl

/-- An answer reaches no register but its channel's ACK. -/
theorem State.reg_mbxAnswer_ne (s : State) (code : Nat) (ha : a ≠ A.MBX_CHn_ACK n) :
    (s.mbxAnswer n code).reg a = s.reg a := by
  rw [State.reg, s.regs_mbxAnswer n code]
  exact (State.reg_setFld_ne _ (f := F.MBX_CHn_ACK_FULL n) ha).trans
    ((State.reg_setFld_ne _ (f := F.MBX_CHn_ACK_VALID n) ha).trans (State.reg_setFld_ne s (f := F.MBX_CHn_ACK_CODE n) ha))

theorem State.mbxAck_of_receiver (code : Nat) (hrcv : s.mbxReceiver n = some who) (hsec : s.notSecure who = false)
    (hfull : s.mbxFull n = true) : s.mbxAck who n code = (s.mbxAnswer n code, 0) := by
  simp [State.mbxAck, hrcv, hsec, hfull]

theorem State.mbxAck_of_notReceiver (code : Nat) (hrcv : s.mbxReceiver n ≠ some who) : (s.mbxAck who n code).1 = s := by
  unfold State.mbxAck
  split
  · rfl
  · rw [if_pos (bne_iff_ne.mpr hrcv)]

/-! ### Secure channels (R326, R330) -/

theorem State.mbxCheck_of_notSecure (hn : mbxSecure n = true) (h : s.notSecure who = true) :
    s.mbxCheck who n = if s.mbxSender who n then 7 else 8 := by
  cases hs : s.mbxSender who n <;> simp [State.mbxCheck, hn, h, hs]

/-- A writer that R330 does not bar meets every check of R328 but SECURE. -/
theorem State.mbxCheck_ne_secure (n : Nat) (h : s.notSecure who = false) : s.mbxCheck who n ≠ 7 := by
  unfold State.mbxCheck
  rw [h, Bool.and_false, if_neg Bool.false_ne_true]
  repeat' split
  all_goals decide

theorem State.mbxAck_of_notSecure (code : Nat) (hn : mbxSecure n = true) (h : s.notSecure who = true) :
    s.mbxAck who n code = (s, 7) := by
  simp [State.mbxAck, hn, h]

theorem State.regWrite_of_mbxBars {r : RegAt} {x : RegWr} (hr : findReg a = some r) (h : s.mbxBars r x.who = true) :
    s.regWrite a x = ⟨7, s⟩ := by
  simp [State.regWrite, hr, h]

/-- The register at `a` is the DATA or ACK of channel i: it stands in D2, and no owner and no lock bars a write of it. -/
structure MailboxAt (a : Nat) (name : RegName) (i : Nat) (r : RegAt) : Prop where
  found : findReg a = some r
  name : r.cls.name = name
  idx : r.i = i
  dom : r.dom = 2
  own : r.cls.own = .mailbox
  unlocked : (r.fields.any fun f => f.cond == .lck || f.cond == .ownlck) = false
  notCfg : r.cls.name ≠ .MBX_CHn_CFG

/-- `MailboxAt`, evaluated. -/
def mailboxAt (a : Nat) (name : RegName) (i : Nat) : Bool :=
  (findReg a).any fun r => r.cls.name == name && r.i == i && r.dom == 2 && r.cls.own == .mailbox
    && !(r.fields.any fun f => f.cond == .lck || f.cond == .ownlck) && r.cls.name != .MBX_CHn_CFG

theorem exists_mailboxAt {name : RegName} {i : Nat} (h : mailboxAt a name i = true) : ∃ r, MailboxAt a name i r := by
  obtain ⟨r, hr, hq⟩ := (Option.any_eq_true _ _).mp h
  simp only [Bool.and_eq_true, Bool.not_eq_true', beq_iff_eq, bne_iff_ne] at hq
  obtain ⟨⟨⟨⟨⟨hname, hidx⟩, hdom⟩, hown⟩, hlck⟩, hcfg⟩ := hq
  exact ⟨r, hr, hname, hidx, hdom, hown, hlck, hcfg⟩

theorem exists_mailboxAt_data (n : Fin 64) : ∃ r, MailboxAt (A.MBX_CHn_DATA n) .MBX_CHn_DATA n r :=
  exists_mailboxAt (by revert n; decide +kernel)

theorem exists_mailboxAt_ack (n : Fin 64) : ∃ r, MailboxAt (A.MBX_CHn_ACK n) .MBX_CHn_ACK n r :=
  exists_mailboxAt (by revert n; decide +kernel)

theorem exists_plainAt_MBX_CHn_CFG (n : Fin 64) : ∃ r, PlainAt (A.MBX_CHn_CFG n) .MBX_CHn_CFG n r :=
  exists_plainAt (by revert n; decide +kernel)

section
variable {name : RegName} {i : Nat} {r : RegAt} {x : RegWr} {h : HostId}

/-- Outside Table 2.6 a host's write of a mailbox passes the checks of registers. -/
theorem MailboxAt.writeCheck (hm : MailboxAt a name i r) (hx : x.who = .host h) (hdom : s.domOn 2 = true)
    (hlim : s.limited = false) : s.writeCheck r a x = 0 := by
  have hlock : s.lockBars r x = false := by
    have hany : (r.fields.any fun f => (f.cond == .lck || f.cond == .ownlck) && x.touches f) = false := by
      have hun := hm.unlocked
      rw [List.any_eq_false] at hun ⊢
      exact fun f hf => by simp [hun f hf]
    rw [State.lockBars, hany, Bool.false_and]
  simp [State.writeCheck, State.hostCheck, hm.dom, hdom, hx, hlim, hm.own, hlock]

theorem MailboxAt.mbxBars (hm : MailboxAt a name i r) (who : Writer) : s.mbxBars r who = false := by
  simp [State.mbxBars, hm.notCfg]

theorem MailboxAt.regWrite_data (hm : MailboxAt a .MBX_CHn_DATA i r) (hx : x.who = .host h) (hdom : s.domOn 2 = true)
    (hlim : s.limited = false) : s.regWrite a x =
    ⟨(s.mbxSend (.host h) i (s.offered a x)).2, (s.mbxSend (.host h) i (s.offered a x)).1⟩ := by
  simp [State.regWrite, State.offered, hm.found, hm.mbxBars, hm.writeCheck hx hdom hlim, hm.name, hm.idx, hx]

theorem MailboxAt.regWrite_ack (hm : MailboxAt a .MBX_CHn_ACK i r) (hx : x.who = .host h) (hdom : s.domOn 2 = true)
    (hlim : s.limited = false) : s.regWrite a x =
    ⟨(s.mbxAck (.host h) i (getBits (s.offered a x) 0 16)).2, (s.mbxAck (.host h) i (getBits (s.offered a x) 0 16)).1⟩ := by
  simp [State.regWrite, State.offered, hm.found, hm.mbxBars, hm.writeCheck hx hdom hlim, hm.name, hm.idx, hx]

end
end

/-- Settles O35: an accepted word is `State.mbxPut`, an answer `State.mbxAnswer`, and these write the channel's registers
as their lemmas say. -/
theorem aMailboxWordIsHeldUntilAnswered : Obligations.AMailboxWordIsHeldUntilAnswered := by
  unfold Obligations.AMailboxWordIsHeldUntilAnswered
  have hack : ∀ n : Nat, A.MBX_CHn_DATA n ≠ A.MBX_CHn_ACK n := fun n => by
    unfold A.MBX_CHn_DATA A.MBX_CHn_ACK
    omega
  refine ⟨fun s who n w hcheck => ?_, fun s who n w hcheck => State.mbxSend_of_refuses w hcheck (by decide) (by decide),
    fun s who n code hrcv hsec hfull hcode => ?_, fun s who n code => State.mbxAck_of_notReceiver code⟩
  · have hdataIrq : A.MBX_CHn_DATA n ≠ A.IRQ_CAUSEg 10 := by
      unfold A.MBX_CHn_DATA A.IRQ_CAUSEg
      omega
    have hackIrq : A.MBX_CHn_ACK n ≠ A.IRQ_CAUSEg 10 := by
      unfold A.MBX_CHn_ACK A.IRQ_CAUSEg
      omega
    rw [State.mbxSend_of_accepts w hcheck]
    refine ⟨rfl, (s.reg_mbxPut n w hdataIrq).trans (s.reg_mbxWord n w), ?_, ?_⟩
    · exact (congrArg (getBits · 17 1) (s.reg_mbxPut n w hackIrq)).trans (s.full_mbxWord n w)
    · exact (congrArg (getBits · 16 1) (s.reg_mbxPut n w hackIrq)).trans (s.valid_mbxWord n w)
  · rw [State.mbxAck_of_receiver code hrcv hsec hfull]
    exact ⟨rfl, (s.code_mbxAnswer n code).trans (Nat.mod_eq_of_lt hcode), s.valid_mbxAnswer n code, s.full_mbxAnswer n code,
      s.reg_mbxAnswer_ne code (hack n)⟩

/-- Settles O34: R330 bars the write of CFG before any other check, and the mailbox bars those of ACK and DATA, which the
checks of registers let pass. -/
theorem secureChannels : Obligations.SecureChannels := by
  unfold Obligations.SecureChannels
  refine ⟨fun s h n m v hport hdom hlim => ?_, fun s who n hwho => ?_⟩
  · have hns : s.notSecure (.host h) = true := by simp [State.notSecure, hport]
    have hsec : mbxSecure n = true := decide_eq_true n.isLt
    obtain ⟨rc, hcfg⟩ := exists_plainAt_MBX_CHn_CFG n
    obtain ⟨ra, hack⟩ := exists_mailboxAt_ack n
    obtain ⟨rd, hdata⟩ := exists_mailboxAt_data n
    have hbars : s.mbxBars rc (.host h) = true := by simp [State.mbxBars, hcfg.name, hcfg.idx, hsec, hns]
    have hcode : ∀ w : Word, s.mbxSend (.host h) n w = (s, if s.mbxSender (.host h) n then 7 else 8) := fun w =>
      State.mbxSend_of_refuses w (State.mbxCheck_of_notSecure hsec hns) (by split <;> decide) (by split <;> decide)
    rw [State.regWrite_of_mbxBars hcfg.found hbars, hack.regWrite_ack rfl hdom hlim, State.mbxAck_of_notSecure _ hsec hns,
      hdata.regWrite_data rfl hdom hlim, hcode]
    exact ⟨rfl, rfl, rfl, rfl, rfl, rfl⟩
  · have hns : s.notSecure who = false := by
      rcases hwho with ⟨k, rfl⟩ | ⟨h, rfl, hport⟩
      · rfl
      · simp [State.notSecure, hport]
    exact ⟨hns, State.mbxCheck_ne_secure n hns⟩

end Sys2Proof.Machine
end

section
/-!
Tenancy (R322-R325, Table 10.8): the code and the owner that a request comes to, and what C0's answer leaves.
-/

namespace Sys2Proof.Machine

section
variable {s : State} {h : HostId} {i : Fin 6} {w : Word} {q r o code : Nat}

/-! ### Owners (R325) -/

/-- An answer in a mailbox changes no owner. -/
theorem State.owner_mbxAnswer (s : State) (n code : Nat) (hq : q < 15) : (s.mbxAnswer n code).owner q = s.owner q := by
  have haddr : A.HP_OWNERr q ≠ A.MBX_CHn_ACK n := by
    unfold A.HP_OWNERr A.MBX_CHn_ACK
    omega
  exact congrArg (getBits · 0 2) (s.reg_mbxAnswer_ne code haddr)

/-- A cause of group 9 that is raised changes no owner. -/
theorem State.owner_raise (s : State) (b : Nat) (hq : q < 15) : (s.raise 9 b).owner q = s.owner q := by
  have haddr : A.HP_OWNERr q ≠ A.IRQ_CAUSEg 9 := by
    unfold A.HP_OWNERr A.IRQ_CAUSEg
    omega
  exact State.fld_setFld_reg s (f := causeFld 9 b) (g := F.HP_OWNERr_OWNER q) 1 haddr

theorem State.owner_setOwner (s : State) (o : Nat) (hr : r < 15) : (s.setOwner r o).owner r = o % 4 := by
  unfold State.setOwner
  split
  · next heq => exact heq ▸ (Nat.mod_eq_of_lt (s.fld_lt (F.HP_OWNERr_OWNER r))).symm
  · rw [State.owner_raise _ r hr]
    exact State.fld_setFld_same s o (by decide : 0 + 2 ≤ 32)

theorem State.owner_setOwner_ne (s : State) (o : Nat) (hq : q < 15) (hne : q ≠ r) : (s.setOwner r o).owner q = s.owner q := by
  have haddr : A.HP_OWNERr q ≠ A.HP_OWNERr r := by
    unfold A.HP_OWNERr
    omega
  unfold State.setOwner
  split
  · rfl
  · rw [State.owner_raise _ r hq]
    exact State.fld_setFld_reg s (f := F.HP_OWNERr_OWNER r) (g := F.HP_OWNERr_OWNER q) o haddr

/-! ### What a request comes to (Table 10.8) -/

/-- A request of Table 10.8 for resource r: its reserved bits are 0, and it names no port that does not exist. -/
structure TenancyWord (w : Word) (r : Nat) : Prop where
  resource : getBits w 0 4 = r
  lt : r < 15
  reserved : getBits w 6 22 = 0
  port : getBits w 4 2 ≠ 3

theorem TenancyWord.answer_claim (hw : TenancyWord w r) (hop : getBits w 28 4 = 1) : s.tenancyAnswer h w =
    if s.owner r = 3 then if s.bit (F.HP_OWNERr_CLAIM_EN r) then (0, h.val) else (0x12, s.owner r)
    else if s.owner r = h.val then (0, s.owner r) else (0x10, s.owner r) := by
  simp [State.tenancyAnswer, hop, hw.resource, hw.reserved, hw.port, hw.lt.ne]

theorem TenancyWord.answer_handOn (hw : TenancyWord w r) (hop : getBits w 28 4 = 2 ∨ getBits w 28 4 = 3) :
    s.tenancyAnswer h w = if s.owner r ≠ h.val then (0x11, s.owner r)
      else if getBits w 28 4 = 2 then (0, 3) else (0, getBits w 4 2) := by
  rcases hop with hop | hop
  all_goals simp [State.tenancyAnswer, hop, hw.resource, hw.reserved, hw.port, hw.lt.ne]

/-! ### C0's answer (R324) -/

/-- The host whose tenancy channel has place i. -/
def tenancyHost (i : Fin 6) : HostId := ⟨i.val % 3, by omega⟩

/-- The word that waits in the tenancy channel of place i. -/
def State.tenancyWord (s : State) (i : Fin 6) : Word := s.reg (A.MBX_CHn_DATA (tenancyChan i))

/-- A request that is granted changes its resource's owner, and one that is refused raises the cause of refusals; then the
channel is answered. -/
theorem State.tenancy_eq (hans : s.tenancyAnswer (tenancyHost i) (s.tenancyWord i) = (code, o)) : s.tenancy_ i =
    (if code = 0 then s.setOwner (getBits (s.tenancyWord i) 0 4) o else s.raise 9 15).mbxAnswer (tenancyChan i) code := by
  unfold State.tenancy_
  unfold tenancyHost State.tenancyWord at hans
  simp only [hans]
  split <;> rfl

theorem State.exists_tenancyAnswer (s : State) (i : Fin 6) :
    ∃ code o, s.tenancyAnswer (tenancyHost i) (s.tenancyWord i) = (code, o) := ⟨_, _, rfl⟩

/-- The owner of the resource asked for: the answer's where it is granted, else the one it had. -/
theorem State.owner_tenancy (hans : s.tenancyAnswer (tenancyHost i) (s.tenancyWord i) = (code, o))
    (hw : TenancyWord (s.tenancyWord i) r) : (s.tenancy_ i).owner r = if code = 0 then o % 4 else s.owner r := by
  rw [State.tenancy_eq hans, State.owner_mbxAnswer _ _ _ hw.lt, hw.resource]
  split
  · exact s.owner_setOwner o hw.lt
  · exact s.owner_raise 15 hw.lt

theorem State.owner_tenancy_ne (s : State) (i : Fin 6) (hq : q < 15) (hne : q ≠ getBits (s.tenancyWord i) 0 4) :
    (s.tenancy_ i).owner q = s.owner q := by
  obtain ⟨code, o, hans⟩ := s.exists_tenancyAnswer i
  rw [State.tenancy_eq hans, State.owner_mbxAnswer _ _ _ hq]
  split
  · exact s.owner_setOwner_ne _ hq hne
  · exact s.owner_raise 15 hq

theorem State.code_tenancy (hans : s.tenancyAnswer (tenancyHost i) (s.tenancyWord i) = (code, o)) :
    (s.tenancy_ i).fld (F.MBX_CHn_ACK_CODE (tenancyChan i)) = code % 2 ^ 16 := by
  rw [State.tenancy_eq hans, State.code_mbxAnswer]

theorem State.full_tenancy (s : State) (i : Fin 6) : (s.tenancy_ i).fld (F.MBX_CHn_ACK_FULL (tenancyChan i)) = 0 := by
  obtain ⟨code, o, hans⟩ := s.exists_tenancyAnswer i
  rw [State.tenancy_eq hans, State.full_mbxAnswer]

theorem State.valid_tenancy (s : State) (i : Fin 6) : (s.tenancy_ i).fld (F.MBX_CHn_ACK_VALID (tenancyChan i)) = 1 := by
  obtain ⟨code, o, hans⟩ := s.exists_tenancyAnswer i
  rw [State.tenancy_eq hans, State.valid_mbxAnswer]

/-- A request that is granted: its resource has the owner that the answer gives, and the code is OK. -/
theorem State.tenancy_granted (hw : TenancyWord (s.tenancyWord i) r) (ho : o < 4)
    (hans : s.tenancyAnswer (tenancyHost i) (s.tenancyWord i) = (0, o)) :
    (s.tenancy_ i).owner r = o ∧ (s.tenancy_ i).fld (F.MBX_CHn_ACK_CODE (tenancyChan i)) = 0 :=
  ⟨(State.owner_tenancy hans hw).trans (Nat.mod_eq_of_lt ho), State.code_tenancy hans⟩

/-- A request that is refused: its resource keeps its owner, and the code is the refusal's. -/
theorem State.tenancy_refused (hw : TenancyWord (s.tenancyWord i) r) (h0 : code ≠ 0) (hcode : code < 2 ^ 16)
    (hans : s.tenancyAnswer (tenancyHost i) (s.tenancyWord i) = (code, o)) :
    (s.tenancy_ i).owner r = s.owner r ∧ (s.tenancy_ i).fld (F.MBX_CHn_ACK_CODE (tenancyChan i)) = code :=
  ⟨(State.owner_tenancy hans hw).trans (if_neg h0), (State.code_tenancy hans).trans (Nat.mod_eq_of_lt hcode)⟩

theorem tenancyPlace_tenancyChan : ∀ i : Fin 6, tenancyPlace (tenancyChan i) = some i := by decide

/-- A channel that is answered leaves the order (R324). -/
theorem State.notMem_tenancy (s : State) (i : Fin 6) : i ∉ (s.tenancy_ i).tenancy := by
  obtain ⟨code, o, hans⟩ := s.exists_tenancyAnswer i
  rw [State.tenancy_eq hans, State.mbxAnswer, tenancyPlace_tenancyChan]
  simp

/-! ### The requests (Table 10.8) -/

theorem State.tenancy_claim_free (hw : TenancyWord (s.tenancyWord i) r) (hop : getBits (s.tenancyWord i) 28 4 = 1)
    (hfree : s.owner r = 3) (hen : s.bit (F.HP_OWNERr_CLAIM_EN r) = true) :
    (s.tenancy_ i).owner r = i.val % 3 ∧ (s.tenancy_ i).fld (F.MBX_CHn_ACK_CODE (tenancyChan i)) = 0 :=
  State.tenancy_granted hw (by omega) ((hw.answer_claim hop).trans (by rw [if_pos hfree, if_pos hen]; rfl))

theorem State.tenancy_claim_disabled (hw : TenancyWord (s.tenancyWord i) r) (hop : getBits (s.tenancyWord i) 28 4 = 1)
    (hfree : s.owner r = 3) (hen : s.bit (F.HP_OWNERr_CLAIM_EN r) = false) :
    (s.tenancy_ i).owner r = 3 ∧ (s.tenancy_ i).fld (F.MBX_CHn_ACK_CODE (tenancyChan i)) = 0x12 := by
  rw [← hfree]
  exact State.tenancy_refused hw (by decide) (by decide)
    ((hw.answer_claim hop).trans (by rw [if_pos hfree, hen, if_neg Bool.false_ne_true]))

theorem State.tenancy_claim_owned (hw : TenancyWord (s.tenancyWord i) r) (hop : getBits (s.tenancyWord i) 28 4 = 1)
    (howned : s.owner r ≠ 3) (hother : s.owner r ≠ i.val % 3) :
    (s.tenancy_ i).owner r = s.owner r ∧ (s.tenancy_ i).fld (F.MBX_CHn_ACK_CODE (tenancyChan i)) = 0x10 :=
  State.tenancy_refused hw (by decide) (by decide)
    ((hw.answer_claim hop).trans (by rw [if_neg howned, if_neg (show s.owner r ≠ (tenancyHost i).val from hother)]))

theorem State.tenancy_release (hw : TenancyWord (s.tenancyWord i) r) (hop : getBits (s.tenancyWord i) 28 4 = 2)
    (hown : s.owner r = i.val % 3) :
    (s.tenancy_ i).owner r = 3 ∧ (s.tenancy_ i).fld (F.MBX_CHn_ACK_CODE (tenancyChan i)) = 0 :=
  State.tenancy_granted hw (by decide) ((hw.answer_handOn (.inl hop)).trans
    (by rw [if_neg (not_not.mpr (show s.owner r = (tenancyHost i).val from hown)), if_pos hop]))

theorem State.tenancy_give (hw : TenancyWord (s.tenancyWord i) r) (hop : getBits (s.tenancyWord i) 28 4 = 3)
    (hown : s.owner r = i.val % 3) : (s.tenancy_ i).owner r = getBits (s.tenancyWord i) 4 2 ∧
      (s.tenancy_ i).fld (F.MBX_CHn_ACK_CODE (tenancyChan i)) = 0 :=
  State.tenancy_granted hw (getBits_lt _ 4 2) ((hw.answer_handOn (.inr hop)).trans
    (by rw [if_neg (not_not.mpr (show s.owner r = (tenancyHost i).val from hown)), hop, if_neg (by decide)]))

theorem State.tenancy_handOn_notOwner (hw : TenancyWord (s.tenancyWord i) r)
    (hop : getBits (s.tenancyWord i) 28 4 = 2 ∨ getBits (s.tenancyWord i) 28 4 = 3) (hother : s.owner r ≠ i.val % 3) :
    (s.tenancy_ i).owner r = s.owner r ∧ (s.tenancy_ i).fld (F.MBX_CHn_ACK_CODE (tenancyChan i)) = 0x11 :=
  State.tenancy_refused hw (by decide) (by decide)
    ((hw.answer_handOn hop).trans (if_pos (show s.owner r ≠ (tenancyHost i).val from hother)))

end

/-- Settles O33: each row of Table 10.8 is a request that `State.tenancyAnswer` grants or refuses; the rest is the answer
in the channel, whatever it says. -/
theorem tenancyAnswers : Obligations.TenancyAnswers := by
  unfold Obligations.TenancyAnswers
  refine fun s i r hr => ⟨fun w hword hres hrsv hport => ?_, s.full_tenancy i, s.valid_tenancy i,
    s.notMem_tenancy i⟩
  subst hword
  have hw : TenancyWord (s.tenancyWord i) r := ⟨hres, hr, hrsv, hport⟩
  exact ⟨State.tenancy_claim_free hw, State.tenancy_claim_disabled hw, State.tenancy_claim_owned hw,
    State.tenancy_release hw, State.tenancy_give hw, State.tenancy_handOn_notOwner hw,
    fun q hq hne => s.owner_tenancy_ne i hq (hres.symm ▸ hne)⟩

end Sys2Proof.Machine
end

section
/-!
LINEAR11 (R318): the rounding of a mantissa, the fields of a word, and the value that a word carries.
-/

namespace Sys2Proof.Machine

/-! ### Two's complement (R17) -/

theorem natCast_unsigned (width : Nat) (v : Int) : (unsigned width v : Int) = v % 2 ^ width :=
  Int.toNat_of_nonneg (Int.emod_nonneg v (by positivity))

theorem unsigned_lt (width : Nat) (v : Int) : unsigned width v < 2 ^ width := by
  zify
  rw [natCast_unsigned]
  exact Int.emod_lt_of_pos v (by positivity)

/-- A signed field reads the integer that it was given, if it can hold it. -/
theorem signed_unsigned {width : Nat} {v : Int} (hlo : -2 ^ width ≤ 2 * v) (hhi : 2 * v < 2 ^ width) :
    signed width (unsigned width v) = v := by
  unfold signed
  zify
  rw [natCast_unsigned]
  by_cases hv : 0 ≤ v
  · rw [Int.emod_eq_of_lt hv (by omega), if_pos hhi]
  · rw [← Int.add_emod_right, Int.emod_eq_of_lt (by omega) (by omega), if_neg (by omega)]
    omega

/-! ### Rounding (R130) -/

/-- A rounded quotient is within half of the divisor of the dividend. -/
theorem roundDiv_bounds (a : Int) {b : Nat} (hb : 0 < b) :
    2 * a - b ≤ 2 * b * roundDiv a b ∧ 2 * b * roundDiv a b ≤ 2 * a + b := by
  have hpos : (0 : Int) < 2 * b := by omega
  have hfloor : ∀ c : Int, 2 * c - b ≤ 2 * b * ((2 * c + b) / (2 * b)) ∧ 2 * b * ((2 * c + b) / (2 * b)) ≤ 2 * c + b := by
    intro c
    have hdiv := Int.mul_ediv_add_emod (2 * c + b) (2 * b)
    have hnonneg := Int.emod_nonneg (2 * c + b) hpos.ne'
    have hlt := Int.emod_lt_of_pos (2 * c + b) hpos
    omega
  unfold roundDiv
  split
  · exact hfloor a
  · obtain ⟨hlo, hhi⟩ := hfloor (-a)
    rw [mul_neg]
    omega

/-- R318: rounding is to the nearest. -/
theorem abs_roundRat_sub_le (q : Rat) : |(roundRat q : Rat) - q| ≤ 1 / 2 := by
  have hden : (0 : Rat) < q.den := by exact_mod_cast q.den_pos
  have hq : q * q.den = q.num := Rat.mul_den_eq_num q
  obtain ⟨hlo, hhi⟩ := roundDiv_bounds q.num q.den_pos
  have hlo' : 2 * (q.num : Rat) - q.den ≤ 2 * q.den * roundRat q := by exact_mod_cast hlo
  have hhi' : 2 * (q.den : Rat) * roundRat q ≤ 2 * q.num + q.den := by exact_mod_cast hhi
  rw [abs_le]
  constructor
  · nlinarith
  · nlinarith

theorem roundRat_intCast (m : Int) : roundRat (m : Rat) = m := by
  have h := abs_le.mp (abs_roundRat_sub_le (m : Rat))
  have hlt : ((roundRat (m : Rat) : Int) : Rat) < ((m + 1 : Int) : Rat) := by push_cast; linarith [h.2]
  have hgt : ((m - 1 : Int) : Rat) < ((roundRat (m : Rat) : Int) : Rat) := by push_cast; linarith [h.1]
  have hlt' := Int.cast_lt.mp hlt
  have hgt' := Int.cast_lt.mp hgt
  omega

/-! ### Words (R318) -/

section
variable {x : Rat} {i : Nat}

/-- The mantissa with exponent i - 8 fits its field. -/
def fitsLinear11 (x : Rat) (i : Nat) : Bool := decide (-1024 ≤ mantissa x i) && decide (mantissa x i ≤ 1023)

theorem fitsLinear11_iff : fitsLinear11 x i = true ↔ -1024 ≤ mantissa x i ∧ mantissa x i ≤ 1023 := by
  simp [fitsLinear11]

theorem linear11_of_find (h : (List.range 16).find? (fitsLinear11 x) = some i) :
    linear11 x = unsigned 5 ((i : Int) - 8) * 2048 + unsigned 11 (mantissa x i) := by
  unfold fitsLinear11 at h
  unfold linear11
  rw [h]

/-- Where an exponent fits, the word takes the first that does. -/
theorem exists_find_of_fits (hi : i < 16) (h : fitsLinear11 x i = true) :
    ∃ j ≤ i, (List.range 16).find? (fitsLinear11 x) = some j := by
  have hsome : ((List.range 16).find? (fitsLinear11 x)).isSome = true :=
    List.find?_isSome.mpr ⟨i, List.mem_range.mpr hi, h⟩
  obtain ⟨j, hj⟩ := Option.isSome_iff_exists.mp hsome
  obtain ⟨-, -, hfirst⟩ := List.find?_range_eq_some.mp hj
  refine ⟨j, ?_, hj⟩
  by_contra hlt
  simpa [h] using hfirst i (by omega)

/-- A word decodes to its mantissa at its exponent. -/
theorem ofLinear11_word {m : Int} (hi : i < 16) (hlo : -1024 ≤ m) (hhi : m ≤ 1023) :
    ofLinear11 (unsigned 5 ((i : Int) - 8) * 2048 + unsigned 11 m) = m * 2 ^ i / 256 := by
  have hm : unsigned 11 m < 2048 := unsigned_lt 11 m
  have he : unsigned 5 ((i : Int) - 8) < 32 := unsigned_lt 5 _
  have hmant : (unsigned 5 ((i : Int) - 8) * 2048 + unsigned 11 m) % 2048 = unsigned 11 m := by omega
  have hexp : (unsigned 5 ((i : Int) - 8) * 2048 + unsigned 11 m) / 2048 % 32 = unsigned 5 ((i : Int) - 8) := by omega
  have hshift : ((i : Int) - 8 + 16).toNat = i + 8 := by omega
  rw [ofLinear11, hmant, hexp, signed_unsigned (by omega) (by omega), signed_unsigned (by omega) (by omega), hshift, pow_add]
  ring

/-- The word of a value that an exponent fits decodes to the mantissa at the first such exponent. -/
theorem ofLinear11_linear11 (h : (List.range 16).find? (fitsLinear11 x) = some i) :
    ofLinear11 (linear11 x) = mantissa x i * 2 ^ i / 256 := by
  obtain ⟨hlo, hhi⟩ := fitsLinear11_iff.mp (List.find?_some h)
  rw [linear11_of_find h, ofLinear11_word (List.mem_range.mp (List.mem_of_find?_eq_some h)) hlo hhi]

theorem abs_ofLinear11_linear11_sub_le (h : (List.range 16).find? (fitsLinear11 x) = some i) :
    |ofLinear11 (linear11 x) - x| ≤ 2 ^ i / 512 := by
  have hpow : (0 : Rat) < 2 ^ i := by positivity
  have hstep : ofLinear11 (linear11 x) - x = ((mantissa x i : Rat) - x * 256 / 2 ^ i) * (2 ^ i / 256) := by
    rw [ofLinear11_linear11 h]
    field_simp
  calc |ofLinear11 (linear11 x) - x|
    _ = |(mantissa x i : Rat) - x * 256 / 2 ^ i| * (2 ^ i / 256) := by
      rw [hstep, abs_mul, abs_of_pos (by positivity : (0 : Rat) < 2 ^ i / 256)]
    _ ≤ 1 / 2 * (2 ^ i / 256) := mul_le_mul_of_nonneg_right (abs_roundRat_sub_le _) (by positivity)
    _ = 2 ^ i / 512 := by ring

theorem linear11_lt (hi : i < 16) (h : fitsLinear11 x i = true) : linear11 x < 65536 := by
  obtain ⟨j, -, hj⟩ := exists_find_of_fits hi h
  have hm : unsigned 11 (mantissa x j) < 2048 := unsigned_lt 11 _
  have he : unsigned 5 ((j : Int) - 8) < 32 := unsigned_lt 5 _
  rw [linear11_of_find hj]
  omega

/-- At an exponent that is not positive the mantissa of a whole number is not rounded. -/
theorem mantissa_natCast (n : Nat) (hi : i ≤ 8) : mantissa (n : Rat) i = n * 2 ^ (8 - i) := by
  have hpow : (2 : Rat) ^ 8 = 2 ^ (8 - i) * 2 ^ i := by rw [← pow_add, Nat.sub_add_cancel hi]
  have hwhole : (n : Rat) * 256 / 2 ^ i = ((n * 2 ^ (8 - i) : Int) : Rat) := by
    push_cast
    rw [div_eq_iff (by positivity), mul_assoc, ← hpow]
    norm_num
  rw [mantissa, hwhole, roundRat_intCast]

theorem ofLinear11_linear11_natCast {n : Nat} (hn : n ≤ 1023) : ofLinear11 (linear11 (n : Rat)) = n := by
  have hfits : fitsLinear11 (n : Rat) 8 = true := by
    rw [fitsLinear11_iff, mantissa_natCast n le_rfl]
    omega
  obtain ⟨j, hj, hfind⟩ := exists_find_of_fits (by decide) hfits
  have hpow : (2 : Rat) ^ (8 - j) * 2 ^ j = 256 := by
    rw [← pow_add, Nat.sub_add_cancel hj]
    norm_num
  rw [ofLinear11_linear11 hfind, mantissa_natCast n hj]
  push_cast
  rw [mul_assoc, hpow, mul_div_cancel_right₀ _ (by norm_num)]

end

/-- Settles O31: a word decodes to its mantissa at its exponent, the mantissa is rounded to the nearest, and the mantissa of
a whole number to 1023, whose first exponent is not positive, is not rounded at all. -/
theorem linear11IsNearest : Obligations.Linear11IsNearest := by
  unfold Obligations.Linear11IsNearest
  refine ⟨fun x i hfind => ?_, fun x i hi hlo hhi => linear11_lt hi (fitsLinear11_iff.mpr ⟨hlo, hhi⟩),
    fun n => ofLinear11_linear11_natCast⟩
  have hclose := abs_le.mp (abs_ofLinear11_linear11_sub_le hfind)
  exact ⟨hclose.2, by linarith [hclose.1]⟩

end Sys2Proof.Machine
end

section
/-!
The invariant over a step (R419, R421): each row's answer keeps it, by the lemmas of the operations that the row is made
of, and so does the idle millisecond.
-/

namespace Sys2Proof.Machine

theorem Answer.ite_keeps {c : Prop} [Decidable c] {a b : Answer} (ha : Answer.Keeps a) (hb : Answer.Keeps b) :
    Answer.Keeps (if c then a else b) := by
  split
  · exact ha
  · exact hb

/-- What a row answers, settled, keeps the invariant if its own answer does. -/
theorem State.Inv.row {s : State} {a : Answer} (h : s.Inv) (ha : Answer.Keeps a) : Answer.Keeps (s.watch a) :=
  Answer.watch_keeps h ha

theorem State.Inv.write {s : State} {c : Instr} {a : Nat} {x : RegWr} (h : s.Inv) (hc : c.write? = some (a, x)) :
    Answer.Keeps (exec c s) := by
  rw [exec_of_write hc]
  exact h.row (State.rowWrite_keeps h)

/-! ### Rows that look into the state before they act -/

section
variable {s : State} (h : s.Inv)
include h

theorem doWake_keeps {src : WakeSrc} : Answer.Keeps (doWake src s) := by
  refine State.onlyIf_keeps h fun _ => ?_
  split
  · exact State.wakeBit_keeps h
  · exact State.timerExpires_keeps h
  · exact State.wakeBy_keeps h

theorem doFlashXferDone_keeps {data : List Byte} : Answer.Keeps (doFlashXferDone data s) := by
  unfold doFlashXferDone
  split
  · exact Answer.keeps_next (State.xferDone_keeps h)
  · exact Answer.keeps_next h

theorem doRecalibration_keeps {who : Option Writer} {half : Half} {code : BitVec 10} :
    Answer.Keeps (doRecalibration who half code s) := by
  unfold doRecalibration
  split
  · exact State.rowEffect_keeps h fun t ht => ite_keeps (State.recalibrate_keeps (State.setBit_keeps ht)) ht
  · exact State.onlyIf_keeps h fun _ => State.recalibrate_keeps h

theorem doCompensatorUpdate_keeps {n : Chan} {vs : Vector Int 8} {shunt : Int} :
    Answer.Keeps (doCompensatorUpdate n vs shunt s) := by
  unfold doCompensatorUpdate
  split
  · exact State.onlyIf_keeps h fun _ => State.compUpdate_keeps h
  · exact Answer.keeps_next h

theorem doNoticedInstant_keeps {l : Fin 8} : Answer.Keeps (doNoticedInstant l s) := by
  unfold doNoticedInstant
  split
  · exact Answer.keeps_next (State.noticed_keeps h)
  · exact Answer.keeps_next h

theorem doScTrip_keeps {x : ScCrossing} : Answer.Keeps (doScTrip x s) := by
  unfold doScTrip
  dsimp only
  split
  · exact State.onlyIf_keeps h fun _ => State.scTrip_keeps h
  · exact Answer.keeps_next h

theorem doTdrptry_keeps {p : Port} {seen : Bool} : Answer.Keeps (doTdrptry p seen s) := by
  refine State.onlyIf_keeps h fun _ => ?_
  split
  · exact State.setTc_keeps h
  · exact State.setTc_keeps h
  · exact State.unattached_keeps h
  · exact h

theorem doEprKeepalive_keeps {p : Port} : Answer.Keeps (doEprKeepalive p s) := by
  unfold doEprKeepalive
  split
  case h_1 htake =>
    have ht := State.takeMsg_keeps h htake
    exact Answer.ite_keeps (Answer.keeps_next (State.arm_keeps (State.sendCtl_keeps ht))) (Answer.keeps_next ht)
  case h_2 => exact Answer.keeps_next h

theorem doConversionDone_keeps {mean : Rat} {wild stopped : Bool} :
    Answer.Keeps (doConversionDone mean wild stopped s) := by
  unfold doConversionDone
  split
  · exact State.onlyIf_keeps h fun _ => State.conversion_keeps h
  · exact Answer.keeps_next h

theorem doKeeperGroupDone_keeps {same : Bool} : Answer.Keeps (doKeeperGroupDone same s) := by
  unfold doKeeperGroupDone
  split
  · exact State.onlyIf_keeps h fun _ => State.groupDone_keeps h
  · exact Answer.keeps_next h

theorem doKeeperOperationDone_keeps : Answer.Keeps (doKeeperOperationDone s) := by
  unfold doKeeperOperationDone
  split
  · exact State.onlyIf_keeps h fun _ => State.operationDone_keeps h
  · exact Answer.keeps_next h

theorem doMultiplierResult_keeps {k : Core} : Answer.Keeps (doMultiplierResult k s) := by
  refine State.onlyIf_keeps h fun _ => ?_
  split
  · exact State.spend_keeps h
  · exact h

theorem doRetrimAbort_keeps : Answer.Keeps (doRetrimAbort s) := by
  unfold doRetrimAbort
  split
  · exact State.onlyIf_keeps h fun _ => State.retrimBack_keeps h
  · exact Answer.keeps_next h

theorem doCardingStep_keeps {l : Fin 8} : Answer.Keeps (doCardingStep l s) := by
  unfold doCardingStep; dsimp only
  exact State.onlyIf_keeps h fun _ => ite_keeps (State.cardRestart_keeps h) (State.cardStep_keeps h)

theorem doInjectionEnd_keeps {l : Fin 8} : Answer.Keeps (doInjectionEnd l s) := by
  unfold doInjectionEnd; dsimp only
  exact State.onlyIf_keeps h fun _ => State.endInject_keeps h

theorem doRevCur_keeps {x : PortSense} : Answer.Keeps (doRevCur x s) := by
  unfold doRevCur; dsimp only
  exact State.onlyIf_keeps h fun _ => State.fault_keeps h

theorem doHiccupRestart_keeps {l : Fin 8} : Answer.Keeps (doHiccupRestart l s) := by
  unfold doHiccupRestart; dsimp only
  exact State.onlyIf_keeps h fun _ => State.hiccupRestart_keeps h

theorem doScrubRead_keeps {word : Fin 0x80000} : Answer.Keeps (doScrubRead word s) := by
  unfold doScrubRead; dsimp only
  exact State.onlyIf_keeps h fun _ => State.scrub_keeps h

theorem doPerturbationWrite_keeps {who : Writer} {off : BitVec 7} {w : Word} :
    Answer.Keeps (doPerturbationWrite who off w s) := by
  unfold doPerturbationWrite; dsimp only
  exact State.onlyIf_keeps h fun _ => State.writeBy_keeps h

/-! ### Instructions with cases of their own -/

theorem doMfc_keeps {k : Core} {rd : Fin 16} {creg : BitVec 6} : Answer.Keeps (doMfc k rd creg s) := by
  refine State.instr_keeps h fun t ht => ?_
  dsimp only
  split
  · exact Ran.trap_keeps ht
  · split
    · exact Ran.trap_keeps ht
    · exact Ran.go_keeps (State.setW_keeps ht)

theorem doMtc_keeps {k : Core} {ra : Fin 16} {creg : BitVec 6} : Answer.Keeps (doMtc k ra creg s) := by
  refine State.instr_keeps h fun t ht => ?_
  dsimp only
  split
  · exact Ran.trap_keeps ht
  · split
    · exact Ran.trap_keeps ht
    · have hwaited := State.spend_keeps (k := k) (n := t.mulWait k creg.toNat) ht
      exact Ran.go_keeps (State.modCore_keeps hwaited (CoreState.setCreg_ok (hwaited.cores k)))

theorem doSvc_keeps {k : Core} {imm : BitVec 16} : Answer.Keeps (doSvc k imm s) := by
  refine State.instr_keeps h fun t ht => ?_
  split
  · exact Ran.go_keeps (State.served_keeps ht)
  · exact Ran.trap_keeps ht

theorem doEret_keeps {k : Core} : Answer.Keeps (doEret k s) := by
  refine State.instr_keeps h fun t ht => ?_
  split
  · exact Ran.trap_keeps ht
  · split
    · exact State.appletRefuses_keeps ht
    · have hspent := State.spend_keeps (k := k) (n := 2) ht
      exact Ran.go_keeps (State.modCore_keeps hspent (CoreState.eret_ok (hspent.cores k)))

theorem doWfe_keeps {k : Core} : Answer.Keeps (doWfe k s) := by
  refine State.instr_keeps h fun t ht => ?_
  split
  · exact State.appletRefuses_keeps ht
  · have hnext := State.spend_keeps (k := k) (n := 1) (State.modCore_same_keeps (k := k)
      (f := fun c => { c with pc := t.nextPc k }) ht rfl rfl rfl)
    dsimp only
    split
    · exact Ran.go_keeps hnext
    · exact Ran.go_keeps (State.setFld_keeps hnext)

theorem doIllegalInstruction_keeps {k : Core} {w : Word} : Answer.Keeps (doIllegalInstruction k w s) :=
  Answer.ite_keeps (Answer.keeps_next h) (State.instr_keeps h fun _ ht => Ran.trap_keeps ht)

end

/-! ### Every row, and a step -/

open Answer in
/-- The rows of one line are made of the same operations. -/
theorem State.exec_keeps {s : State} (h : s.Inv) (c : Instr) : Answer.Keeps (exec c s) := by
  cases c with
  | houseInputGood => exact h.row (a := doHouseInputGood _ s) (onlyIf_keeps h fun _ => houseGood_keeps h)
  | houseInputFail => exact h.row (a := doHouseInputFail _ s) (onlyIf_keeps h fun _ => houseFail_keeps h)
  | d0Reset => exact h.row (a := doD0Reset s) (onlyIf_keeps h fun _ => d0Reset_keeps h)
  | supplyMonitorChange =>
    exact h.row (a := doSupplyMonitorChange _ _ _ _ s)
      (keeps_next (ite_keeps (noteSrc_keeps h) (monitorChange_keeps (noteSrc_keeps h))))
  | vddCoreQualified =>
    exact h.row (a := doVddCoreQualified s) (onlyIf_keeps h fun _ => enterFull_keeps (modPower_keeps h))
  | supplyLoss => exact h.row (a := doSupplyLoss _ s) (onlyIf_keeps h fun _ => supplyLoss_keeps h)
  | vconnInBad => exact h.row (a := doVconnInBad s) (onlyIf_keeps h fun _ => vconnBad_keeps h)
  | lfSrcWrite | pwrDomReqWrite | dormantEnter | healthy | restartOrderly | restartNow | clearFails |
    flashXferGo | loadAll | engineEnClear | clrTrgDrop | peCntClr | vrefWrite | swap | blkGo | fbForce | fbRet |
    retiredClear | vlkMapWrite | vlkCntClr | loffClr | apply | reqDr | reqPr | enter | exit | vdmTxGo |
    vdmRxRelease | pmemRead | pmemPin | pmemUnpin | pmemForget | pmemForgetAllUnpinned | targetWrite |
    seqStateWrite | seqFaultClr | hpCntClr | mbxAckWrite | irqCauseWrite | irqEnWrite | tcvStart | tcvStop |
    urgent | refSelWrite | avgClr | syscalZero | syscalFullScale | syscalCommit | thmGo | write | startClr |
    keyset | holdupUsedClear | protLock | flush | snap | kick | ring | liveStageData | verify | handoverReq |
    ready | alive | liveRetire | retrimGo | commit | tstKey | relock | logClr | parityInjection | registerWrite
    =>
    exact h.write rfl
  | crystalQualified =>
    exact h.row (a := doCrystalQualified s) (onlyIf_keeps h fun _ => modPower_keeps (setBit_keeps h))
  | xtalFail =>
    exact h.row (a := doXtalFail s) (onlyIf_keeps h fun _ => modPower_keeps (setBit_keeps (setBit_keeps h)))
  | syncSeenRise =>
    exact h.row (a := doSyncSeenRise _ s) (onlyIf_keeps h fun _ => chooseRef_keeps (modPower_keeps (setBit_keeps h)))
  | syncLost =>
    exact h.row (a := doSyncLost s)
      (onlyIf_keeps h fun _ => chooseRef_keeps (ite_keeps (setBit_keeps (setBit_keeps h)) (setBit_keeps h)))
  | pllLock =>
    exact h.row (a := doPllLock s)
      (onlyIf_keeps h fun _ => startTimebase_keeps (chooseRef_keeps (setFld_keeps (setBit_keeps h))))
  | clockMonitorTrip => exact h.row (a := doClockMonitorTrip s) (onlyIf_keeps h fun _ => clockTrip_keeps h)
  | domainPowerUp => exact h.row (a := doDomainPowerUp _ s) (onlyIf_keeps h fun _ => domainUp_keeps h)
  | attachWatchDetect => exact h.row (a := doAttachWatchDetect _ s) (onlyIf_keeps h fun _ => wakeBy_keeps h)
  | wake => exact h.row (doWake_keeps h)
  | wakeTimer => exact h.row (a := doWakeTimer s) (onlyIf_keeps h fun _ => timerExpires_keeps h)
  | resetnLow => exact h.row (a := doResetnLow s) (onlyIf_keeps h fun _ => resetnFall_keeps h)
  | resetnRise => exact h.row (a := doResetnRise s) (onlyIf_keeps h fun _ => setHouseOp_keeps (modPower_keeps h))
  | keeperRead => exact h.row (a := doKeeperRead s) (onlyIf_keeps h fun _ => keeperRead_keeps h)
  | startAttemptBegin => exact h.row (a := doStartAttemptBegin s) (onlyIf_keeps h fun _ => startOrSeedling_keeps h)
  | flashProbeDone => exact h.row (a := doFlashProbeDone _ s) (onlyIf_keeps h fun _ => flashProbe_keeps h)
  | candidateReadDone => exact h.row (a := doCandidateReadDone _ _ _ s) (onlyIf_keeps h fun _ => candidate_keeps h)
  | startTimeout => exact h.row (a := doStartTimeout s) (onlyIf_keeps h fun _ => failAttempt_keeps h)
  | retryDelayEnd => exact h.row (a := doRetryDelayEnd s) (onlyIf_keeps h fun _ => retryEnd_keeps h)
  | flashXferDone => exact h.row (doFlashXferDone_keeps h)
  | masterValley =>
    exact h.row (a := doMasterValley _ _ _ s)
      (onlyIf_keeps h fun _ => retrimValley_keeps (retireValley_keeps (masterValley_keeps h)))
  | valley => exact h.row (a := doValley _ s) (onlyIf_keeps h fun _ => valley_keeps h)
  | peak => exact h.row (a := doPeak _ s) (onlyIf_keeps h fun _ => peak_keeps h)
  | triggerFire => exact h.row (a := doTriggerFire _ _ _ s) (onlyIf_keeps h fun _ => triggerFire_keeps h)
  | currentConversionDone => exact h.row (a := doCurrentConversionDone _ s) (keeps_next (convertCurrent_keeps h))
  | delayLineCalDone =>
    exact h.row (a := doDelayLineCalDone _ _ s) (onlyIf_keeps h fun _ => setFld_keeps (setBit_keeps h))
  | recalibration => exact h.row (doRecalibration_keeps h)
  | engineFreeze => exact h.row (a := doEngineFreeze s) (onlyIf_keeps h fun _ => allNeedLoad_keeps (setBit_keeps h))
  | freezeEnd => exact h.row (a := doFreezeEnd s) (onlyIf_keeps h fun _ => allNeedLoad_keeps (setBit_keeps h))
  | faultnLow => exact h.row (a := doFaultnLow s) (keeps_next (faultnFalls_keeps h))
  | compensatorUpdate => exact h.row (doCompensatorUpdate_keeps h)
  | referenceStep => exact h.row (a := doReferenceStep _ s) (keeps_next (refStep_keeps h))
  | cardingStep => exact h.row (doCardingStep_keeps h)
  | fullingEnd => exact h.row (a := doFullingEnd _ s) (onlyIf_keeps h fun _ => modLoop_keeps (setBit_keeps h))
  | noticedInstant => exact h.row (doNoticedInstant_keeps h)
  | prebiasDone => exact h.row (a := doPrebiasDone _ _ _ s) (onlyIf_keeps h fun _ => prebiasDone_keeps h)
  | rampStart => exact h.row (a := doRampStart _ s) (onlyIf_keeps h fun _ => rampAt_keeps (setLoopSt_keeps h))
  | stopLowEnd => exact h.row (a := doStopLowEnd _ s) (onlyIf_keeps h fun _ => stopMid_keeps h)
  | stgEnFall => exact h.row (a := doStgEnFall _ s) (onlyIf_keeps h fun _ => stgEnFall_keeps h)
  | settledRise => exact h.row (a := doSettledRise _ s) (onlyIf_keeps h fun _ => settledRise_keeps h)
  | injectionEnd => exact h.row (doInjectionEnd_keeps h)
  | verdict => exact h.row (a := doVerdict _ _ _ s) (keeps_next (verdict_keeps h))
  | fallbackPulseStart => exact h.row (a := doFallbackPulseStart _ _ _ s) (onlyIf_keeps h fun _ => fbPulse_keeps h)
  | fallbackPulseEnd => exact h.row (a := doFallbackPulseEnd _ s) (keeps_next (fbPulseEnd_keeps h))
  | foldingQuiet => exact h.row (a := doFoldingQuiet _ s) (keeps_next (setBit_keeps h))
  | setTarget => exact h.row (a := doSetTarget _ _ s) (linkFrame_keeps h)
  | setSlew => exact h.row (a := doSetSlew _ _ s) (linkFrame_keeps h)
  | stepNotice => exact h.row (a := doStepNotice _ _ s) (linkFrame_keeps h)
  | setState => exact h.row (a := doSetState _ _ s) (linkFrame_keeps h)
  | getTelemetry => exact h.row (a := doGetTelemetry _ _ s) (linkFrame_keeps h)
  | getStatus => exact h.row (a := doGetStatus _ _ s) (linkFrame_keeps h)
  | clearAlert => exact h.row (a := doClearAlert _ _ s) (linkFrame_keeps h)
  | linkFrameRefused => exact h.row (a := doLinkFrameRefused _ _ _ s) (onlyIf_keeps h fun _ => linkReceive_keeps h)
  | linkAbort =>
    exact h.row (a := doLinkAbort _ _ s)
      (onlyIf_keeps h fun _ => linkErr_keeps (satInc_keeps (ite_keeps h (endPulse_keeps h))))
  | attentionPulse =>
    exact h.row (a := doAttentionPulse _ _ s) (onlyIf_keeps h fun _ => modLink_keeps (setFld_keeps h))
  | attentionPulseEnd => exact h.row (a := doAttentionPulseEnd _ s) (keeps_next (endPulse_keeps h))
  | revCur => exact h.row (doRevCur_keeps h)
  | ovTrip => exact h.row (a := doOvTrip _ _ s) (onlyIf_keeps h fun _ => fault_keeps h)
  | uv => exact h.row (a := doUv _ s) (onlyIf_keeps h fun _ => fault_keeps h)
  | startShort => exact h.row (a := doStartShort _ s) (onlyIf_keeps h fun _ => fault_keeps h)
  | frsFail => exact h.row (a := doFrsFail _ s) (onlyIf_keeps h fun _ => fault_keeps h)
  | portOc => exact h.row (a := doPortOc _ s) (onlyIf_keeps h fun _ => fault_keeps h)
  | sinkUv => exact h.row (a := doSinkUv _ s) (onlyIf_keeps h fun _ => fault_keeps h)
  | ovClr => exact h.row (a := doOvClr _ _ _ s) (rowEffect_keeps h fun _ ht => ite_keeps (ovClr_keeps ht) ht)
  | scTrip => exact h.row (doScTrip_keeps h)
  | overloadBlockEnd => exact h.row (a := doOverloadBlockEnd _ s) (onlyIf_keeps h fun _ => overloadBlock_keeps h)
  | hiccupRestart => exact h.row (doHiccupRestart_keeps h)
  | hiccupClean => exact h.row (a := doHiccupClean _ s) (onlyIf_keeps h fun _ => setFld_keeps h)
  | coreResume => exact h.row (a := doCoreResume _ s) (onlyIf_keeps h fun _ => setFld_keeps h)
  | tcDebounceExpiry => exact h.row (a := doTcDebounceExpiry _ _ _ s) (onlyIf_keeps h fun _ => tcDebounce_keeps h)
  | drpToggle => exact h.row (a := doDrpToggle _ s) (onlyIf_keeps h fun _ => drpToggle_keeps h)
  | errorRecoveryEnd => exact h.row (a := doErrorRecoveryEnd _ s) (onlyIf_keeps h fun _ => unattached_keeps h)
  | tdrptry => exact h.row (doTdrptry_keeps h)
  | detachExceptionEnd => exact h.row (a := doDetachExceptionEnd _ s) (onlyIf_keeps h fun _ => endSpan_keeps h)
  | pdMessageRx => exact h.row (a := doPdMessageRx _ _ _ s) (onlyIf_keeps h fun _ => pdRx_keeps h)
  | sourceCapabilities =>
    exact h.row (a := doSourceCapabilities _ s)
      (Answer.ite_keeps (onMsg_keeps h fun _ _ => sourceCaps_keeps) (keeps_next h))
  | request =>
    exact h.row (a := doRequest _ s) (Answer.ite_keeps (onMsg_keeps h fun _ _ => request_keeps) (keeps_next h))
  | drSwap => exact h.row (a := doDrSwap _ s) (onMsg_keeps h fun _ _ => rxDrSwap_keeps)
  | prSwap =>
    exact h.row (a := doPrSwap _ s) (Answer.ite_keeps (keeps_next h) (onMsg_keeps h fun _ _ => rxPrSwap_keeps))
  | vconnSwap => exact h.row (a := doVconnSwap _ s) (onMsg_keeps h fun _ _ => rxVconnSwap_keeps)
  | eprMode => exact h.row (a := doEprMode _ s) (onlyIf_keeps h fun _ => eprMode_keeps h)
  | eprKeepalive => exact h.row (doEprKeepalive_keeps h)
  | frSwap => exact h.row (a := doFrSwap _ s) (onlyIf_keeps h fun _ => frSwap_keeps h)
  | psRdy => exact h.row (a := doPsRdy _ s) (onMsg_keeps h fun _ _ => partnerReady_keeps)
  | treceive => exact h.row (a := doTreceive _ s) (onlyIf_keeps h fun _ => tReceive_keeps h)
  | hardResetRx => exact h.row (a := doHardResetRx _ s) (onlyIf_keeps h fun _ => hardReset_keeps h)
  | hardResetTx => exact h.row (a := doHardResetTx _ s) (onlyIf_keeps h fun _ => hardReset_keeps h)
  | cableReset => exact h.row (a := doCableReset _ s) (onlyIf_keeps h fun _ => modPort_keeps (emit_keeps h))
  | tsenderresponse => exact h.row (a := doTsenderresponse _ s) (onlyIf_keeps h fun _ => sendSoftReset_keeps h)
  | tenterepr => exact h.row (a := doTenterepr _ s) (onlyIf_keeps h fun _ => sendSoftReset_keeps h)
  | ttypecsendsourcecap =>
    exact h.row (a := doTtypecsendsourcecap _ s)
      (onlyIf_keeps h fun _ => ite_keeps (arm_keeps (sendSourceCaps_keeps (modPort_keeps h))) (disarm_keeps h))
  | tsinkwaitcap => exact h.row (a := doTsinkwaitcap _ s) (onlyIf_keeps h fun _ => timerReset_keeps h)
  | tpstransition => exact h.row (a := doTpstransition _ s) (onlyIf_keeps h fun _ => timerReset_keeps h)
  | tnoresponse => exact h.row (a := doTnoresponse _ s) (onlyIf_keeps h fun _ => timerReset_keeps h)
  | tsourceeprkeepalive => exact h.row (a := doTsourceeprkeepalive _ s) (onlyIf_keeps h fun _ => timerReset_keeps h)
  | tppstimeout => exact h.row (a := doTppstimeout _ s) (onlyIf_keeps h fun _ => timerReset_keeps h)
  | thardreset => exact h.row (a := doThardreset _ s) (onlyIf_keeps h fun _ => endIf_keeps (disarm_keeps h))
  | tsinkeprkeepalive =>
    exact h.row (a := doTsinkeprkeepalive _ s) (onlyIf_keeps h fun _ => arm_keeps (sendCtl_keeps h))
  | tppsrequest =>
    exact h.row (a := doTppsrequest _ s) (onlyIf_keeps h fun _ => startPending_keeps (arm_keeps (modPort_keeps h)))
  | tpssourceon => exact h.row (a := doTpssourceon _ s) (onlyIf_keeps h fun _ => errorRecovery_keeps h)
  | vconnOc => exact h.row (a := doVconnOc _ s) (onlyIf_keeps h fun _ => vconnOverload_keeps h)
  | cableDiscoveryRetry => exact h.row (a := doCableDiscoveryRetry _ s) (keeps_next (discoverCable_keeps h))
  | frsSignal => exact h.row (a := doFrsSignal _ s) (onlyIf_keeps h fun _ => frsSignal_keeps h)
  | pmemWrite => exact h.row (a := doPmemWrite _ s) (onlyIf_keeps h fun _ => pmemWrite_keeps h)
  | converterNodeQualified =>
    exact h.row (a := doConverterNodeQualified _ s) (onlyIf_keeps h fun _ => closeFets_keeps h)
  | vreached => exact h.row (a := doVreached _ s) (onlyIf_keeps h fun _ => vreached_keeps h)
  | gateClosed => exact h.row (a := doGateClosed _ s) (onlyIf_keeps h fun _ => gateClosed_keeps h)
  | gateFail => exact h.row (a := doGateFail _ s) (onlyIf_keeps h fun _ => fault_keeps (modPath_keeps h))
  | dschgDone => exact h.row (a := doDschgDone _ s) (keeps_next (dschgDone_keeps h))
  | dschgTmo => exact h.row (a := doDschgTmo _ s) (onlyIf_keeps h fun _ => fault_keeps (setBit_keeps h))
  | sinkRestart =>
    exact h.row (a := doSinkRestart _ s) (onlyIf_keeps h fun _ => endIf_keeps (sinkStart_keeps (modPath_keeps h)))
  | reverseCurrentEnd => exact h.row (a := doReverseCurrentEnd _ s) (onlyIf_keeps h fun _ => modChan_keeps h)
  | vsysShed =>
    exact h.row (a := doVsysShed s) (keeps_next (forAll_keeps (fun _ _ => shedPort_keeps) (raise_keeps h)))
  | portOv => exact h.row (a := doPortOv _ s) (onlyIf_keeps h fun _ => portLatch_keeps h)
  | vsysOv =>
    exact h.row (a := doVsysOv s)
      (keeps_next (forAll_keeps (fun _ _ ht => ite_keeps (portLatch_keeps ht) ht) (raise_keeps h)))
  | peakTrip => exact h.row (a := doPeakTrip _ s) (onlyIf_keeps h fun _ => peakTrip_keeps h)
  | dbOc => exact h.row (a := doDbOc _ s) (onlyIf_keeps h fun _ => dbOc_keeps h)
  | dbRetry =>
    exact h.row (a := doDbRetry _ s) (onlyIf_keeps h fun _ => endIf_keeps (tryPass_keeps (modPath_keeps h)))
  | grantRequest => exact h.row (a := doGrantRequest _ _ s) (onlyIf_keeps h fun _ => grantRequest_keeps h)
  | budgetRecompute =>
    exact h.row (a := doBudgetRecompute s)
      (onlyIf_keeps h fun _ => forAll_keeps (fun _ _ => readvertise_keeps) (recompute_keeps h))
  | railOn => exact h.row (a := doRailOn _ s) (onlyIf_keeps h fun _ => turnOn_keeps h)
  | railOff => exact h.row (a := doRailOff _ s) (onlyIf_keeps h fun _ => turnOff_keeps (modRail_keeps h))
  | seqWindowCrossing => exact h.row (a := doSeqWindowCrossing _ _ s) (keeps_next (crossing_keeps h))
  | railGood => exact h.row (a := doRailGood _ s) (onlyIf_keeps h fun _ => setBit_keeps h)
  | checkerSelfTest => exact h.row (a := doCheckerSelfTest _ s) (onlyIf_keeps h fun _ => setBit_keeps h)
  | railBad => exact h.row (a := doRailBad _ s) (onlyIf_keeps h fun _ => railBad_keeps h)
  | railReadsOff => exact h.row (a := doRailReadsOff _ s) (onlyIf_keeps h fun _ => modRail_keeps h)
  | seqPowerUpStepComplete =>
    exact h.row (a := doSeqPowerUpStepComplete _ s) (onlyIf_keeps h fun _ => upComplete_keeps h)
  | seqPowerDownStepComplete =>
    exact h.row (a := doSeqPowerDownStepComplete s) (onlyIf_keeps h fun _ => downComplete_keeps h)
  | pgTimeout => exact h.row (a := doPgTimeout s) (onlyIf_keeps h fun _ => pgTimeout_keeps h)
  | disTimeout => exact h.row (a := doDisTimeout s) (onlyIf_keeps h fun _ => disTimeout_keeps h)
  | syncReleaseQualified => exact h.row (a := doSyncReleaseQualified s) (onlyIf_keeps h fun _ => syncStep_keeps h)
  | syncHoldEnd =>
    exact h.row (a := doSyncHoldEnd s)
      (onlyIf_keeps h fun _ =>
        ite_keeps (driveSync_keeps (driveSync_keeps (modSeq_keeps h))) (driveSync_keeps (modSeq_keeps h)))
  | syncTimeout => exact h.row (a := doSyncTimeout s) (onlyIf_keeps h fun _ => abort_keeps (seqFault_keeps h))
  | rstoutRelease => exact h.row (a := doRstoutRelease _ s) (onlyIf_keeps h fun _ => modRst_keeps (driveRst_keeps h))
  | page => exact h.row (keeps_next (transact_keeps h cmdPage_keeps))
  | operation => exact h.row (keeps_next (transact_keeps h cmdOperation_keeps))
  | onOffConfig => exact h.row (keeps_next (transact_keeps h cmdOnOffConfig_keeps))
  | clearFaults => exact h.row (keeps_next (transact_keeps h cmdClearFaults_keeps))
  | voutCommand => exact h.row (keeps_next (transact_keeps h cmdVoutCommand_keeps))
  | voutMax => exact h.row (keeps_next (transact_keeps h cmdVoutMax_keeps))
  | voutTransitionRate => exact h.row (keeps_next (transact_keeps h cmdVoutTransitionRate_keeps))
  | ioutOcFaultLimit => exact h.row (keeps_next (transact_keeps h cmdIoutOcFaultLimit_keeps))
  | statusByte => exact h.row (keeps_next (transact_keeps h readByte_keeps))
  | statusVout => exact h.row (keeps_next (transact_keeps h readByte_keeps))
  | statusIout => exact h.row (keeps_next (transact_keeps h readByte_keeps))
  | statusTemperature => exact h.row (keeps_next (transact_keeps h readByte_keeps))
  | statusCml => exact h.row (keeps_next (transact_keeps h readByte_keeps))
  | statusWord => exact h.row (keeps_next (transact_keeps h readWord_keeps))
  | readVin => exact h.row (keeps_next (transact_keeps h readWord_keeps))
  | readVout => exact h.row (keeps_next (transact_keeps h readWord_keeps))
  | readIout => exact h.row (keeps_next (transact_keeps h readWord_keeps))
  | readTemperature1 => exact h.row (keeps_next (transact_keeps h readWord_keeps))
  | readPout => exact h.row (keeps_next (transact_keeps h readWord_keeps))
  | mfrId => exact h.row (keeps_next (transact_keeps h readBlock_keeps))
  | mfrModel => exact h.row (keeps_next (transact_keeps h readBlock_keeps))
  | mfrRevision => exact h.row (keeps_next (transact_keeps h readBlock_keeps))
  | regWrite => exact h.row (keeps_next (regTransact_keeps h cmdRegWrite_keeps))
  | regPtr => exact h.row (keeps_next (transact_keeps h cmdRegPtr_keeps))
  | regRead => exact h.row (keeps_next (transact_keeps h cmdRegRead_keeps))
  | regMaskwrite => exact h.row (keeps_next (regTransact_keeps h cmdRegMaskwrite_keeps))
  | regResult => exact h.row (keeps_next (transact_keeps h cmdRegResult_keeps))
  | unsupportedCommand =>
    exact h.row (a := doUnsupportedCommand _ _ _ s)
      (onlyIf_keeps h fun _ => ite_keeps (refuseCommand_keeps h) (emit_keeps h))
  | abandoned => exact h.row (a := doAbandoned _ s) (onlyIf_keeps h fun _ => abandon_keeps h)
  | sclLowTimeout => exact h.row (a := doSclLowTimeout _ s) (onlyIf_keeps h fun _ => setCml_keeps (abandon_keeps h))
  | stretchTimeout => exact h.row (a := doStretchTimeout _ _ s) (onlyIf_keeps h fun _ => stretchOut_keeps h)
  | hostNotify => exact h.row (a := doHostNotify _ _ s) (keeps_next (notifyRow_keeps h))
  | notifyRetry => exact h.row (a := doNotifyRetry _ _ s) (keeps_next (notifyRow_keeps h))
  | claim => exact h.row (a := doClaim _ _ s) (tenancyRow_keeps h)
  | release => exact h.row (a := doRelease _ _ s) (tenancyRow_keeps h)
  | give => exact h.row (a := doGive _ _ s) (tenancyRow_keeps h)
  | mbxDataWrite =>
    exact h.row (a := doMbxDataWrite _ _ _ s) (onlyIf_keeps h fun _ => writeBy_keeps (nackDown_keeps h))
  | checkMismatch =>
    exact h.row (a := doCheckMismatch _ s) (onlyIf_keeps h fun _ => handover_keeps (countMismatch_keeps h))
  | senseXcheck => exact h.row (a := doSenseXcheck _ s) (onlyIf_keeps h fun _ => fault_keeps (countMismatch_keeps h))
  | clkFrc =>
    exact h.row (a := doClkFrc s) (onlyIf_keeps h fun _ => forAll_keeps (fun _ _ => loopSafe_keeps) (raise_keeps h))
  | clkSlow => exact h.row (a := doClkSlow s) (onlyIf_keeps h fun _ => modPower_keeps (setBit_keeps (raise_keeps h)))
  | scrubRead => exact h.row (doScrubRead_keeps h)
  | regParitySweep =>
    exact h.row (a := doRegParitySweep s) (onlyIf_keeps h fun _ => foldl_keeps (fun _ _ => parityFails_keeps) h)
  | conversionDone => exact h.row (doConversionDone_keeps h)
  | refSettled => exact h.row (a := doRefSettled s) (onlyIf_keeps h fun _ => settleRef_keeps h)
  | thmDemandTimer => exact h.row (a := doThmDemandTimer s) (onlyIf_keeps h fun _ => thmDemand_keeps h)
  | shutHoldMeasure => exact h.row (a := doShutHoldMeasure s) (onlyIf_keeps h fun _ => thmDemand_keeps h)
  | thDone => exact h.row (a := doThDone _ s) (onlyIf_keeps h fun _ => thermal_keeps h)
  | keeperGroupDone => exact h.row (doKeeperGroupDone_keeps h)
  | keeperOperationDone => exact h.row (doKeeperOperationDone_keeps h)
  | opminPersist => exact h.row (a := doOpminPersist s) (onlyIf_keeps h fun _ => kprSpread_keeps h)
  | kprRdataRead =>
    exact h.row (a := doKprRdataRead _ s) (onlyIf_keeps h fun _ => met_keeps (emit_keeps (readReg_keeps h)))
  | recorderPersist => exact h.row (a := doRecorderPersist s) (onlyIf_keeps h fun _ => persist_keeps h)
  | statisticsSample => exact h.row (a := doStatisticsSample _ _ _ s) (onlyIf_keeps h fun _ => sample_keeps h)
  | add => exact h.row (a := doAdd _ _ _ _ s) (alu_keeps h)
  | sub => exact h.row (a := doSub _ _ _ _ s) (alu_keeps h)
  | and_ => exact h.row (a := doAnd _ _ _ _ s) (alu_keeps h)
  | or_ => exact h.row (a := doOr _ _ _ _ s) (alu_keeps h)
  | xor => exact h.row (a := doXor _ _ _ _ s) (alu_keeps h)
  | shl => exact h.row (a := doShl _ _ _ _ s) (alu_keeps h)
  | shr => exact h.row (a := doShr _ _ _ _ s) (alu_keeps h)
  | sar => exact h.row (a := doSar _ _ _ _ s) (alu_keeps h)
  | ror => exact h.row (a := doRor _ _ _ _ s) (alu_keeps h)
  | bfi => exact h.row (a := doBfi _ _ _ _ _ s) (alu_keeps h)
  | cmp => exact h.row (a := doCmp _ _ _ s) (instr_keeps h fun _ ht => setPsr_keeps ht fun _ => withFlags_lt)
  | tst => exact h.row (a := doTst _ _ _ s) (instr_keeps h fun _ ht => setPsr_keeps ht fun _ => withFlags_lt)
  | cmpi => exact h.row (a := doCmpi _ _ _ s) (instr_keeps h fun _ ht => setPsr_keeps ht fun _ => withFlags_lt)
  | addi => exact h.row (a := doAddi _ _ _ _ s) (alu1_keeps h)
  | andi => exact h.row (a := doAndi _ _ _ _ s) (alu1_keeps h)
  | ori => exact h.row (a := doOri _ _ _ _ s) (alu1_keeps h)
  | xori => exact h.row (a := doXori _ _ _ _ s) (alu1_keeps h)
  | shli => exact h.row (a := doShli _ _ _ _ s) (alu1_keeps h)
  | shri => exact h.row (a := doShri _ _ _ _ s) (alu1_keeps h)
  | sari => exact h.row (a := doSari _ _ _ _ s) (alu1_keeps h)
  | rori => exact h.row (a := doRori _ _ _ _ s) (alu1_keeps h)
  | clz => exact h.row (a := doClz _ _ _ s) (alu1_keeps h)
  | popc => exact h.row (a := doPopc _ _ _ s) (alu1_keeps h)
  | bfx => exact h.row (a := doBfx _ _ _ _ _ s) (alu1_keeps h)
  | bfxs => exact h.row (a := doBfxs _ _ _ _ _ s) (alu1_keeps h)
  | perm => exact h.row (a := doPerm _ _ _ _ s) (alu1_keeps h)
  | lui => exact h.row (a := doLui _ _ _ s) (compute_keeps h)
  | sel => exact h.row (a := doSel _ _ _ _ _ s) (compute_keeps h)
  | macq => exact h.row (a := doMacq _ _ _ s) (mulRow_keeps h)
  | mulu => exact h.row (a := doMulu _ _ _ s) (mulRow_keeps h)
  | muls => exact h.row (a := doMuls _ _ _ s) (mulRow_keeps h)
  | macs => exact h.row (a := doMacs _ _ _ s) (mulRow_keeps h)
  | mulq => exact h.row (a := doMulq _ _ _ s) (mulRow_keeps h)
  | ldw => exact h.row (a := doLdw _ _ _ _ _ s) (loadRow_keeps h)
  | ldh => exact h.row (a := doLdh _ _ _ _ _ s) (loadRow_keeps h)
  | ldhs => exact h.row (a := doLdhs _ _ _ _ _ s) (loadRow_keeps h)
  | ldb => exact h.row (a := doLdb _ _ _ _ _ s) (loadRow_keeps h)
  | ldbs => exact h.row (a := doLdbs _ _ _ _ _ s) (loadRow_keeps h)
  | stw => exact h.row (a := doStw _ _ _ _ s) (storeRow_keeps h)
  | sth => exact h.row (a := doSth _ _ _ _ s) (storeRow_keeps h)
  | stb => exact h.row (a := doStb _ _ _ _ s) (storeRow_keeps h)
  | bset => exact h.row (a := doBset _ _ s) (bitSet_keeps h)
  | bclr => exact h.row (a := doBclr _ _ s) (bitSet_keeps h)
  | btgl => exact h.row (a := doBtgl _ _ s) (bitSet_keeps h)
  | boprSet => exact h.row (a := doBoprSet _ _ s) (bitSet_keeps h)
  | boprClear => exact h.row (a := doBoprClear _ _ s) (bitSet_keeps h)
  | boprToggle => exact h.row (a := doBoprToggle _ _ s) (bitSet_keeps h)
  | btst => exact h.row (a := doBtst _ _ s) (bitTest_keeps h)
  | boprTest => exact h.row (a := doBoprTest _ _ s) (bitTest_keeps h)
  | bbs => exact h.row (a := doBbs _ _ _ s) (bitRow_keeps h fun _ _ => branchIf_keeps)
  | bbc => exact h.row (a := doBbc _ _ _ s) (bitRow_keeps h fun _ _ => branchIf_keeps)
  | boprRead => exact h.row (a := doBoprRead _ _ _ s) (bitRow_keeps h fun _ _ => setW_keeps)
  | bcond => exact h.row (a := doBcond _ _ _ s) (instr_keeps h fun _ => branchIf_keeps)
  | call => exact h.row (a := doCall _ _ s) (instr_keeps h fun _ => setW_keeps)
  | jlr => exact h.row (a := doJlr _ _ _ s) (instr_keeps h fun _ => setW_keeps)
  | jr => exact h.row (a := doJr _ _ s) (instr_keeps h fun _ ht => ht)
  | fence => exact h.row (a := doFence _ s) (instr_keeps h fun _ ht => ht)
  | multiplierResult => exact h.row (doMultiplierResult_keeps h)
  | mfc => exact h.row (doMfc_keeps h)
  | mtc => exact h.row (doMtc_keeps h)
  | svc => exact h.row (doSvc_keeps h)
  | eret => exact h.row (doEret_keeps h)
  | wfe => exact h.row (doWfe_keeps h)
  | event => exact h.row (a := doEvent _ s) (keeps_next (takeEvent_keeps (wakeCore_keeps h)))
  | budget => exact h.row (a := doBudget _ s) (keeps_next (takeBudget_keeps h))
  | watchdogExpiry => exact h.row (a := doWatchdogExpiry _ s) (onlyIf_keeps h fun _ => coreFault_keeps h)
  | coreTimerExpiry => exact h.row (a := doCoreTimerExpiry _ s) (onlyIf_keeps h fun _ => timerEnd_keeps h)
  | appletInvocation =>
    exact h.row (a := doAppletInvocation _ _ _ _ _ s) (keeps_next (ite_keeps (invoke_keeps h) (appletDue_keeps h)))
  | handoverTimeout => exact h.row (a := doHandoverTimeout _ s) (onlyIf_keeps h fun _ => handoverFails_keeps h)
  | handoverCopyDone => exact h.row (a := doHandoverCopyDone _ s) (onlyIf_keeps h fun _ => copyDone_keeps h)
  | notAlive => exact h.row (a := doNotAlive _ s) (onlyIf_keeps h fun _ => notAlive_keeps h)
  | retrimTwinSettled =>
    exact h.row (a := doRetrimTwinSettled _ s)
      (onRetrim_keeps h fun _ _ ht => ite_keeps (setRetrim_keeps ht) (retrimBack_keeps ht))
  | retrimTrimsComputed =>
    exact h.row (a := doRetrimTrimsComputed _ _ s)
      (onRetrim_keeps h fun _ _ ht => ite_keeps (setRetrim_keeps (setReg_keeps ht)) (retrimBack_keeps ht))
  | retrimTimeout => exact h.row (a := doRetrimTimeout s) (onRetrim_keeps h fun _ _ => retrimBack_keeps)
  | retrimAbort => exact h.row (doRetrimAbort_keeps h)
  | tstKeyLockoutEnd => exact h.row (a := doTstKeyLockoutEnd s) (onlyIf_keeps h fun _ => modTst_keeps h)
  | tstUnlockTimeout => exact h.row (a := doTstUnlockTimeout s) (onlyIf_keeps h fun _ => keyBad_keeps h)
  | perturbationWrite => exact h.row (doPerturbationWrite_keeps h)
  | illegalInstruction => exact h.row (doIllegalInstruction_keeps h)
  | coreHalt =>
    exact h.row (a := doCoreHalt _ s) (onlyIf_keeps h fun _ => setFld_keeps (modCore_same_keeps h rfl rfl rfl))
  | testEnChange => exact h.row (a := doTestEnChange _ s) (keeps_next (modPower_keeps h))
  | tpshardreset =>
    exact h.row (a := doTpshardreset _ s)
      (onlyIf_keeps h fun _ => modPath_keeps (discharge_keeps (openFets_keeps (pathOff_keeps h))))
  | tsrcrecover => exact h.row (a := doTsrcrecover _ s) (onlyIf_keeps h fun _ => modPath_keeps (sourceStart_keeps h))
  | prSwapSourceOff =>
    exact h.row (a := doPrSwapSourceOff _ s)
      (onlyIf_keeps h fun _ => discharge_keeps (openFets_keeps (pathOff_keeps h)))
  | frsSignalEnd => exact h.row (a := doFrsSignalEnd _ s) (keeps_next (modPort_keeps h))

/-- Settles O4: a step is a row on the state with the rest of the queue, or an idle millisecond. -/
theorem everyStepKeepsTheInvariant : Obligations.EveryStepKeepsTheInvariant := by
  unfold Obligations.EveryStepKeepsTheInvariant
  intro s t h hstep
  unfold step at hstep
  split at hstep
  case h_1 c cs _ =>
    have hrest : { s with pending := cs }.Inv := h.of_same rfl rfl rfl rfl rfl rfl rfl rfl rfl
    exact State.exec_keeps hrest c t hstep
  case h_2 => exact Answer.keeps_next (State.settled_keeps h (State.tick_keeps h)) t hstep

end Sys2Proof.Machine
end

section
/-!
Every row answers a next state. Most rows are a change of the state under a condition (`State.onlyIf`, `State.instr`), whose
answer is a next state by definition; the rows that first look for what they act on (a message, an operation under way)
answer one in either case. And what a step does: the command in front, or the idle millisecond.
-/

namespace Sys2Proof.Machine

theorem State.watch_answers {s : State} {a : Answer} (h : ∃ t, a = .next t) : ∃ t, s.watch a = .next t := by
  obtain ⟨t, rfl⟩ := h
  exact ⟨_, rfl⟩

theorem Answer.ite_answers {c : Prop} [Decidable c] {a b : Answer} (ha : ∃ t, a = .next t) (hb : ∃ t, b = .next t) :
    ∃ t, (if c then a else b) = .next t := by
  split
  · exact ha
  · exact hb

theorem State.onMsg_answers (s : State) (p : Port) (f : PdType → Bool) (act : PdMsg → State → State) :
    ∃ t, s.onMsg p f act = .next t := by
  unfold State.onMsg
  split <;> exact ⟨_, rfl⟩

theorem State.onRetrim_answers (s : State) (steps : List RetrimStep) (f : Retrim → State → State) :
    ∃ t, s.onRetrim steps f = .next t := by
  unfold State.onRetrim
  split <;> exact ⟨_, rfl⟩

theorem exec_answers (c : Instr) (s : State) : ∃ t, exec c s = .next t := by
  cases c with
  | drSwap | vconnSwap | psRdy => exact State.watch_answers (State.onMsg_answers ..)
  | retrimTwinSettled | retrimTrimsComputed | retrimTimeout => exact State.watch_answers (State.onRetrim_answers ..)
  | sourceCapabilities | request =>
    exact State.watch_answers (Answer.ite_answers (State.onMsg_answers ..) ⟨_, rfl⟩)
  | prSwap => exact State.watch_answers (Answer.ite_answers ⟨_, rfl⟩ (State.onMsg_answers ..))
  | flashXferDone | recalibration | compensatorUpdate | noticedInstant | scTrip | conversionDone
  | keeperGroupDone | keeperOperationDone | retrimAbort | illegalInstruction =>
    refine State.watch_answers ?_
    simp only [doFlashXferDone, doRecalibration, doCompensatorUpdate, doNoticedInstant, doScTrip,
      doConversionDone, doKeeperGroupDone, doKeeperOperationDone, doRetrimAbort, doIllegalInstruction]
    split <;> exact ⟨_, rfl⟩
  | eprKeepalive =>
    refine State.watch_answers ?_
    unfold doEprKeepalive
    split
    · exact Answer.ite_answers ⟨_, rfl⟩ ⟨_, rfl⟩
    · exact ⟨_, rfl⟩
  | _ => exact ⟨_, rfl⟩

/-- Settles O3. -/
theorem everyCommandAnswersANextState : Obligations.EveryCommandAnswersANextState := exec_answers

/-- Settles O1. -/
theorem stepRunsTheCommandInFront : Obligations.StepRunsTheCommandInFront := by
  unfold Obligations.StepRunsTheCommandInFront
  intro s c cs hpending
  simp only [step, hpending]

/-- Settles O5: every memory is empty at reset, and every core stands as after its own reset. -/
theorem resetMeetsTheInvariant : Obligations.ResetMeetsTheInvariant where
  regs := rfl
  act := rfl
  sram := rfl
  pmem := rfl
  cells := rfl
  stats := rfl
  extremes := rfl
  snap := rfl
  cores k := by
    obtain ⟨_, _, hcores⟩ := State.reset_inv_mems
    simpa [hcores] using CoreState.reset_ok

/-! ### The idle millisecond (R397, R403, R431) -/

theorem State.tickClock_of_houseOk {s : State} (h : s.bit F.SUPPLY_STATUS_HOUSE_OK = true) :
    s.tickClock = s.modPower fun p =>
      { p with
        ms := (p.ms + 1) % 2 ^ 32
        opmin := if (p.ms + 1) % 60000 = 0 then (p.opmin + 1) % 2 ^ 32 else p.opmin } := by
  simp [State.tickClock, h]

theorem State.tickTimer_of_runs {s : State} {k : Core} (hdom : s.domOn 2 = true) (hst : s.coreSt k ≠ 3)
    (hcount : 0 < s.fld (F.CORE_Ck_TIMER_COUNT k)) :
    s.tickTimer k = if s.fld (F.CORE_Ck_TIMER_COUNT k) ≤ 1000 then s.timerEnd k
      else s.setFld (F.CORE_Ck_TIMER_COUNT k) (s.fld (F.CORE_Ck_TIMER_COUNT k) - 1000) := by
  simp [State.tickTimer, hdom, hst, hcount.ne']

/-- Settles O2. -/
theorem anEmptyQueueLetsAMillisecondPass : Obligations.AnEmptyQueueLetsAMillisecondPass := by
  unfold Obligations.AnEmptyQueueLetsAMillisecondPass
  refine ⟨fun s hempty => ?_, fun s hbad => ?_, fun s hgood => ?_, fun s k hdom hst hmore => ?_,
    fun s k hdom hst hsome hlast => ?_⟩
  · simp only [step, hempty]
  · simp [State.tickClock, hbad]
  · rw [State.tickClock_of_houseOk hgood]
    exact ⟨rfl, rfl⟩
  · rw [State.tickTimer_of_runs hdom hst (by omega), if_neg (by omega)]
  · rw [State.tickTimer_of_runs hdom hst hsome, if_pos hlast, State.timerEnd]

end Sys2Proof.Machine
end

section
/-!
What an instruction of a core that has fetched comes to, and an exception that is taken (R415, R426).
-/

namespace Sys2Proof.Machine

section
variable {s u t : State} {k : Core} {f : State → Ran} (h : s.Fetched k u)
include h

theorem State.watch_instr_of_fetched : s.watch (s.instr k f) = .next (s.settled (u.finish k (f u))) :=
  State.watch_of_next (State.instr_of_fetched h f)

/-- An instruction that goes on at its next PC. -/
theorem State.watch_instr_go {pc : Word} {n : Nat} (hf : f u = .go t pc n) (ht : t.coreSt k = 1) :
    s.watch (s.instr k f) = .next (s.settled (t.retire k pc n)) := by
  rw [State.watch_instr_of_fetched h, hf, State.finish_go ht]

/-- An instruction, SVC excepted, that takes an exception: EPC takes its own address. -/
theorem State.watch_instr_trap {e : Exc} {v : Word} (hf : f u = .trap e v t) (he : e ≠ .svc) :
    s.watch (s.instr k f) = .next (s.settled (t.exception k e (u.core k).pc v)) := by
  rw [State.watch_instr_of_fetched h, hf, State.finish, if_neg he]

end

/-- An exception with EXL 0 is taken. -/
theorem State.exception_of_exl_clear {s : State} {k : Core} {e : Exc} {epc v : Word} (h : s.psrBit k psrExl = false) :
    s.exception k e epc v = ((s.appletFault k e).modCore k fun c => c.enter e epc v).spend k 3 := by
  simp [State.exception, h]

end Sys2Proof.Machine
end

section
/-!
The words of the Pletra instructions (R422-R424, Tables 14.5 and 14.7): what each field of an encoded word reads, and that
a word is put together again from its fields. Decoding and encoding are then inverse to one another, format by format.
-/

namespace Sys2Proof.Machine

open Sys2Proof.Pletra

/-! ### Fields of a word by arithmetic -/

theorem extract_toNat (w : Word) (lo len : Nat) : (w.extractLsb' lo len).toNat = w.toNat / 2 ^ lo % 2 ^ len := by
  rw [BitVec.extractLsb'_toNat, Nat.shiftRight_eq_div_pow]

theorem extract_low_toNat (w : Word) (len : Nat) : (w.extractLsb' 0 len).toNat = w.toNat % 2 ^ len := by
  rw [extract_toNat, pow_zero, Nat.div_one]

theorem op_eq (w : Word) : op w = w.toNat / 2 ^ 26 % 2 ^ 6 := extract_toNat w 26 6
theorem rd_val (w : Word) : (rd w).val = w.toNat / 2 ^ 22 % 2 ^ 4 := extract_toNat w 22 4
theorem ra_val (w : Word) : (ra w).val = w.toNat / 2 ^ 18 % 2 ^ 4 := extract_toNat w 18 4
theorem rb_val (w : Word) : (rb w).val = w.toNat / 2 ^ 14 % 2 ^ 4 := extract_toNat w 14 4
theorem pos_val (w : Word) : (pos w).val = w.toNat / 2 ^ 13 % 2 ^ 5 := extract_toNat w 13 5
theorem lm1_val (w : Word) : (lm1 w).val = w.toNat / 2 ^ 8 % 2 ^ 5 := extract_toNat w 8 5

/-- A field that reads `v`. -/
theorem extract_eq {w : Word} {lo len : Nat} {v : BitVec len} (h : w.toNat / 2 ^ lo % 2 ^ len = v.toNat) :
    w.extractLsb' lo len = v :=
  BitVec.eq_of_toNat_eq ((extract_toNat w lo len).trans h)

theorem extract_low_eq {w : Word} {len : Nat} {v : BitVec len} (h : w.toNat % 2 ^ len = v.toNat) :
    w.extractLsb' 0 len = v :=
  BitVec.eq_of_toNat_eq ((extract_low_toNat w len).trans h)

theorem extract_eq_zero {w : Word} {lo len : Nat} (h : w.toNat / 2 ^ lo % 2 ^ len = 0) : w.extractLsb' lo len = 0 :=
  BitVec.eq_of_toNat_eq ((extract_toNat w lo len).trans h)

/-! ### The formats -/

/-- A word of the register-to-register format. -/
structure FieldsR (w : Word) (o : Nat) (d a b : Fin 16) (f : Nat) : Prop where
  op : op w = o
  rd : rd w = d
  ra : ra w = a
  rb : rb w = b
  fn : (fn w).toNat = f

/-- A word of a format whose low 18 bits are one number. -/
structure FieldsI (w : Word) (o : Nat) (d a : Fin 16) (v : Nat) : Prop where
  op : op w = o
  rd : rd w = d
  ra : ra w = a
  imm : w.toNat % 2 ^ 18 = v

/-- A word of the bit formats. -/
structure FieldsX (w : Word) (o : Nat) (bit off : BitVec 13) : Prop where
  op : op w = o
  bit : bitNo w = bit
  off : off13 w = off

theorem encR_fields {o f : Nat} {d a b : Fin 16} (ho : o < 64) (hf : f < 2 ^ 14) :
    FieldsR (encR o d a b f) o d a b f := by
  have hw : (encR o d a b f).toNat = o * 2 ^ 26 + d.val * 2 ^ 22 + a.val * 2 ^ 18 + b.val * 2 ^ 14 + f := by
    rw [encR, BitVec.toNat_ofNat]
    omega
  generalize encR o d a b f = w at hw
  refine ⟨?_, Fin.ext ?_, Fin.ext ?_, Fin.ext ?_, (extract_toNat w 0 14).trans ?_⟩
  · rw [op_eq]; omega
  · rw [rd_val]; omega
  · rw [ra_val]; omega
  · rw [rb_val]; omega
  · omega

theorem encI_fields {o v : Nat} {d a : Fin 16} (ho : o < 64) (hv : v < 2 ^ 18) : FieldsI (encI o d a v) o d a v := by
  have hw : (encI o d a v).toNat = o * 2 ^ 26 + d.val * 2 ^ 22 + a.val * 2 ^ 18 + v := by
    rw [encI, BitVec.toNat_ofNat]
    omega
  generalize encI o d a v = w at hw
  refine ⟨?_, Fin.ext ?_, Fin.ext ?_, ?_⟩
  · rw [op_eq]; omega
  · rw [rd_val]; omega
  · rw [ra_val]; omega
  · omega

theorem encX_fields {o : Nat} {bit off : BitVec 13} (ho : o < 64) : FieldsX (encX o bit off) o bit off := by
  have hw : (encX o bit off).toNat = o * 2 ^ 26 + bit.toNat * 2 ^ 13 + off.toNat := by
    rw [encX, BitVec.toNat_ofNat]
    omega
  generalize encX o bit off = w at hw
  refine ⟨?_, extract_eq ?_, extract_eq ?_⟩
  · rw [op_eq]; omega
  · omega
  · omega

theorem FieldsR.encR_eq {w : Word} {o f : Nat} {d a b : Fin 16} (h : FieldsR w o d a b f) : encR o d a b f = w := by
  obtain ⟨rfl, rfl, rfl, rfl, hf⟩ := h
  have hfn : f = w.toNat % 2 ^ 14 := hf.symm.trans (extract_low_toNat w 14)
  refine BitVec.eq_of_toNat_eq ?_
  rw [encR, BitVec.toNat_ofNat, op_eq, rd_val, ra_val, rb_val]
  omega

theorem FieldsI.encI_eq {w : Word} {o v : Nat} {d a : Fin 16} (h : FieldsI w o d a v) : encI o d a v = w := by
  obtain ⟨rfl, rfl, rfl, rfl⟩ := h
  refine BitVec.eq_of_toNat_eq ?_
  rw [encI, BitVec.toNat_ofNat, op_eq, rd_val, ra_val]
  omega

theorem FieldsX.encX_eq {w : Word} {o : Nat} {bit off : BitVec 13} (h : FieldsX w o bit off) : encX o bit off = w := by
  obtain ⟨rfl, rfl, rfl⟩ := h
  refine BitVec.eq_of_toNat_eq ?_
  rw [encX, BitVec.toNat_ofNat, op_eq, bitNo, off13, extract_toNat, extract_toNat]
  omega

/-! ### What the low bits hold -/

section
variable {w : Word} {o : Nat} {d a b : Fin 16}

theorem eq_of_imm18 {len : Nat} {v : BitVec len} (h : w.toNat % 2 ^ 18 = v.toNat) (hlen : len ≤ 18) :
    w.extractLsb' 0 len = v := by
  refine BitVec.eq_of_toNat_eq ?_
  have hmod : w.toNat % 2 ^ 18 % 2 ^ len = w.toNat % 2 ^ len := Nat.mod_mod_of_dvd _ (Nat.pow_dvd_pow 2 hlen)
  rw [extract_low_toNat, ← hmod, h, Nat.mod_eq_of_lt v.isLt]

theorem imm18_eq {v : BitVec 18} (h : w.toNat % 2 ^ 18 = v.toNat) : imm18 w = v := eq_of_imm18 h le_rfl

theorem amount_eq_some {n : Fin 32} : amount w = some n ↔ w.toNat % 2 ^ 18 = n.val := by
  have hlow : ((w.extractLsb' 0 5).toFin).val = w.toNat % 2 ^ 5 := extract_low_toNat w 5
  have hhigh : w.extractLsb' 5 13 = 0 ↔ w.toNat / 2 ^ 5 % 2 ^ 13 = 0 := by
    rw [← extract_toNat]
    exact ⟨fun h => by rw [h]; rfl, fun h => BitVec.eq_of_toNat_eq h⟩
  rw [amount]
  split
  case isTrue hzero =>
    have := hhigh.1 hzero
    rw [Option.some_inj, Fin.ext_iff, hlow]
    omega
  case isFalse hzero =>
    have := mt hhigh.2 hzero
    simp only [reduceCtorEq, false_iff]
    omega

theorem cond_eq_some {c : Fin 16} {n : Fin 15} : Pletra.cond c = some n ↔ c.val = n.val := by
  rw [Pletra.cond]
  split
  · rw [Option.some_inj, Fin.ext_iff]
  · simp only [reduceCtorEq, false_iff]
    omega

theorem strict_eq_some {bad : Bool} {i j : Ins} : strict bad i = some j ↔ bad = false ∧ i = j := by
  cases bad <;> simp [strict]

end

/-! ### Decoding an encoded word -/

theorem decode_encR {o f : Nat} {d a b : Fin 16} {i : Ins} (ho : o < 64) (hf : f < 2 ^ 14)
    (h : ∀ w, FieldsR w o d a b f → decode w = some i) : decode (encR o d a b f) = some i :=
  h _ (encR_fields ho hf)

theorem decode_encI {o v : Nat} {d a : Fin 16} {i : Ins} (ho : o < 64) (hv : v < 2 ^ 18)
    (h : ∀ w, FieldsI w o d a v → decode w = some i) : decode (encI o d a v) = some i :=
  h _ (encI_fields ho hv)

theorem decode_encX {o : Nat} {bit off : BitVec 13} {i : Ins} (ho : o < 64)
    (h : ∀ w, FieldsX w o bit off → decode w = some i) : decode (encX o bit off) = some i :=
  h _ (encX_fields ho)

/-- The words of a target in 22 bits, of a load of the upper bits, and of a call. -/
theorem decode_ofNat {n : Nat} {i : Ins} (hn : n < 2 ^ 32) (h : ∀ w : Word, w.toNat = n → decode w = some i) :
    decode (BitVec.ofNat 32 n) = some i :=
  h _ (by rw [BitVec.toNat_ofNat, Nat.mod_eq_of_lt hn])

theorem decode_encode (i : Ins) : decode (encode i) = some i := by
  cases i with
  | add | sub | and_ | or_ | xor | shl | shr | sar | ror | cmp | tst | clz | popc | macq | jr | jlr | mulu | muls | macs
  | mulq =>
    refine decode_encR (by decide) (by decide) fun w h => ?_
    obtain ⟨hop, hd, ha, hb, hf⟩ := h
    have hfn : fn w = 0 := BitVec.eq_of_toNat_eq hf
    simp [decode, decodeR, strict, hop, hd, ha, hb, hfn]
  | sel d a b c =>
    refine decode_encR (by decide) (by omega) fun w h => ?_
    obtain ⟨hop, hd, ha, hb, hf⟩ := h
    have hfn : w.toNat % 2 ^ 14 = c.val := (extract_low_toNat w 14).symm.trans hf
    have hzero : w.extractLsb' 4 10 = 0 := extract_eq_zero (by omega)
    have hcond : Pletra.cond (w.extractLsb' 0 4).toFin = some c :=
      cond_eq_some.2 ((extract_low_toNat w 4).trans (by omega))
    simp only [decode, decodeR, hop, hd, ha, hb, hzero, hcond, if_true, Option.map_some]
  | boprSet | boprClear | boprToggle | boprTest | boprRead =>
    refine decode_encR (by decide) (by decide) fun w h => ?_
    obtain ⟨hop, hd, ha, hb, hf⟩ := h
    simp [decode, decodeR, decodeI, decodeX, decodeBopr, strict, hop, hd, ha, hb, hf]
  | addi d a v | andi d a v | ori d a v | xori d a v | ldw d a v | ldh d a v | ldhs d a v | ldb d a v | ldbs d a v
  | stw d a v | sth d a v | stb d a v =>
    refine decode_encI (by decide) v.isLt fun w h => ?_
    obtain ⟨hop, hd, ha, himm⟩ := h
    simp [decode, decodeR, decodeI, hop, hd, ha, imm18_eq himm]
  | cmpi a v =>
    refine decode_encI (by decide) v.isLt fun w h => ?_
    obtain ⟨hop, hd, ha, himm⟩ := h
    simp [decode, decodeR, decodeI, strict, hop, hd, ha, imm18_eq himm]
  | shli d a n | shri d a n | sari d a n | rori d a n =>
    refine decode_encI (by decide) (by omega) fun w h => ?_
    obtain ⟨hop, hd, ha, himm⟩ := h
    simp [decode, decodeR, decodeI, hop, hd, ha, amount_eq_some.2 himm]
  | bfx d a p l | bfxs d a p l | bfi d a p l =>
    refine decode_encI (by decide) (by omega) fun w h => ?_
    obtain ⟨hop, hd, ha, himm⟩ := h
    have hpos : pos w = p := Fin.ext (by rw [pos_val]; omega)
    have hlm1 : lm1 w = l := Fin.ext (by rw [lm1_val]; omega)
    have hzero : w.extractLsb' 0 8 = 0 := extract_eq_zero (by rw [pow_zero, Nat.div_one]; omega)
    simp [decode, decodeR, decodeI, strict, hop, hd, ha, hpos, hlm1, hzero]
  | perm d a x =>
    refine decode_encI (by decide) (by omega) fun w h => ?_
    obtain ⟨hop, hd, ha, himm⟩ := h
    have hzero : w.extractLsb' 8 10 = 0 := extract_eq_zero (by omega)
    simp [decode, decodeR, decodeI, strict, hop, hd, ha, hzero, eq_of_imm18 himm]
  | mfc d c | mtc d c =>
    refine decode_encI (by decide) (by omega) fun w h => ?_
    obtain ⟨hop, hd, ha, himm⟩ := h
    have hzero : w.extractLsb' 6 12 = 0 := extract_eq_zero (by omega)
    simp [decode, decodeR, decodeI, decodeX, strict, hop, hd, ha, hzero, eq_of_imm18 himm]
  | svc v =>
    refine decode_encI (by decide) (by omega) fun w h => ?_
    obtain ⟨hop, hd, ha, himm⟩ := h
    have hra : w.toNat / 2 ^ 18 % 2 ^ 4 = 0 := (ra_val w).symm.trans (congrArg Fin.val ha)
    have hzero : w.extractLsb' 16 6 = 0 := extract_eq_zero (by omega)
    simp [decode, decodeR, decodeI, decodeX, hop, hd, hzero, eq_of_imm18 himm]
  | eret | wfe | fence =>
    refine decode_encI (by decide) (by decide) fun w h => ?_
    obtain ⟨hop, hd, ha, himm⟩ := h
    have hra : w.toNat / 2 ^ 18 % 2 ^ 4 = 0 := (ra_val w).symm.trans (congrArg Fin.val ha)
    have hzero : w.extractLsb' 16 6 = 0 := extract_eq_zero (by omega)
    have himm16 : w.extractLsb' 0 16 = 0 := eq_of_imm18 (himm.trans BitVec.toNat_zero.symm) (by decide)
    simp [decode, decodeR, decodeI, decodeX, strict, hop, hd, hzero, himm16]
  | bset | bclr | btgl | btst | bbs | bbc =>
    refine decode_encX (by decide) fun w h => ?_
    obtain ⟨hop, hbit, hoff⟩ := h
    simp [decode, decodeR, decodeI, decodeX, strict, hop, hbit, hoff]
  | lui d v =>
    refine decode_ofNat (by omega) fun w h => ?_
    have hop : op w = 0x15 := by rw [op_eq]; omega
    have hd : rd w = d := Fin.ext (by rw [rd_val]; omega)
    have himm : imm22 w = v := extract_low_eq (by omega)
    simp [decode, decodeR, decodeI, hop, hd, himm]
  | bcond c v =>
    refine decode_ofNat (by omega) fun w h => ?_
    have hop : op w = 0x34 := by rw [op_eq]; omega
    have hcond : Pletra.cond (rd w) = some c := cond_eq_some.2 (by rw [rd_val]; omega)
    have himm : imm22 w = v := extract_low_eq (by omega)
    simp [decode, decodeR, decodeI, decodeX, hop, hcond, himm]
  | call v =>
    refine decode_ofNat (by omega) fun w h => ?_
    have hop : op w = 0x35 := by rw [op_eq]; omega
    have hoff : off26 w = v := extract_low_eq (by omega)
    simp [decode, decodeR, decodeI, decodeX, hop, hoff]

/-- Settles O46. -/
theorem pletraDecodesWhatItEncodes : Obligations.PletraDecodesWhatItEncodes := decode_encode

/-! ### Encoding a decoded word (R422) -/

theorem imm18_toNat (w : Word) : (imm18 w).toNat = w.toNat % 2 ^ 18 := extract_low_toNat w 18

/-- A field that reads 0, in arithmetic. -/
theorem div_mod_of_extract_zero {w : Word} {lo len : Nat} (h : w.extractLsb' lo len = 0) :
    w.toNat / 2 ^ lo % 2 ^ len = 0 := by
  rw [← extract_toNat, h]
  rfl

theorem mod_of_extract_low_zero {w : Word} {len : Nat} (h : w.extractLsb' 0 len = 0) : w.toNat % 2 ^ len = 0 := by
  rw [← extract_low_toNat, h]
  rfl

theorem fn_toNat_of_zero {w : Word} (h : fn w = 0) : (fn w).toNat = 0 := by rw [h]; rfl

theorem encode_of_decodeR {w : Word} {i : Ins} (h : decodeR w = some i) : encode i = w := by
  unfold decodeR at h
  dsimp only at h
  split at h
  case h_1 hop | h_2 hop | h_3 hop | h_4 hop | h_5 hop | h_6 hop | h_7 hop | h_8 hop | h_9 hop =>
    simp only [strict_eq_some, Bool.not_eq_false', beq_iff_eq] at h
    obtain ⟨hfn, rfl⟩ := h
    exact FieldsR.encR_eq ⟨hop, rfl, rfl, rfl, fn_toNat_of_zero hfn⟩
  case h_10 hop | h_11 hop | h_15 hop | h_18 hop | h_19 hop | h_20 hop | h_21 hop =>
    simp only [strict_eq_some, Bool.or_eq_false_iff, Bool.not_eq_false', beq_iff_eq, bne_eq_false_iff_eq] at h
    obtain ⟨⟨hfn, hrd⟩, rfl⟩ := h
    exact FieldsR.encR_eq ⟨hop, hrd, rfl, rfl, fn_toNat_of_zero hfn⟩
  case h_12 hop | h_13 hop | h_17 hop =>
    simp only [strict_eq_some, Bool.or_eq_false_iff, Bool.not_eq_false', beq_iff_eq, bne_eq_false_iff_eq] at h
    obtain ⟨⟨hfn, hrb⟩, rfl⟩ := h
    exact FieldsR.encR_eq ⟨hop, rfl, rfl, hrb, fn_toNat_of_zero hfn⟩
  case h_14 hop =>
    rw [Option.ite_none_right_eq_some, Option.map_eq_some_iff] at h
    obtain ⟨hzero, c, hc, rfl⟩ := h
    have hhigh := div_mod_of_extract_zero hzero
    have hlow : w.toNat % 2 ^ 4 = c.val := (extract_low_toNat w 4).symm.trans (cond_eq_some.1 hc)
    refine FieldsR.encR_eq ⟨hop, rfl, rfl, rfl, ?_⟩
    rw [fn, extract_low_toNat]
    omega
  case h_16 hop =>
    simp only [strict_eq_some, Bool.or_eq_false_iff, Bool.not_eq_false', beq_iff_eq, bne_eq_false_iff_eq] at h
    obtain ⟨⟨⟨hfn, hrd⟩, hrb⟩, rfl⟩ := h
    exact FieldsR.encR_eq ⟨hop, hrd, rfl, hrb, fn_toNat_of_zero hfn⟩
  case h_22 => cases h

theorem encode_of_decodeBopr {w : Word} {i : Ins} (hop : op w = 0x33) (h : decodeBopr w = some i) : encode i = w := by
  unfold decodeBopr at h
  rw [Option.ite_none_left_eq_some, not_not] at h
  obtain ⟨hrb, h⟩ := h
  split at h
  case h_1 hfn | h_2 hfn | h_3 hfn | h_4 hfn =>
    simp only [strict_eq_some, bne_eq_false_iff_eq] at h
    obtain ⟨hrd, rfl⟩ := h
    exact FieldsR.encR_eq ⟨hop, hrd, rfl, hrb, hfn⟩
  case h_5 hfn =>
    cases h
    exact FieldsR.encR_eq ⟨hop, rfl, rfl, hrb, hfn⟩
  case h_6 => cases h

theorem encode_of_decodeI {w : Word} {i : Ins} (h : decodeI w = some i) : encode i = w := by
  unfold decodeI at h
  split at h
  case h_1 hop | h_2 hop | h_3 hop | h_4 hop | h_15 hop | h_16 hop | h_17 hop | h_18 hop | h_19 hop | h_20 hop | h_21 hop
  | h_22 hop =>
    cases h
    exact FieldsI.encI_eq ⟨hop, rfl, rfl, (imm18_toNat w).symm⟩
  case h_5 hop | h_6 hop | h_7 hop | h_8 hop =>
    rw [Option.map_eq_some_iff] at h
    obtain ⟨n, hn, rfl⟩ := h
    exact FieldsI.encI_eq ⟨hop, rfl, rfl, amount_eq_some.1 hn⟩
  case h_9 hop =>
    simp only [strict_eq_some, bne_eq_false_iff_eq] at h
    obtain ⟨hrd, rfl⟩ := h
    exact FieldsI.encI_eq ⟨hop, hrd, rfl, (imm18_toNat w).symm⟩
  case h_10 hop =>
    cases h
    refine BitVec.eq_of_toNat_eq ?_
    rw [op_eq] at hop
    rw [encode, BitVec.toNat_ofNat, rd_val, imm22, extract_low_toNat]
    omega
  case h_11 hop | h_12 hop | h_13 hop =>
    simp only [strict_eq_some, bne_eq_false_iff_eq] at h
    obtain ⟨hzero, rfl⟩ := h
    have := mod_of_extract_low_zero hzero
    refine FieldsI.encI_eq ⟨hop, rfl, rfl, ?_⟩
    rw [pos_val, lm1_val]
    omega
  case h_14 hop =>
    simp only [strict_eq_some, bne_eq_false_iff_eq] at h
    obtain ⟨hzero, rfl⟩ := h
    have := div_mod_of_extract_zero hzero
    refine FieldsI.encI_eq ⟨hop, rfl, rfl, ?_⟩
    rw [extract_low_toNat]
    omega
  case h_23 => cases h

theorem encode_of_decodeX {w : Word} {i : Ins} (h : decodeX w = some i) : encode i = w := by
  unfold decodeX at h
  split at h
  case h_1 hop | h_2 hop | h_3 hop | h_4 hop =>
    simp only [strict_eq_some, bne_eq_false_iff_eq] at h
    obtain ⟨hoff, rfl⟩ := h
    exact FieldsX.encX_eq ⟨hop, rfl, hoff⟩
  case h_5 hop | h_6 hop =>
    cases h
    exact FieldsX.encX_eq ⟨hop, rfl, rfl⟩
  case h_7 hop => exact encode_of_decodeBopr hop h
  case h_8 hop =>
    rw [Option.map_eq_some_iff] at h
    obtain ⟨c, hc, rfl⟩ := h
    have hrd := cond_eq_some.1 hc
    refine BitVec.eq_of_toNat_eq ?_
    rw [op_eq] at hop
    rw [rd_val] at hrd
    rw [encode, BitVec.toNat_ofNat, imm22, extract_low_toNat]
    omega
  case h_9 hop =>
    cases h
    refine BitVec.eq_of_toNat_eq ?_
    rw [op_eq] at hop
    rw [encode, BitVec.toNat_ofNat, off26, extract_low_toNat]
    omega
  case h_10 hop =>
    simp only [strict_eq_some, Bool.or_eq_false_iff, bne_eq_false_iff_eq] at h
    obtain ⟨⟨hra, hzero⟩, rfl⟩ := h
    have := div_mod_of_extract_zero hzero
    refine FieldsI.encI_eq ⟨hop, rfl, hra, ?_⟩
    rw [extract_low_toNat]
    omega
  case h_11 hop =>
    simp only [strict_eq_some, Bool.or_eq_false_iff, bne_eq_false_iff_eq] at h
    obtain ⟨⟨hrd, hzero⟩, rfl⟩ := h
    have := div_mod_of_extract_zero hzero
    refine FieldsI.encI_eq ⟨hop, hrd, rfl, ?_⟩
    rw [extract_low_toNat]
    omega
  case h_12 hop =>
    rw [Option.ite_none_left_eq_some, not_not] at h
    obtain ⟨hzero, h⟩ := h
    have hmid := div_mod_of_extract_zero hzero
    have hra : ra w = 0 := Fin.ext (by rw [ra_val, Fin.val_zero]; omega)
    dsimp only at h
    split at h
    case h_1 hrd =>
      cases h
      refine FieldsI.encI_eq ⟨hop, Fin.ext hrd, hra, ?_⟩
      rw [extract_low_toNat]
      omega
    case h_2 hrd | h_3 hrd | h_4 hrd =>
      simp only [strict_eq_some, bne_eq_false_iff_eq] at h
      obtain ⟨himm, rfl⟩ := h
      have hlow := mod_of_extract_low_zero himm
      exact FieldsI.encI_eq ⟨hop, Fin.ext hrd, hra, by omega⟩
    case h_5 => cases h
  case h_13 => cases h

theorem encode_of_decode {w : Word} {i : Ins} (h : decode w = some i) : encode i = w := by
  unfold decode at h
  split at h
  case h_1 hR =>
    cases h
    exact encode_of_decodeR hR
  case h_2 =>
    split at h
    case h_1 hI =>
      cases h
      exact encode_of_decodeI hI
    case h_2 => exact encode_of_decodeX h

/-- Settles O47: the second part is the exception that the row takes. -/
theorem pletraWordsHaveOneMeaning : Obligations.PletraWordsHaveOneMeaning := by
  unfold Obligations.PletraWordsHaveOneMeaning
  refine ⟨fun w i h => encode_of_decode h, fun k w s u hnone hfetched hexl => ?_⟩
  have hrow : doIllegalInstruction k w s = s.instr k fun t => .trap .illegal w t := by
    rw [doIllegalInstruction, hnone]
    rfl
  calc exec (.illegalInstruction k w) s = s.watch (doIllegalInstruction k w s) := rfl
    _ = .next (s.settled (u.exception k .illegal (u.core k).pc w)) := by
      rw [hrow, State.watch_instr_trap hfetched rfl (by decide)]
    _ = _ := by rw [State.exception_of_exl_clear hexl]

end Sys2Proof.Machine
end

section
/-!
The instructions of the cores that compute, branch and multiply (R419-R425, Table 14.7): each goes on at its next PC with
what it has computed.
-/

namespace Sys2Proof.Machine

section
variable {s u : State} {k : Core} (h : s.Fetched k u)
include h

theorem State.watch_compute {d : Fin 16} {f : State → Word} :
    s.watch (s.compute k d f) = .next (s.settled ((u.setW k d (f u)).retire k (u.nextPc k) 1)) :=
  State.watch_instr_go h rfl (by simp [h.coreSt])

theorem State.watch_alu {d a b : Fin 16} {f : Word → Word → Word} :
    s.watch (s.alu k d a b f) = .next (s.settled ((u.setW k d (f (u.wreg k a) (u.wreg k b))).retire k (u.nextPc k) 1)) :=
  State.watch_compute h

theorem State.watch_alu1 {d a : Fin 16} {f : Word → Word} :
    s.watch (s.alu1 k d a f) = .next (s.settled ((u.setW k d (f (u.wreg k a))).retire k (u.nextPc k) 1)) :=
  State.watch_compute h

/-- An instruction that changes the flags alone. -/
theorem State.watch_flags {f : State → Word → Word} :
    s.watch (s.instr k fun t => .go (t.setPsr k (f t)) (t.nextPc k) 1) =
      .next (s.settled ((u.setPsr k (f u)).retire k (u.nextPc k) 1)) :=
  State.watch_instr_go h rfl (by simp [h.coreSt])

end

/-- Settles O48. -/
theorem arithmeticAndLogicExecute : Obligations.ArithmeticAndLogicExecute := by
  unfold Obligations.ArithmeticAndLogicExecute
  refine ⟨?_, ?_, ?_, ?_, ?_, ?_, ?_, ?_, ?_, ?_, ?_, ?_, ?_, ?_, ?_, ?_, ?_, ?_, ?_, ?_, ?_, ?_, ?_, ?_, ?_, ?_, ?_, ?_⟩
  · exact fun k rd ra rb s u h => State.watch_alu (f := fun a b => a + b) h
  · exact fun k rd ra rb s u h => State.watch_alu (f := fun a b => a - b) h
  · exact fun k rd ra rb s u h => State.watch_alu (f := fun a b => a &&& b) h
  · exact fun k rd ra rb s u h => State.watch_alu (f := fun a b => a ||| b) h
  · exact fun k rd ra rb s u h => State.watch_alu (f := fun a b => a ^^^ b) h
  · exact fun k rd ra rb s u h => State.watch_alu (f := fun a b => a <<< shiftOf b) h
  · exact fun k rd ra rb s u h => State.watch_alu (f := fun a b => a >>> shiftOf b) h
  · exact fun k rd ra rb s u h => State.watch_alu (f := fun a b => a.sshiftRight (shiftOf b)) h
  · exact fun k rd ra rb s u h => State.watch_alu (f := fun a b => a.rotateRight (shiftOf b)) h
  · exact fun k rd ra imm s u h => State.watch_alu1 (f := fun a => a + imm.signExtend 32) h
  · exact fun k rd ra imm s u h => State.watch_alu1 (f := fun a => a &&& imm.setWidth 32) h
  · exact fun k rd ra imm s u h => State.watch_alu1 (f := fun a => a ||| imm.setWidth 32) h
  · exact fun k rd ra imm s u h => State.watch_alu1 (f := fun a => a ^^^ imm.setWidth 32) h
  · exact fun k rd ra n s u h => State.watch_alu1 (f := fun a => a <<< n.val) h
  · exact fun k rd ra n s u h => State.watch_alu1 (f := fun a => a >>> n.val) h
  · exact fun k rd ra n s u h => State.watch_alu1 (f := fun a => a.sshiftRight n.val) h
  · exact fun k rd ra n s u h => State.watch_alu1 (f := fun a => a.rotateRight n.val) h
  · exact fun k rd imm s u h => State.watch_compute (f := fun _ => imm.setWidth 32 <<< 10) h
  · exact fun k rd ra s u h => State.watch_alu1 (f := fun a => BitVec.ofNat 32 (leadingZeros a)) h
  · exact fun k rd ra s u h => State.watch_alu1 (f := fun a => BitVec.ofNat 32 (popCount a)) h
  · exact fun k rd ra pos lm1 s u h => State.watch_alu1 (f := fun a => fieldOf a pos lm1) h
  · exact fun k rd ra pos lm1 s u h => State.watch_alu1 (f := fun a => sfieldOf a pos lm1) h
  · exact fun k rd ra pos lm1 s u h => State.watch_alu (f := fun d a => fieldInto d a pos lm1) h
  · exact fun k rd ra sel s u h => State.watch_alu1 (f := fun a => permuted a sel) h
  · exact fun k rd ra rb cond s u h => State.watch_compute h
      (f := fun t => if condHolds (t.core k).psr cond then t.wreg k ra else t.wreg k rb)
  · exact fun k ra rb s u h => State.watch_flags (f := fun t p => cmpFlags p (t.wreg k ra) (t.wreg k rb)) h
  · exact fun k ra rb s u h => State.watch_flags (f := fun t p => tstFlags p (t.wreg k ra) (t.wreg k rb)) h
  · exact fun k ra imm s u h => State.watch_flags (f := fun t p => cmpFlags p (t.wreg k ra) (imm.signExtend 32)) h

section
variable {s u : State} {k : Core} (h : s.Fetched k u)
include h

/-- A branch takes two cycles where it is taken (R423). -/
theorem State.watch_branchIf {b : State → Bool} {off : Int} :
    s.watch (s.instr k fun t => t.branchIf k (b t) off) =
      .next (s.settled (if b u then u.retire k (u.target_ k off) 2 else u.retire k (u.nextPc k) 1)) := by
  cases hb : b u with
  | true => exact State.watch_instr_go h (by simp [State.branchIf, hb]) h.coreSt
  | false => exact State.watch_instr_go h (by simp [State.branchIf, hb]) h.coreSt

/-- An instruction that leaves the state and jumps. -/
theorem State.watch_jump {pc : State → Word} {n : Nat} :
    s.watch (s.instr k fun t => .go t (pc t) n) = .next (s.settled (u.retire k (pc u) n)) :=
  State.watch_instr_go h rfl h.coreSt

/-- An instruction that writes the return address and jumps. -/
theorem State.watch_link {r : Fin 16} {pc : State → Word} :
    s.watch (s.instr k fun t => .go (t.setW k r (t.nextPc k)) (pc t) 2) =
      .next (s.settled ((u.setW k r (u.nextPc k)).retire k (pc u) 2)) :=
  State.watch_instr_go h rfl (by simp [h.coreSt])

theorem State.watch_mulRow {kind : MulKind} {ra rb : Fin 16} :
    s.watch (s.mulRow k kind ra rb) = .next (s.settled
      ((u.modCore k fun c => { c with mul := c.mul ++ [⟨kind, u.wreg k ra, u.wreg k rb, 4⟩] }).retire k (u.nextPc k) 1)) :=
  State.watch_instr_go h rfl (by simp [h.coreSt])

section
variable (happ : u.inApp k = false)
include happ

/-- Outside applet mode every bit of the core's own space may be named (R432). -/
theorem State.watch_bitRow {num : State → Nat} {f : State → Nat → Ran} :
    s.watch (s.bitRow k num f) = s.watch (s.instr k fun t => f t (num t)) := by
  rw [State.bitRow, State.watch_instr_of_fetched h, State.watch_instr_of_fetched h]
  simp [happ]

theorem State.watch_bitSet {num : State → Nat} {f : Bool → Bool} :
    s.watch (s.bitSet k num f) =
      .next (s.settled ((u.setSpaceBit k (num u) (f (u.spaceBit k (num u)))).retire k (u.nextPc k) 1)) :=
  (State.watch_bitRow h happ).trans (State.watch_instr_go h rfl (by simp [h.coreSt]))

theorem State.watch_bitTest {num : State → Nat} :
    s.watch (s.bitTest k num) =
      .next (s.settled ((u.setPsr k fun p => setBitW p psrZ (!u.spaceBit k (num u))).retire k (u.nextPc k) 1)) :=
  (State.watch_bitRow h happ).trans
    (State.watch_flags (f := fun t p => setBitW p psrZ (!t.spaceBit k (num t))) h)

end
end

/-- Settles O56. -/
theorem branchesAndMultipliesExecute : Obligations.BranchesAndMultipliesExecute := by
  unfold Obligations.BranchesAndMultipliesExecute
  refine ⟨?_, ?_, ?_, ?_, ?_, ?_, ?_, ?_, ?_, ?_⟩
  · exact fun k cond off s u h => State.watch_branchIf (b := fun t => condHolds (t.core k).psr cond) h
  · exact fun k off s u h => State.watch_link (pc := fun t => t.target_ k off.toInt) h
  · exact fun k ra s u h => State.watch_jump (pc := fun t => t.wreg k ra) h
  · exact fun k rd ra s u h => State.watch_link (pc := fun t => t.wreg k ra) h
  · exact fun k ra rb s u h => State.watch_mulRow h
  · exact fun k ra rb s u h => State.watch_mulRow h
  · exact fun k ra rb s u h => State.watch_mulRow h
  · exact fun k ra rb s u h => State.watch_mulRow h
  · exact fun k ra rb s u h => State.watch_mulRow h
  · intro k m rest s hruns hmul
    show s.watch (doMultiplierResult k s) = _
    rw [doMultiplierResult, State.watch_onlyIf _ (by simp [hruns]), hmul]

/-- Settles O54. -/
theorem bitInstructionsExecute : Obligations.BitInstructionsExecute := by
  unfold Obligations.BitInstructionsExecute
  refine ⟨?_, ?_, ?_, ?_, ?_, ?_, ?_, ?_, ?_, ?_, ?_⟩
  · exact fun k bit s u h happ => State.watch_bitSet (num := fun _ => bit.toNat) (f := fun _ => true) h happ
  · exact fun k bit s u h happ => State.watch_bitSet (num := fun _ => bit.toNat) (f := fun _ => false) h happ
  · exact fun k bit s u h happ => State.watch_bitSet (num := fun _ => bit.toNat) (f := fun b => !b) h happ
  · exact fun k bit s u h happ => State.watch_bitTest (num := fun _ => bit.toNat) h happ
  · exact fun k bit off s u h happ => (State.watch_bitRow (num := fun _ => bit.toNat)
      (f := fun t n => t.branchIf k (t.spaceBit k n) off.toInt) h happ).trans
        (State.watch_branchIf (b := fun t => t.spaceBit k bit.toNat) h)
  · intro k bit off s u h happ
    refine (State.watch_bitRow (num := fun _ => bit.toNat)
      (f := fun t n => t.branchIf k (!t.spaceBit k n) off.toInt) h happ).trans
        ((State.watch_branchIf (b := fun t => !t.spaceBit k bit.toNat) h).trans ?_)
    cases u.spaceBit k bit.toNat <;> rfl
  · exact fun k ra s u h happ => State.watch_bitSet (num := fun t => t.regBit k ra) (f := fun _ => true) h happ
  · exact fun k ra s u h happ => State.watch_bitSet (num := fun t => t.regBit k ra) (f := fun _ => false) h happ
  · exact fun k ra s u h happ => State.watch_bitSet (num := fun t => t.regBit k ra) (f := fun b => !b) h happ
  · exact fun k ra s u h happ => State.watch_bitTest (num := fun t => t.regBit k ra) h happ
  · exact fun k rd ra s u h happ => (State.watch_bitRow (num := fun t => t.regBit k ra)
      (f := fun t n => .go (t.setW k rd (BitVec.ofNat 32 (t.spaceBit k n).toNat)) (t.nextPc k) 1) h happ).trans
        (State.watch_instr_go h rfl (by simp [h.coreSt]))

end Sys2Proof.Machine
end

section
/-!
Registers, flags and bit space of a core (R419, R421): what a write leaves as it is, and what passing cycles change.
-/

namespace Sys2Proof.Machine

/-! ### The register file (R419) -/

section
variable (s : State) (k : Core) (x : Word)

@[simp] theorem State.wreg_zero : s.wreg k 0 = 0 := rfl

@[simp] theorem State.setW_zero : s.setW k 0 x = s := rfl

theorem State.setW_of_ne {r : Fin 16} (h : r ≠ 0) :
    s.setW k r x = s.modCore k fun c => { c with w := c.w.set r.val x r.isLt } := if_neg h

theorem State.wreg_setW_same {r : Fin 16} (h : r ≠ 0) : (s.setW k r x).wreg k r = x := by
  simp [State.setW_of_ne s k x h, State.wreg, h]

theorem State.wreg_setW_ne {r q : Fin 16} (h : q ≠ r) : (s.setW k r x).wreg k q = s.wreg k q := by
  by_cases hr : r = 0
  · rw [hr, State.setW_zero]
  · have hval : r.val ≠ q.val := fun e => h (Fin.ext e.symm)
    simp [State.setW_of_ne s k x hr, State.wreg, Vector.getElem_set_ne _ _ hval]

theorem State.core_setW_ne {j : Core} (r : Fin 16) (h : j ≠ k) : (s.setW k r x).core j = s.core j := by
  by_cases hr : r = 0
  · rw [hr, State.setW_zero]
  · rw [State.setW_of_ne s k x hr, State.modCore_core_ne _ _ h]

/-- A register write changes the core's registers alone. -/
theorem State.setW_frame (r : Fin 16) : (s.setW k r x).regs = s.regs ∧ (s.setW k r x).sram = s.sram
    ∧ ((s.setW k r x).core k).psr = (s.core k).psr ∧ ((s.setW k r x).core k).bits = (s.core k).bits := by
  by_cases hr : r = 0
  · rw [hr, State.setW_zero]
    exact ⟨rfl, rfl, rfl, rfl⟩
  · rw [State.setW_of_ne s k x hr]
    exact ⟨rfl, rfl, by rw [State.modCore_core_same], by rw [State.modCore_core_same]⟩

end

/-! ### Cycles that pass (R417, R425) -/

theorem CoreState.foldl_land_pc (ms : List MulOp) (c : CoreState) : (ms.foldl CoreState.land c).pc = c.pc := by
  induction ms generalizing c with
  | nil => rfl
  | cons m ms ih => exact ih (c.land m)

theorem CoreState.pass_pc (c : CoreState) (n : Nat) : (c.pass n).pc = c.pc := CoreState.foldl_land_pc _ c

theorem State.spend_core_same (s : State) (k : Core) (n : Nat) : (s.spend k n).core k = (s.core k).pass n := by
  unfold State.spend
  dsimp only
  split <;> simp

theorem State.spend_core_ne (s : State) {k j : Core} (n : Nat) (h : j ≠ k) : (s.spend k n).core j = s.core j := by
  unfold State.spend
  dsimp only
  split <;> simp [State.modCore_core_ne _ _ h]

theorem State.spend_sram (s : State) (k : Core) (n : Nat) : (s.spend k n).sram = s.sram := by
  unfold State.spend
  dsimp only
  split <;> rfl

theorem State.retire_core_same (s : State) (k : Core) (pc : Word) (n : Nat) :
    (s.retire k pc n).core k = ({ s.core k with pc := pc } : CoreState).pass n := by
  rw [State.retire, State.spend_core_same, State.modCore_core_same]

theorem State.retire_core_ne (s : State) {k j : Core} (pc : Word) (n : Nat) (h : j ≠ k) :
    (s.retire k pc n).core j = s.core j := by
  rw [State.retire, State.spend_core_ne _ _ h, State.modCore_core_ne _ _ h]

/-- Settles O49. -/
theorem zeroRegisterAndRegisterFile : Obligations.ZeroRegisterAndRegisterFile := by
  unfold Obligations.ZeroRegisterAndRegisterFile
  intro s k x
  refine ⟨rfl, rfl, fun r hr => State.wreg_setW_same s k x hr, fun r q hq => State.wreg_setW_ne s k x hq,
    fun r q j hj => State.core_setW_ne s k x r hj, fun r => State.setW_frame s k x r,
    fun j pc n hj => State.retire_core_ne s pc n hj, fun pc n => ?_⟩
  have hcore := State.retire_core_same s k pc n
  have hpc := CoreState.pass_pc { s.core k with pc := pc } n
  obtain ⟨_, hw, hpsr⟩ := CoreState.pass_same (c := { s.core k with pc := pc }) (n := n)
  rw [← hcore] at hpc hw hpsr
  refine ⟨hpc, hw, ?_, hpsr, ?_⟩
  · rw [hcore]
    rfl
  · rw [State.retire, State.spend_sram]
    rfl

end Sys2Proof.Machine
end

section
/-!
Loads and stores, control registers and system instructions of the cores (R415-R417, R419, R425-R427, R429, R434).
-/

namespace Sys2Proof.Machine

section
variable {s u t : State} {k : Core} (h : s.Fetched k u)
include h

theorem State.watch_loadRow_done {rd ra : Fin 16} {imm : BitVec 18} {n c : Nat} {glitch : Bool} {g : Word → Word} {v : Word}
    (ha : u.loadAt k (u.effAddr k ra imm).toNat n glitch = .done v c t) (ht : t.coreSt k = 1) :
    s.watch (s.loadRow k rd ra imm n glitch g) = .next (s.settled ((t.setW k rd (g v)).retire k (u.nextPc k) c)) :=
  State.watch_instr_go h (by simp only [ha]) (by simp [ht])

theorem State.watch_loadRow_trap {rd ra : Fin 16} {imm : BitVec 18} {n : Nat} {glitch : Bool} {g : Word → Word} {e : Exc}
    (ha : u.loadAt k (u.effAddr k ra imm).toNat n glitch = .trap e t) (he : e ≠ .svc) :
    s.watch (s.loadRow k rd ra imm n glitch g) =
      .next (s.settled (t.exception k e (u.core k).pc (u.effAddr k ra imm))) :=
  State.watch_instr_trap h (by simp only [ha]) he

theorem State.watch_storeRow_done {rd ra : Fin 16} {imm : BitVec 18} {n c : Nat} {v : Word}
    (ha : u.storeAt k (u.effAddr k ra imm).toNat n (u.wreg k rd) = .done v c t) (ht : t.coreSt k = 1) :
    s.watch (s.storeRow k rd ra imm n) = .next (s.settled (t.retire k (u.nextPc k) c)) :=
  State.watch_instr_go h (by simp only [ha]) ht

end

/-- What stops a load is never SVC (Table 14.8). -/
theorem State.addressCheck_ne_svc {s : State} {k : Core} {a n : Nat} : s.addressCheck k a n ≠ some .svc := by
  unfold State.addressCheck
  split
  · simp
  · split
    · simp
    · split <;> simp

theorem State.loadAt_trap_ne_svc {s t : State} {k : Core} {a n : Nat} {glitch : Bool} {e : Exc}
    (h : s.loadAt k a n glitch = .trap e t) : e ≠ .svc := by
  rintro rfl
  unfold State.loadAt at h
  split at h
  case h_1 e he =>
    cases h
    exact State.addressCheck_ne_svc he
  case h_2 =>
    split at h
    case h_1 | h_2 | h_5 => cases h
    case h_3 =>
      split at h
      · cases h
      · dsimp only at h
        split at h <;> cases h
    case h_4 =>
      split at h
      · cases h
      · dsimp only at h
        split at h <;> cases h

theorem State.addressCheck_misaligned {s : State} {k : Core} {off n : Nat} (happ : s.inApp k = false)
    (hlt : off < 0x200000) (hn : n = 2 ∨ n = 4) (hoff : off % n ≠ 0) :
    s.addressCheck k (0x20000000 + off) n = some .misalign := by
  have hmod : (0x20000000 + off) % n ≠ 0 := by
    obtain rfl | rfl := hn <;> omega
  simp [State.addressCheck, happ, hmod, regionOf_sram hlt]

/-- Settles O52. -/
theorem loadsAndStoresExecute : Obligations.LoadsAndStoresExecute := by
  unfold Obligations.LoadsAndStoresExecute
  refine ⟨?_, ?_, ?_, ?_, ?_, ?_, ?_, ?_, ?_, ?_⟩
  · exact fun k rd ra imm glitch v n s u t h ha ht => State.watch_loadRow_done (g := id) h ha ht
  · exact fun k rd ra imm glitch v n s u t h ha ht => State.watch_loadRow_done (g := id) h ha ht
  · exact fun k rd ra imm glitch v n s u t h ha ht =>
      State.watch_loadRow_done (g := fun v => (v.setWidth 16).signExtend 32) h ha ht
  · exact fun k rd ra imm glitch v n s u t h ha ht => State.watch_loadRow_done (g := id) h ha ht
  · exact fun k rd ra imm glitch v n s u t h ha ht =>
      State.watch_loadRow_done (g := fun v => (v.setWidth 8).signExtend 32) h ha ht
  · exact fun k rd ra imm v n s u t h ha ht => State.watch_storeRow_done h ha ht
  · exact fun k rd ra imm v n s u t h ha ht => State.watch_storeRow_done h ha ht
  · exact fun k rd ra imm v n s u t h ha ht => State.watch_storeRow_done h ha ht
  · exact fun k rd ra imm glitch e s u t h ha =>
      State.watch_loadRow_trap (g := id) h ha (State.loadAt_trap_ne_svc ha)
  · intro s k off n glitch v happ hlt hn hoff
    have hcheck := State.addressCheck_misaligned happ hlt hn hoff
    exact ⟨by simp only [State.loadAt, hcheck], by simp only [State.storeAt, hcheck]⟩

/-! ### Control registers and system instructions -/

section
variable {s u : State} {k : Core} (h : s.Fetched k u)
include h

theorem exec_mfc {rd : Fin 16} {creg : BitVec 6} (hlt : creg.toNat < 11) (happ : u.inApp k = false) :
    exec (.mfc k rd creg) s = .next (s.settled ((u.setW k rd (u.creg k creg.toNat)).retire k (u.nextPc k) 1)) := by
  show s.watch (doMfc k rd creg s) = _
  rw [doMfc]
  exact State.watch_instr_go h (by simp [happ, hlt]) (by simp [h.coreSt])

theorem exec_mtc {ra : Fin 16} {creg : BitVec 6} (hlt : creg.toNat < 11) (h6 : creg.toNat ≠ 6) (h7 : creg.toNat ≠ 7)
    (happ : u.inApp k = false) : exec (.mtc k ra creg) s = .next (s.settled
      (((u.spend k (u.mulWait k creg.toNat)).modCore k fun c => c.setCreg creg.toNat (u.wreg k ra)).retire k
        (u.nextPc k) 1)) := by
  show s.watch (doMtc k ra creg s) = _
  rw [doMtc]
  exact State.watch_instr_go h (by simp [happ, hlt, h6, h7]) (by simp [h.coreSt])

/-- The service call exception (R426): EPC takes the next address. -/
theorem exec_svc {imm : BitVec 16} (hpolicy : u.underPolicy k = false) (hexl : u.psrBit k psrExl = false) :
    exec (.svc k imm) s = .next (s.settled
      ((u.modCore k fun c => c.enter .svc (u.nextPc k) (imm.setWidth 32)).spend k 3)) := by
  show s.watch (doSvc k imm s) = _
  rw [doSvc, State.watch_instr_of_fetched h]
  simp [hpolicy, State.finish, State.exception_of_exl_clear hexl, State.appletFault]

theorem exec_svc_underPolicy {imm : BitVec 16} (hpolicy : u.underPolicy k = true) (hst : (u.served imm).coreSt k = 1) :
    exec (.svc k imm) s = .next (s.settled ((u.served imm).retire k ((u.served imm).core k).pc 0)) := by
  show s.watch (doSvc k imm s) = _
  rw [doSvc]
  exact State.watch_instr_go h (by simp [hpolicy]) hst

theorem exec_eret (hexl : u.psrBit k psrExl = true) (happ : u.inApp k = false) :
    exec (.eret k) s = .next (s.settled (((u.spend k 2).modCore k CoreState.eret).retire k (u.core k).epc 0)) := by
  show s.watch (doEret k s) = _
  rw [doEret]
  exact State.watch_instr_go h (by simp [hexl, happ]) (by simp [h.coreSt])

theorem exec_eret_illegal (hexl : u.psrBit k psrExl = false) :
    exec (.eret k) s = .next (s.settled (((u.appletFault k .illegal).modCore k fun c =>
      c.enter .illegal (u.core k).pc (Pletra.encode .eret)).spend k 3)) := by
  show s.watch (doEret k s) = _
  rw [doEret, State.watch_instr_trap (t := u) h (by simp [hexl]; exact ⟨rfl, rfl⟩) (by decide),
    State.exception_of_exl_clear hexl]

/-- A core that waits stands: its PC has moved and its cycle has passed before (R429). -/
theorem exec_wfe (happ : u.inApp k = false) (hnone : (u.retire k (u.nextPc k) 1).evtDue k = false) :
    exec (.wfe k) s = .next (s.settled ((u.retire k (u.nextPc k) 1).setFld (F.CORE_Ck_STATUS_STATE k) 2)) := by
  have hwaits : ((u.retire k (u.nextPc k) 1).setFld (F.CORE_Ck_STATUS_STATE k) 2).coreSt k = 2 :=
    State.fld_setFld_same (f := F.CORE_Ck_STATUS_STATE k) _ 2 (by simp [F.CORE_Ck_STATUS_STATE])
  show s.watch (doWfe k s) = _
  rw [doWfe, State.watch_instr_of_fetched h]
  rw [State.retire] at hnone hwaits ⊢
  simp [happ, hnone, State.finish, hwaits]

end

/-- A number that Table 14.10 does not list is refused (log 61). -/
theorem State.service_of_unlisted {s : State} {n : Nat} (h : 7 < n) : s.service n = s.svcReturn svcBadArg := by
  unfold State.service
  dsimp only
  split
  case h_8 => rfl
  all_goals omega

/-- Settles O58. -/
theorem controlAndSystemInstructionsExecute : Obligations.ControlAndSystemInstructionsExecute := by
  unfold Obligations.ControlAndSystemInstructionsExecute
  refine ⟨?_, ?_, ?_, ?_, ?_, ?_, ?_, ?_, ?_, ?_, ?_⟩
  · exact fun k rd creg s u h hlt happ => exec_mfc h hlt happ
  · exact fun k ra creg s u h hlt h6 h7 happ => exec_mtc h hlt h6 h7 happ
  · exact fun k imm s u h hpolicy hexl => exec_svc h hpolicy hexl
  · exact fun imm s u h hpolicy hst => exec_svc_underPolicy h hpolicy hst
  · intro s code v
    refine ⟨?_, ?_, rfl, rfl, fun n hn => ?_⟩
    · exact (State.wreg_setW_ne _ 3 v (by decide)).trans (State.wreg_setW_same s 3 code (by decide))
    · exact State.wreg_setW_same _ 3 v (by decide)
    · exact State.service_of_unlisted hn
  · exact fun k s u h hexl happ => exec_eret h hexl happ
  · exact fun k s u h hexl => exec_eret_illegal h hexl
  · exact fun k s u h happ hnone => exec_wfe h happ hnone
  · exact fun k s u h => State.watch_jump (pc := fun t => t.nextPc k) h
  · exact fun k s => rfl
  · exact fun k s => rfl

end Sys2Proof.Machine
end

section
/-!
The values that the instructions compute (R420, R423, Tables 14.6 and 14.7): the flags after a compare, and the bit-field
instructions bit by bit.
-/

namespace Sys2Proof.Machine

/-! ### Flags (R420) -/

theorem setBitW_getLsbD (w : Word) (i j : Nat) (b : Bool) (h : j < 32) :
    (setBitW w i b).getLsbD j = if j = i then b else w.getLsbD j := by
  rw [setBitW, putBits_getLsbD]
  by_cases hj : j = i
  · subst hj
    cases b <;> simp [h]
  · have : ¬ (i ≤ j ∧ j < i + 1) := by omega
    rw [if_neg this, if_neg hj, decide_eq_true h, Bool.true_and]

theorem setBitW_getLsbD_ne (w : Word) {i j : Nat} (b : Bool) (h : j ≠ i) : (setBitW w i b).getLsbD j = w.getLsbD j := by
  by_cases hj : j < 32
  · rw [setBitW_getLsbD _ _ _ _ hj, if_neg h]
  · rw [BitVec.getLsbD_of_ge _ _ (by omega), BitVec.getLsbD_of_ge _ _ (by omega)]

section
variable (p : Word) (z n c v : Bool)

@[simp] theorem withFlags_z : (withFlags p z n c v).getLsbD psrZ = z := by
  rw [withFlags, setBitW_getLsbD_ne _ _ (by decide), setBitW_getLsbD_ne _ _ (by decide),
    setBitW_getLsbD_ne _ _ (by decide), setBitW_getLsbD _ _ _ _ (by decide), if_pos rfl]

@[simp] theorem withFlags_n : (withFlags p z n c v).getLsbD psrN = n := by
  rw [withFlags, setBitW_getLsbD_ne _ _ (by decide), setBitW_getLsbD_ne _ _ (by decide),
    setBitW_getLsbD _ _ _ _ (by decide), if_pos rfl]

@[simp] theorem withFlags_c : (withFlags p z n c v).getLsbD psrC = c := by
  rw [withFlags, setBitW_getLsbD_ne _ _ (by decide), setBitW_getLsbD _ _ _ _ (by decide), if_pos rfl]

@[simp] theorem withFlags_v : (withFlags p z n c v).getLsbD psrV = v := by
  rw [withFlags, setBitW_getLsbD _ _ _ _ (by decide), if_pos rfl]

theorem withFlags_above {i : Nat} (h : 4 ≤ i) : (withFlags p z n c v).getLsbD i = p.getLsbD i := by
  have hz : i ≠ psrZ := by unfold psrZ; omega
  have hn : i ≠ psrN := by unfold psrN; omega
  have hc : i ≠ psrC := by unfold psrC; omega
  have hv : i ≠ psrV := by unfold psrV; omega
  rw [withFlags, setBitW_getLsbD_ne _ _ hv, setBitW_getLsbD_ne _ _ hc, setBitW_getLsbD_ne _ _ hn,
    setBitW_getLsbD_ne _ _ hz]

end

/-- What the signed flags of a difference say (N, V): its true sign. -/
theorem lt_iff_msb_ne_overflow (a b : Word) :
    a.toInt < b.toInt ↔ (a - b).msb ≠ decide ((a - b).toInt ≠ a.toInt - b.toInt) := by
  have ha := BitVec.toInt_lt (x := a)
  have ha' := BitVec.le_toInt a
  have hb := BitVec.toInt_lt (x := b)
  have hb' := BitVec.le_toInt b
  have hsub : (a - b).toInt = (a.toInt - b.toInt).bmod (2 ^ 32) := BitVec.toInt_sub
  rw [BitVec.msb_eq_toInt, ne_eq, decide_eq_decide, hsub, Int.bmod]
  generalize a.toInt = x at *
  generalize b.toInt = y at *
  split <;> omega

section
variable (p a b : Word)

theorem cmpFlags_z : (cmpFlags p a b).getLsbD psrZ = true ↔ a = b := by
  rw [cmpFlags, withFlags_z, beq_iff_eq]
  constructor
  · intro h
    simpa using congrArg (· + b) h
  · rintro rfl
    simp

theorem cmpFlags_lt :
    ((cmpFlags p a b).getLsbD psrN != (cmpFlags p a b).getLsbD psrV) = true ↔ a.toInt < b.toInt := by
  rw [cmpFlags, withFlags_n, withFlags_v, bne_iff_ne, lt_iff_msb_ne_overflow]

theorem cmpFlags_c : (cmpFlags p a b).getLsbD psrC = true ↔ b.toNat ≤ a.toNat := by
  rw [cmpFlags, withFlags_c, decide_eq_true_iff]

end

/-- Settles O51: each condition is read off Z, C, and N against V. -/
theorem conditionsAfterACompare : Obligations.ConditionsAfterACompare := by
  unfold Obligations.ConditionsAfterACompare
  intro p a b
  have hz := cmpFlags_z p a b
  have hlt := cmpFlags_lt p a b
  have hc := cmpFlags_c p a b
  have hv : (cmpFlags p a b).getLsbD psrV = true ↔ (a - b).toInt ≠ a.toInt - b.toInt := by
    rw [cmpFlags, withFlags_v, decide_eq_true_iff]
  have hnot : ((cmpFlags p a b).getLsbD psrN == (cmpFlags p a b).getLsbD psrV) = true ↔ b.toInt ≤ a.toInt := by
    rw [← not_lt, ← hlt, bne_iff_ne, beq_iff_eq, not_not]
  have heq : a.toInt = b.toInt ↔ a = b := BitVec.toInt_inj
  have heq' : a.toNat = b.toNat ↔ a = b := BitVec.toNat_inj
  refine ⟨hz, ?_, hlt, hnot, ?_, hc, ?_, ?_, ?_, ?_, hv, ?_, rfl, fun i hi => ?_⟩
  · show (!(cmpFlags p a b).getLsbD psrZ) = true ↔ _
    rw [Bool.not_eq_true', ← Bool.not_eq_true, hz]
  · show (!(cmpFlags p a b).getLsbD psrC) = true ↔ _
    rw [Bool.not_eq_true', ← Bool.not_eq_true, hc, not_le]
  · show (!(cmpFlags p a b).getLsbD psrZ && _) = true ↔ _
    rw [Bool.and_eq_true, Bool.not_eq_true', ← Bool.not_eq_true, hz, hnot, ← heq]
    omega
  · show ((cmpFlags p a b).getLsbD psrZ || _) = true ↔ _
    rw [Bool.or_eq_true, hz, hlt, ← heq]
    omega
  · show ((cmpFlags p a b).getLsbD psrC && !(cmpFlags p a b).getLsbD psrZ) = true ↔ _
    rw [Bool.and_eq_true, Bool.not_eq_true', ← Bool.not_eq_true, hz, hc, ← heq']
    omega
  · show (!(cmpFlags p a b).getLsbD psrC || (cmpFlags p a b).getLsbD psrZ) = true ↔ _
    rw [Bool.or_eq_true, Bool.not_eq_true', ← Bool.not_eq_true, hz, hc, ← heq']
    omega
  · show (tstFlags p a b).getLsbD psrZ = true ↔ _
    rw [tstFlags, withFlags_z, beq_iff_eq]
  · exact ⟨withFlags_above p _ _ _ _ hi, withFlags_above p _ _ _ _ hi⟩

/-! ### Bit fields (Table 14.7) -/

theorem lowMask_getLsbD (n i : Nat) : (lowMask n).getLsbD i = (decide (i < 32) && decide (i < n)) := by
  rw [lowMask, BitVec.getLsbD_ofNat, Nat.testBit_two_pow_sub_one]

theorem fieldOf_getLsbD (w : Word) (pos lm1 : Fin 32) {i : Nat} (h : i < 32) :
    (fieldOf w pos lm1).getLsbD i = (decide (i ≤ lm1.val) && w.getLsbD (pos.val + i)) := by
  rw [fieldOf, BitVec.getLsbD_and, BitVec.getLsbD_ushiftRight, lowMask_getLsbD]
  simp [h, Bool.and_comm]

theorem sfieldOf_getLsbD (w : Word) (pos lm1 : Fin 32) {i : Nat} (h : i < 32) :
    (sfieldOf w pos lm1).getLsbD i = if i ≤ lm1.val then w.getLsbD (pos.val + i) else w.getLsbD (pos.val + lm1.val) := by
  have htop : (fieldOf w pos lm1).getLsbD lm1.val = w.getLsbD (pos.val + lm1.val) := by
    rw [fieldOf_getLsbD w pos lm1 lm1.isLt, decide_eq_true le_rfl, Bool.true_and]
  unfold sfieldOf
  dsimp only
  rw [htop]
  cases hsign : w.getLsbD (pos.val + lm1.val) with
  | false =>
    rw [if_neg Bool.false_ne_true, fieldOf_getLsbD w pos lm1 h]
    by_cases hi : i ≤ lm1.val <;> simp [hi]
  | true =>
    rw [if_pos rfl, BitVec.getLsbD_or, BitVec.getLsbD_not, lowMask_getLsbD, fieldOf_getLsbD w pos lm1 h]
    by_cases hi : i ≤ lm1.val <;> simp [hi, h]

theorem fieldInto_getLsbD (d a : Word) (pos lm1 : Fin 32) {i : Nat} (h : i < 32) :
    (fieldInto d a pos lm1).getLsbD i =
      if pos.val ≤ i ∧ i ≤ pos.val + lm1.val then a.getLsbD (i - pos.val) else d.getLsbD i := by
  have hmask : (lowMask (lm1.val + 1) <<< pos.val).getLsbD i = decide (pos.val ≤ i ∧ i ≤ pos.val + lm1.val) := by
    rw [BitVec.getLsbD_shiftLeft, lowMask_getLsbD, Bool.eq_iff_iff]
    simp only [Bool.and_eq_true, decide_eq_true_eq, Bool.not_eq_true', decide_eq_false_iff_not]
    omega
  unfold fieldInto
  dsimp only
  rw [BitVec.getLsbD_or, BitVec.getLsbD_and, BitVec.getLsbD_not, BitVec.getLsbD_and, hmask, BitVec.getLsbD_shiftLeft]
  by_cases hin : pos.val ≤ i ∧ i ≤ pos.val + lm1.val
  · simp [hin, h, not_lt.2 hin.1]
  · simp [hin, h]

theorem extract_append_bytes (b3 b2 b1 b0 : Byte) :
    (b3 ++ b2 ++ b1 ++ b0 : Word).extractLsb' 0 8 = b0 ∧ (b3 ++ b2 ++ b1 ++ b0 : Word).extractLsb' 8 8 = b1
      ∧ (b3 ++ b2 ++ b1 ++ b0 : Word).extractLsb' 16 8 = b2 ∧ (b3 ++ b2 ++ b1 ++ b0 : Word).extractLsb' 24 8 = b3 := by
  refine ⟨?_, ?_, ?_, ?_⟩
  all_goals
    ext i hi
    rw [BitVec.getElem_extractLsb', ← BitVec.getLsbD_eq_getElem]
    simp (disch := omega) only [BitVec.getLsbD_append, if_pos, if_neg]
    congr 1
    omega

theorem permuted_extract (w : Word) (sel : Byte) {j : Nat} (h : j < 4) :
    (permuted w sel).extractLsb' (8 * j) 8 = w.extractLsb' (8 * (sel.toNat / 4 ^ j % 4)) 8 := by
  unfold permuted
  dsimp only
  obtain ⟨h0, h1, h2, h3⟩ := extract_append_bytes (w.extractLsb' (8 * (sel.toNat / 4 ^ 3 % 4)) 8)
    (w.extractLsb' (8 * (sel.toNat / 4 ^ 2 % 4)) 8) (w.extractLsb' (8 * (sel.toNat / 4 ^ 1 % 4)) 8)
    (w.extractLsb' (8 * (sel.toNat / 4 ^ 0 % 4)) 8)
  obtain rfl | rfl | rfl | rfl : j = 0 ∨ j = 1 ∨ j = 2 ∨ j = 3 := by omega
  · exact h0
  · exact h1
  · exact h2
  · exact h3

/-! ### Counting bits (Table 14.7) -/

theorem leadingZeros_spec {w : Word} (h : w ≠ 0) : leadingZeros w < 32 ∧ w.getLsbD (31 - leadingZeros w) = true
    ∧ ∀ j : Nat, j < leadingZeros w → w.getLsbD (31 - j) = false := by
  have hsome : ∃ n, (List.range 32).find? (fun i => w.getLsbD (31 - i)) = some n := by
    rw [← Option.isSome_iff_exists, List.find?_isSome]
    by_contra hnone
    refine h (BitVec.eq_of_getLsbD_eq fun i hi => ?_)
    by_contra hbit
    refine hnone ⟨31 - i, List.mem_range.2 (by omega), ?_⟩
    rw [Nat.sub_sub_self (by omega)]
    simpa using hbit
  obtain ⟨n, hn⟩ := hsome
  have hlz : leadingZeros w = n := by rw [leadingZeros, hn, Option.getD_some]
  obtain ⟨hbit, hlt, hfirst⟩ := List.find?_range_eq_some.1 hn
  rw [hlz]
  exact ⟨List.mem_range.1 hlt, hbit, fun j hj => by simpa using hfirst j hj⟩

theorem popCount_eq_card (w : Word) : popCount w = ((Finset.range 32).filter fun i => w.getLsbD i).card := by
  rw [popCount, ← List.toFinset_card_of_nodup (List.nodup_range.filter _)]
  congr 1
  ext i
  simp

theorem popCount_or_shiftLeft {w : Word} {i : Nat} (hi : i < 32) (hclear : w.getLsbD i = false) :
    popCount (w ||| 1#32 <<< i) = popCount w + 1 := by
  have hinsert : ((Finset.range 32).filter fun j => (w ||| 1#32 <<< i).getLsbD j)
      = insert i ((Finset.range 32).filter fun j => w.getLsbD j) := by
    ext j
    simp only [Finset.mem_filter, Finset.mem_insert, Finset.mem_range, BitVec.getLsbD_or, BitVec.getLsbD_shiftLeft,
      BitVec.getLsbD_one, Bool.or_eq_true, Bool.and_eq_true, decide_eq_true_eq, Bool.not_eq_true',
      decide_eq_false_iff_not]
    constructor
    · rintro ⟨hj, hbit | ⟨⟨_, hle⟩, _, hzero⟩⟩
      · exact .inr ⟨hj, hbit⟩
      · exact .inl (by omega)
    · rintro (rfl | ⟨hj, hbit⟩)
      · exact ⟨hi, .inr ⟨⟨hi, by omega⟩, by omega, by omega⟩⟩
      · exact ⟨hj, .inl hbit⟩
  rw [popCount_eq_card, popCount_eq_card, hinsert, Finset.card_insert_of_notMem (by simp [hclear])]

/-- Settles O50. -/
theorem bitFieldInstructionsByBits : Obligations.BitFieldInstructionsByBits := by
  unfold Obligations.BitFieldInstructionsByBits
  refine ⟨fun w pos lm1 i h => fieldOf_getLsbD w pos lm1 h, fun w pos lm1 i h => sfieldOf_getLsbD w pos lm1 h,
    fun d a pos lm1 i h => fieldInto_getLsbD d a pos lm1 h, fun w sel j h => permuted_extract w sel h,
    fun w h => leadingZeros_spec h, by decide, by decide, fun w i hi hclear => popCount_or_shiftLeft hi hclear⟩

end Sys2Proof.Machine
end

section
/-!
A core's bit space (R421), exceptions and returns (R426-R428), and the multiplier (R425).
-/

namespace Sys2Proof.Machine

/-! ### Bits and the words that show them (R421) -/

/-- Byte j of a word read from memory. -/
theorem bytesAt_extract (f : Nat → Byte) (a : Nat) {j : Nat} (h : j < 4) :
    (bytesAt f a 4).extractLsb' (8 * j) 8 = f (a + j) := by
  have hw : (bytesAt f a 4).toNat =
      256 * (256 * (256 * (f (a + 3)).toNat + (f (a + 2)).toNat) + (f (a + 1)).toNat) + (f a).toNat := by
    simp only [bytesAt, leNat, List.range_succ, List.range_zero, List.map_cons, List.map_nil,
      List.nil_append, List.cons_append, List.foldr_cons, List.foldr_nil, BitVec.toNat_ofNat, Nat.add_zero]
    omega
  have h0 := (f a).isLt
  have h1 := (f (a + 1)).isLt
  have h2 := (f (a + 2)).isLt
  refine extract_eq ?_
  obtain rfl | rfl | rfl | rfl : j = 0 ∨ j = 1 ∨ j = 2 ∨ j = 3 := by omega
  · rw [Nat.mul_zero, pow_zero, Nat.div_one, Nat.add_zero]
    omega
  · omega
  · omega
  · omega

theorem bytesAt_getLsbD (f : Nat → Byte) (a : Nat) {i : Nat} (h : i < 32) :
    (bytesAt f a 4).getLsbD i = (f (a + i / 8)).getLsbD (i % 8) := by
  have hi : i = 8 * (i / 8) + i % 8 := by omega
  rw [← bytesAt_extract f a (j := i / 8) (by omega), BitVec.getLsbD_extractLsb', decide_eq_true (by omega),
    Bool.true_and, ← hi]

theorem regionOf_bits {off : Nat} (h : off < 0x400) : regionOf (0x10000000 + off) = .bits off := by
  unfold regionOf
  rw [if_neg (by omega), if_pos (by omega), Nat.add_sub_cancel_left]

theorem State.loadAt_bits {s : State} {k : Core} {off : Nat} (happ : s.inApp k = false) (hlt : off < 0x400)
    (halign : off % 4 = 0) :
    s.loadAt k (0x10000000 + off) 4 false = .done (bytesAt ((s.core k).bits.get bitsDefault) off 4) 1 s := by
  unfold State.loadAt
  rw [State.addressCheck_aligned happ (by omega), regionOf_bits hlt]
  rfl

/-- A byte with one bit set to a value. -/
theorem setBit_getLsbD (old : Byte) (b : Bool) {i j : Nat} (hj : j < 8) :
    (if b then old ||| ((1 <<< i : Nat) : Byte)
      else old &&& ~~~((1 <<< i : Nat) : Byte)).getLsbD j = if j = i then b else old.getLsbD j := by
  have hone : ((1 <<< i : Nat) : Byte).getLsbD j = decide (j = i) := by
    rw [BitVec.natCast_eq_ofNat, BitVec.getLsbD_ofNat, decide_eq_true hj, Bool.true_and, Nat.one_shiftLeft,
      Nat.testBit_two_pow]
    simp only [eq_comm]
  cases b with
  | true =>
    rw [if_pos rfl, BitVec.getLsbD_or, hone]
    by_cases h : j = i <;> simp [h]
  | false =>
    rw [if_neg Bool.false_ne_true, BitVec.getLsbD_and, BitVec.getLsbD_not, hone]
    by_cases h : j = i <;> simp [h, hj]

theorem State.spaceBit_setSpaceBit (s : State) (k : Core) (n m : Nat) (b : Bool) :
    (s.setSpaceBit k n b).spaceBit k m = if m = n then b else s.spaceBit k m := by
  unfold State.setSpaceBit State.spaceBit
  rw [State.modCore_core_same]
  dsimp only
  rw [Mem.get_set]
  by_cases hbyte : m / 8 = n / 8
  · rw [if_pos hbyte, setBit_getLsbD _ _ (Nat.mod_lt _ (by decide)), hbyte]
    have hsame : m % 8 = n % 8 ↔ m = n := by omega
    simp only [hsame]
  · have hne : m ≠ n := fun e => hbyte (by rw [e])
    rw [if_neg hbyte, if_neg hne]

/-- Settles O55. -/
theorem bitSpaceAndItsWords : Obligations.BitSpaceAndItsWords := by
  unfold Obligations.BitSpaceAndItsWords
  refine ⟨fun s k n hn happ => ?_, fun s k n m b _ => State.spaceBit_setSpaceBit s k n m b, fun s k j n m b hj => ?_⟩
  · refine ⟨_, State.loadAt_bits happ (by omega) (by omega), ?_⟩
    have hbyte : 4 * (n / 32) + n % 32 / 8 = n / 8 := by omega
    have hbit : n % 32 % 8 = n % 8 := by omega
    rw [bytesAt_getLsbD _ _ (Nat.mod_lt _ (by decide)), hbyte, hbit, State.spaceBit]
  · rw [State.spaceBit, State.spaceBit, State.setSpaceBit, State.modCore_core_ne _ _ hj]

/-! ### Exceptions (R426-R428) -/

theorem psrEntered_getLsbD (p : Word) {i : Nat} (h : i < 4 ∨ 6 < i) : (psrEntered p).getLsbD i = p.getLsbD i := by
  have hexl : i ≠ psrExl := by unfold psrExl; omega
  have hie : i ≠ psrIe := by unfold psrIe; omega
  have happ : i ≠ psrApp := by unfold psrApp; omega
  rw [psrEntered, setBitW_getLsbD_ne _ _ happ, setBitW_getLsbD_ne _ _ hie, setBitW_getLsbD_ne _ _ hexl]

theorem psrEntered_exl (p : Word) : (psrEntered p).getLsbD psrExl = true := by
  rw [psrEntered, setBitW_getLsbD_ne _ _ (by decide), setBitW_getLsbD_ne _ _ (by decide),
    setBitW_getLsbD _ _ _ _ (by decide), if_pos rfl]

theorem psrEntered_ie (p : Word) : (psrEntered p).getLsbD psrIe = false := by
  rw [psrEntered, setBitW_getLsbD_ne _ _ (by decide), setBitW_getLsbD _ _ _ _ (by decide), if_pos rfl]

theorem psrEntered_app (p : Word) : (psrEntered p).getLsbD psrApp = false := by
  rw [psrEntered, setBitW_getLsbD _ _ _ _ (by decide), if_pos rfl]

/-- A PSR whose reserved bits are 0 comes back whole (Table 14.4). -/
theorem and_psrMask_of_lt {p : Word} (h : p.toNat < 128) : p &&& 0x7F#32 = p := by
  refine BitVec.eq_of_toNat_eq ?_
  have hmask : (0x7F#32).toNat = 2 ^ 7 - 1 := rfl
  rw [BitVec.toNat_and, hmask, Nat.and_two_pow_sub_one_eq_mod, Nat.mod_eq_of_lt h]

/-- Settles O59. -/
theorem exceptionEntryAndReturn : Obligations.ExceptionEntryAndReturn := by
  unfold Obligations.ExceptionEntryAndReturn
  refine ⟨fun s k e epc v htaken => ?_, fun c e epc v => ?_, fun c e epc v hpsr => ?_, fun s k e epc v hexl hcode => ?_⟩
  · rw [State.exception, if_neg]
    rintro ⟨hexl, hcode⟩
    obtain hclear | hlate := htaken
    · exact Bool.false_ne_true (hclear.symm.trans hexl)
    · omega
  · exact ⟨rfl, rfl, rfl, rfl, rfl, rfl, psrEntered_exl _, psrEntered_ie _, psrEntered_app _,
      fun i hi => psrEntered_getLsbD _ hi⟩
  · have hback : (c.enter e epc v).spsr &&& 0x7F#32 = c.psr := and_psrMask_of_lt hpsr
    rw [CoreState.eret, hback]
    rfl
  · rw [State.exception, if_pos ⟨hexl, hcode⟩]

/-! ### The multiplier (R425) -/

section
variable (c : CoreState) (kind : MulKind) (a b : Word)

/-- The core with one instruction in flight. -/
def CoreState.issued (c : CoreState) (kind : MulKind) (a b : Word) : CoreState := { c with mul := [⟨kind, a, b, 4⟩] }

theorem CoreState.pass_issued_of_lt {n : Nat} (h : n < 4) :
    (c.issued kind a b).pass n =
      { c with mul := [⟨kind, a, b, 4 - n⟩], cycle := c.cycle + BitVec.ofNat 32 n } := by
  have hleft : ¬ 4 ≤ n := by omega
  simp [CoreState.pass, CoreState.issued, hleft, h]

theorem CoreState.pass_issued_four : (c.issued kind a b).pass 4 =
    { c.land ⟨kind, a, b, 4⟩ with mul := [], cycle := c.cycle + 4 } := by
  simp [CoreState.pass, CoreState.issued, CoreState.land]

/-- What has landed, as one number. -/
theorem CoreState.land_append (m : MulOp) : (c.land m).mhi ++ (c.land m).mlo =
    BitVec.ofInt 64 ((if m.kind == .macs || m.kind == .macq then pair c.mhi c.mlo else 0) + m.product) := by
  have hjoin : ∀ v : BitVec 64, v.extractLsb' 32 32 ++ v.extractLsb' 0 32 = v := by
    intro v
    refine BitVec.eq_of_getLsbD_eq fun i hi => ?_
    rw [BitVec.getLsbD_append, BitVec.getLsbD_extractLsb', BitVec.getLsbD_extractLsb']
    split
    case isTrue hlow => rw [decide_eq_true hlow, Bool.true_and, Nat.zero_add]
    case isFalse hlow =>
      rw [decide_eq_true (by omega), Bool.true_and, Nat.add_sub_cancel' (not_lt.1 hlow)]
  exact hjoin _

end

theorem toInt_ofInt_of_bounds {x : Int} (hlo : -2 ^ 63 ≤ x) (hhi : x < 2 ^ 63) : (BitVec.ofInt 64 x).toInt = x := by
  rw [BitVec.toInt_ofInt]
  exact Int.bmod_eq_of_le (by omega) (by omega)

theorem mul_toInt_bounds (a b : Word) : -2 ^ 62 ≤ a.toInt * b.toInt ∧ a.toInt * b.toInt ≤ 2 ^ 62 := by
  have ha := BitVec.toInt_lt (x := a)
  have ha' := BitVec.le_toInt a
  have hb := BitVec.toInt_lt (x := b)
  have hb' := BitVec.le_toInt b
  have habs : |a.toInt * b.toInt| ≤ 2 ^ 31 * 2 ^ 31 := by
    rw [abs_mul]
    exact mul_le_mul (abs_le.2 ⟨by omega, by omega⟩) (abs_le.2 ⟨by omega, by omega⟩) (abs_nonneg _) (by norm_num)
  rw [abs_le] at habs
  omega

/-- Settles O57. -/
theorem multiplierResultsLandAfterFourCycles : Obligations.MultiplierResultsLandAfterFourCycles := by
  unfold Obligations.MultiplierResultsLandAfterFourCycles
  intro c kind a b _
  have hfour := CoreState.pass_issued_four c kind a b
  refine ⟨fun n hn => ?_, congrArg CoreState.mul hfour, fun h l hh hl => ?_⟩
  · have hpass := CoreState.pass_issued_of_lt c kind a b hn
    rw [CoreState.issued] at hpass
    rw [hpass]
    exact ⟨rfl, rfl, rfl⟩
  · have hland : h ++ l = BitVec.ofInt 64
        ((if kind == .macs || kind == .macq then pair c.mhi c.mlo else 0) + (MulOp.mk kind a b 4).product) := by
      rw [hh, hl]
      exact CoreState.land_append c ⟨kind, a, b, 4⟩
    obtain ⟨hlo, hhi⟩ := mul_toInt_bounds a b
    obtain ⟨hround, hround'⟩ := roundDiv_bounds (a.toInt * b.toInt) (by norm_num : 0 < 2 ^ 18)
    have hsum : ∀ x : Int, BitVec.ofInt 64 (pair c.mhi c.mlo + x) = (c.mhi ++ c.mlo) + BitVec.ofInt 64 x := by
      intro x
      rw [BitVec.ofInt_add, pair, BitVec.ofInt_toInt]
    refine ⟨?_, ?_, ?_, ?_, ?_⟩ <;> rintro rfl
    · have hlt : a.toNat * b.toNat < 2 ^ 64 := by
        calc a.toNat * b.toNat < 2 ^ 32 * 2 ^ 32 := Nat.mul_lt_mul'' a.isLt b.isLt
          _ = 2 ^ 64 := by norm_num
      rw [hland]
      show (BitVec.ofInt 64 (0 + ((a.toNat * b.toNat : Nat) : Int))).toNat = _
      rw [zero_add, BitVec.ofInt_natCast, BitVec.toNat_ofNat, Nat.mod_eq_of_lt hlt]
    · rw [hland]
      show (BitVec.ofInt 64 (0 + a.toInt * b.toInt)).toInt = _
      rw [zero_add, toInt_ofInt_of_bounds (by omega) (by omega)]
    · exact hland.trans (hsum _)
    · rw [hland]
      show (BitVec.ofInt 64 (0 + roundDiv (a.toInt * b.toInt) (2 ^ 18))).toInt = _
      rw [zero_add, toInt_ofInt_of_bounds (by omega) (by omega)]
    · exact hland.trans (hsum _)

end Sys2Proof.Machine
end

section
/-!
Watchdogs, timers, the debug port and applets (R348, R428, R431-R433).
-/

namespace Sys2Proof.Machine

/-! ### An invocation (R433) -/

section
variable (s : State) (n : Fin 8) (event : Fin 4) (arg : Word) (entry : BitVec 16) (budget : BitVec 24)

/-- C3 with w1 and w2 as the invocation gives them. -/
def State.invoked (s : State) (event : Fin 4) (arg : Word) : State :=
  ((s.fresh 32).2.setW 3 1 (BitVec.ofNat 32 event.val)).setW 3 2 arg

/-- The flags and IE that the firmware gives the applet, in applet mode. -/
def State.appletPsr (s : State) : Word := ((s.fresh 32).1 &&& 0x2F#32) ||| 0x40#32

/-- C3 enters an applet by its ERET. -/
def CoreState.enterApplet (c : CoreState) (psr pc : Word) : CoreState :=
  { c with spsr := psr, epc := pc, psr := psr, pc := pc }

theorem State.invoke_core : (s.invoke n event arg entry budget).core 3 =
    ((s.invoked event arg).core 3).enterApplet s.appletPsr (BitVec.ofNat 32 (0x20000000 + s.sbxBase + entry.toNat)) :=
  State.modCore_core_same (s.invoked event arg) 3 fun c =>
    c.enterApplet s.appletPsr (BitVec.ofNat 32 (0x20000000 + s.sbxBase + entry.toNat))

theorem State.invoke_wreg (r : Fin 16) :
    (s.invoke n event arg entry budget).wreg 3 r = (s.invoked event arg).wreg 3 r := by
  rw [State.wreg, State.invoke_core]
  rfl

theorem State.invoke_left : (s.invoke n event arg entry budget).fld F.CORE_SBX_LEFT_LEFT = budget.toNat := by
  have hother : F.CORE_SBX_LEFT_LEFT.addr ≠ (F.CORE_Ck_STATUS_STATE 3).addr := by decide
  refine (State.fld_setFld_reg _ _ hother).trans ((State.fld_setFld_same _ _ (by decide)).trans ?_)
  exact Nat.mod_eq_of_lt budget.isLt

theorem State.invoke_inApp : (s.invoke n event arg entry budget).inApp 3 = true := by
  have hbit : s.appletPsr.getLsbD psrApp = true := by
    rw [State.appletPsr, BitVec.getLsbD_or, show (0x40#32).getLsbD psrApp = true by decide, Bool.or_true]
  rw [State.inApp, State.psrBit, State.invoke_core]
  exact hbit

end

/-- Settles O60. -/
theorem coreEventCommandsComplete : Obligations.CoreEventCommandsComplete := by
  unfold Obligations.CoreEventCommandsComplete
  refine ⟨?_, ?_, ?_, ?_, ?_, ?_, ?_⟩
  · intro k s hacts
    show s.watch (doWatchdogExpiry k s) = _
    rw [doWatchdogExpiry, State.watch_onlyIf _ hacts]
  · intro k s hdom hcount hst
    show s.watch (doCoreTimerExpiry k s) = _
    rw [doCoreTimerExpiry, State.watch_onlyIf _ (by simp [hdom, hcount, hst]), State.timerEnd]
  · intro k s hdebug hst
    show s.watch (doCoreHalt k s) = _
    rw [doCoreHalt, State.watch_onlyIf _ (by rw [hdebug, hst]; rfl)]
  · intro k s hst
    show s.watch (doCoreResume k s) = _
    rw [doCoreResume, State.watch_onlyIf _ (by simp [hst])]
  · intro n event arg entry budget s hacts happlet hexl hfirst hlive
    have hnone : (s.appletsDue.any fun m => decide (m < n)) = false := by
      rw [List.any_eq_false]
      intro m hm
      simpa using hfirst m hm
    show s.watch (doAppletInvocation n event arg entry budget s) = _
    refine State.watch_of_next ?_
    simp [doAppletInvocation, hacts, happlet, hexl, hnone, hlive]
  · intro n event arg entry budget s happlet
    have hbusy : s.applet.isNone = false := by
      rw [← Option.not_isSome, happlet]
      rfl
    show s.watch (doAppletInvocation n event arg entry budget s) = _
    refine State.watch_of_next ?_
    simp [doAppletInvocation, hbusy, State.appletDue]
  · intro s n event arg entry budget
    refine ⟨rfl, State.invoke_inApp s n event arg entry budget, ?_, ?_, ?_, State.invoke_left s n event arg entry budget⟩
    · rw [State.invoke_wreg, State.invoked, State.wreg_setW_ne _ _ _ (by decide), State.wreg_setW_same _ _ _ (by decide)]
    · rw [State.invoke_wreg, State.invoked, State.wreg_setW_same _ _ _ (by decide)]
    · rw [State.invoke_core, CoreState.enterApplet]

end Sys2Proof.Machine
end

section
/-!
The crown tree (R340-R343): crown and views bit by bit, what a write of an enable or a cause register leaves, and that no
cause reads an enable register.
-/

namespace Sys2Proof.Machine

/-! ### What the causes read -/

/-- From s to t only enable registers and parity marks of registers have changed. -/
structure State.SameButEnables (s t : State) : Prop where
  reg : ∀ a, a < 0x90200 ∨ 0x902C0 ≤ a → t.reg a = s.reg a
  power : t.power = s.power
  kpr : t.kpr = s.kpr
  recorder : t.recorder = s.recorder
  sramBad : t.sramBad = s.sramBad

section
variable {s t : State} (h : s.SameButEnables t)
include h

theorem State.SameButEnables.fld {f : Fld} (hf : f.addr < 0x90200 ∨ 0x902C0 ≤ f.addr) : t.fld f = s.fld f :=
  congrArg (getBits · _ _) (h.reg _ hf)

theorem State.SameButEnables.bit {f : Fld} (hf : f.addr < 0x90200 ∨ 0x902C0 ≤ f.addr) : t.bit f = s.bit f :=
  congrArg (· == 1) (h.fld hf)

theorem State.SameButEnables.domOn (k : Nat) : t.domOn k = s.domOn k :=
  h.bit (f := F.PWR_DOM_STATUS_ON.at k) (.inl (by show A.PWR_DOM_STATUS < _; decide))

theorem State.SameButEnables.houseOp : t.houseOp = s.houseOp := h.bit (by decide)

theorem State.SameButEnables.seedling : t.seedling = s.seedling := h.bit (by decide)

theorem State.SameButEnables.debugUnlocked : t.debugUnlocked = s.debugUnlocked := by
  rw [State.debugUnlocked, State.debugUnlocked, h.bit (by decide), h.bit (by decide), h.houseOp, h.seedling]

theorem State.SameButEnables.fullOp : t.fullOp = s.fullOp := by
  simp only [State.fullOp, State.suppliesGood, h.houseOp, h.power]
  simp (disch := decide) only [h.bit]

theorem State.SameButEnables.loopSt (l : Loop) : t.loopSt l = s.loopSt l := by
  refine h.fld (.inl ?_)
  simp only [F.LP_Ln_STATUS_STATE, A.LP_Ln_STATUS]
  omega

theorem State.SameButEnables.fbTrackAll : t.fbTrackAll = s.fbTrackAll := by
  have hbit : ∀ l : Loop, t.bit (F.LP_Ln_FB_FB_TRACK l) = s.bit (F.LP_Ln_FB_FB_TRACK l) := fun l => by
    refine h.bit (.inl ?_)
    simp only [F.LP_Ln_FB_FB_TRACK, A.LP_Ln_FB]
    omega
  simp only [State.fbTrackAll, State.loopOn, h.loopSt, hbit]

theorem State.SameButEnables.guarantee : t.guarantee = s.guarantee := by
  simp only [State.guarantee, State.contBits, h.domOn, h.fullOp, h.debugUnlocked, h.fbTrackAll, h.power]
  simp (disch := decide) only [h.bit]

theorem State.SameButEnables.alertPending (v : Port) (k : Fin 2) : t.alertPending v k = s.alertPending v k := by
  have hcause : t.fld (F.VLK_n_ALERTs_CAUSE v k) = s.fld (F.VLK_n_ALERTs_CAUSE v k) := by
    refine h.fld (.inl ?_)
    simp only [F.VLK_n_ALERTs_CAUSE, A.VLK_n_ALERTs]
    omega
  have hmask : t.fld (F.VLK_n_CFG_ATTN_MASK v) = s.fld (F.VLK_n_CFG_ATTN_MASK v) := by
    refine h.fld (.inl ?_)
    simp only [F.VLK_n_CFG_ATTN_MASK, A.VLK_n_CFG]
    omega
  rw [State.alertPending, State.alertPending, hcause, hmask]

theorem State.SameButEnables.slotConflict (v : Port) (k : Fin 2) : t.slotConflict v k = s.slotConflict v k := by
  have hmap : ∀ v : Port, t.reg (A.VLK_n_MAP v) = s.reg (A.VLK_n_MAP v) := fun v => by
    refine h.reg _ (.inl ?_)
    unfold A.VLK_n_MAP
    omega
  have hcode : ∀ (v : Port) (k : Fin 2), t.slotCode v k = s.slotCode v k := fun v k => by
    unfold State.slotCode
    rw [show t.fld (F.VLK_n_MAP_LOOP0 v) = s.fld (F.VLK_n_MAP_LOOP0 v) from congrArg (getBits · _ _) (hmap v),
      show t.fld (F.VLK_n_MAP_LOOP1 v) = s.fld (F.VLK_n_MAP_LOOP1 v) from congrArg (getBits · _ _) (hmap v)]
  simp only [State.slotConflict, hcode]

theorem State.SameButEnables.mbxFullFor (dir rcv : Nat) : t.mbxFullFor dir rcv = s.mbxFullFor dir rcv := by
  have hone : ∀ n < 256, (t.mbxFull n && (t.mbxCfg n).1 == dir && (t.mbxCfg n).2.1 == rcv)
      = (s.mbxFull n && (s.mbxCfg n).1 == dir && (s.mbxCfg n).2.1 == rcv) := fun n hn => by
    have hack : t.reg (A.MBX_CHn_ACK n) = s.reg (A.MBX_CHn_ACK n) := h.reg _ (.inl (by unfold A.MBX_CHn_ACK; omega))
    have hcfg : t.reg (A.MBX_CHn_CFG n) = s.reg (A.MBX_CHn_CFG n) := h.reg _ (.inl (by unfold A.MBX_CHn_CFG; omega))
    have hfull : t.mbxFull n = s.mbxFull n := congrArg (getBits · _ _ == 1) hack
    have hdir : t.fld (F.MBX_CHn_CFG_DIR n) = s.fld (F.MBX_CHn_CFG_DIR n) := congrArg (getBits · _ _) hcfg
    have hrcv : t.fld (F.MBX_CHn_CFG_RCV n) = s.fld (F.MBX_CHn_CFG_RCV n) := congrArg (getBits · _ _) hcfg
    have hsnd : t.fld (F.MBX_CHn_CFG_SND n) = s.fld (F.MBX_CHn_CFG_SND n) := congrArg (getBits · _ _) hcfg
    simp only [State.mbxCfg, hfull, hdir, hrcv, hsnd]
  rw [State.mbxFullFor, State.mbxFullFor, Bool.eq_iff_iff, List.any_eq_true, List.any_eq_true]
  exact exists_congr fun n => and_congr_right fun hn => by rw [hone n (List.mem_range.1 hn)]

theorem State.SameButEnables.firstFree : t.firstFree = s.firstFree := by
  simp only [State.firstFree, State.logValid, State.kprEcc, State.kprWord, State.kprWords, h.kpr]

theorem State.SameButEnables.levelCause {g b : Nat} (hb : b < 16) (hbad : g ≠ 15 ∨ t.regBad = s.regBad) :
    t.levelCause g b = s.levelCause g b := by
  have hloop : ∀ l < 12, t.fld (F.LP_Ln_STATUS_STATE l) = s.fld (F.LP_Ln_STATUS_STATE l) := fun l hl =>
    h.loopSt ⟨l, hl⟩
  unfold State.levelCause
  split
  case h_1 =>
    simp only [h.seedling, h.houseOp]
    simp (disch := decide) only [h.bit, h.fld, h.reg]
  case h_2 => rw [hloop _ (by omega)]
  case h_3 => simp only [h.alertPending, h.slotConflict]
  case h_4 =>
    have hevent : t.reg (A.PD_Pp_EVENT (b / 4)) = s.reg (A.PD_Pp_EVENT (b / 4)) :=
      h.reg _ (.inl (by unfold A.PD_Pp_EVENT; omega))
    have hrx : t.reg (A.PD_Pp_VDM_RXCTL (b / 4)) = s.reg (A.PD_Pp_VDM_RXCTL (b / 4)) :=
      h.reg _ (.inl (by unfold A.PD_Pp_VDM_RXCTL; omega))
    rw [show t.fld (F.PD_Pp_EVENT_EVENTS (b / 4)) = s.fld (F.PD_Pp_EVENT_EVENTS (b / 4)) from
        congrArg (getBits · _ _) hevent,
      show t.bit (F.PD_Pp_VDM_RXCTL_VALID (b / 4)) = s.bit (F.PD_Pp_VDM_RXCTL_VALID (b / 4)) from
        congrArg (getBits · _ _ == 1) hrx,
      h.bit (f := F.PP_DB_DB_OC.at (b / 4)) (.inl (by show A.PP_DB < _; decide))]
  case h_5 => 
    rw [hloop _ (by omega)]
  case h_6 => simp (disch := decide) only [h.bit, h.fld]
  case h_7 => simp (disch := decide) only [h.bit]
  case h_8 =>
    have hstatus : ∀ k < 3, t.reg (A.HP_TWk_STATUS k) = s.reg (A.HP_TWk_STATUS k) := fun k hk =>
      h.reg _ (.inl (by unfold A.HP_TWk_STATUS; omega))
    simp only [h.mbxFullFor]
    split
    · rfl
    · split
      case isTrue hport =>
        rw [show t.fld (F.HP_TWk_STATUS_CML (b - 6)) = s.fld (F.HP_TWk_STATUS_CML (b - 6)) from
          congrArg (getBits · _ _) (hstatus _ (by omega))]
      case isFalse => rfl
  case h_9 =>
    simp only [h.domOn]
    simp (disch := decide) only [h.bit, h.fld]
  case h_10 => simp only [h.recorder, h.firstFree]
  case h_11 =>
    simp only [h.domOn, h.guarantee]
    simp (disch := decide) only [h.bit]
  case h_12 =>
    have htst : ∀ k : Fin 4, t.bit (F.TST_MBXk_EN k) = s.bit (F.TST_MBXk_EN k) := fun k =>
      congrArg (getBits · _ _ == 1) (h.reg _ (.inr (by show _ ≤ A.TST_MBXk k; unfold A.TST_MBXk; omega)))
    have hregBad : t.regBad = s.regBad := hbad.resolve_left (by simp)
    simp only [htst, h.debugUnlocked, h.power, h.sramBad, hregBad]
    simp (disch := decide) only [h.bit, h.fld]
  case h_13 => rfl

/-- IRQ_CAUSEg reads no enable register (R343). -/
theorem State.SameButEnables.causeWord {g : Nat} (hg : g < 16) (hbad : g ≠ 15 ∨ t.regBad = s.regBad) :
    t.causeWord g = s.causeWord g := by
  have hfld : ∀ b, t.fld (causeFld g b) = s.fld (causeFld g b) := fun b =>
    h.fld (.inl (by show A.IRQ_CAUSEg g < _; unfold A.IRQ_CAUSEg; omega))
  refine List.foldl_ext _ _ _ fun w b hb => ?_
  rw [h.levelCause (List.mem_range.1 hb) hbad, hfld]

end

/-! ### Crown and views (R340) -/

theorem foldl_bits_testBit (f : Nat → Bool) {n i : Nat} (h : i < n) :
    ((List.range n).foldl (fun w g => w + (f g).toNat * 2 ^ g) 0).testBit i = f i := by
  induction n with
  | zero => omega
  | succ n ih =>
    rw [List.range_succ, List.foldl_append, List.foldl_cons, List.foldl_nil, Nat.add_comm, Nat.mul_comm,
      Nat.testBit_two_pow_mul_add _ (foldl_bits_lt f n)]
    split
    case isTrue hi => exact ih hi
    case isFalse hi =>
      obtain rfl : i = n := by omega
      cases f i <;> simp

theorem groupBits_testBit (f : Nat → Bool) {g : Nat} (h : g < 16) : (groupBits f).testBit g = f g :=
  foldl_bits_testBit f h

/-- The register at `a` is the n of index i, in D2. -/
structure IrqAt (a : Nat) (n : RegName) (i : Nat) (r : RegAt) : Prop where
  found : findReg a = some r
  name : r.cls.name = n
  idx : r.i = i
  dom : r.dom = 2

/-- `IrqAt`, evaluated. -/
def irqAt (a : Nat) (n : RegName) (i : Nat) : Bool :=
  (findReg a).any fun r => r.cls.name == n && r.i == i && r.dom == 2

theorem exists_irqAt {a : Nat} {n : RegName} {i : Nat} (h : irqAt a n i = true) : ∃ r, IrqAt a n i r := by
  obtain ⟨r, hr, hq⟩ := (Option.any_eq_true _ _).mp h
  simp only [Bool.and_eq_true, beq_iff_eq] at hq
  obtain ⟨⟨hname, hidx⟩, hdom⟩ := hq
  exact ⟨r, hr, hname, hidx, hdom⟩

theorem State.readReg_word_of_irqAt {s : State} {who : Writer} {a : Nat} {n : RegName} {i : Nat} {r : RegAt}
    (h : IrqAt a n i r) (hn : n ≠ .KPR_RDATA) (hdom : s.domOn 2 = true) :
    (s.readReg who a).word = s.liveWord who r (s.reg a) := by
  simp [State.readReg, h.found, h.dom, h.name, hdom, hn]

theorem State.crown_lt (s : State) : s.crown < 65536 := groupBits_lt _

theorem State.view_lt (s : State) (k : Nat) : s.view k < 65536 := groupBits_lt _

theorem State.readReg_crown (s : State) (who : Writer) (hdom : s.domOn 2 = true) :
    (s.readReg who A.IRQ_CROWN).word.toNat = s.crown := by
  obtain ⟨r, h⟩ := exists_irqAt (a := A.IRQ_CROWN) (n := .IRQ_CROWN) (i := 0) (by decide +kernel)
  rw [State.readReg_word_of_irqAt h (by decide) hdom, State.liveWord]
  simp only [h.name, BitVec.toNat_ofNat]
  exact Nat.mod_eq_of_lt (s.crown_lt.trans (by decide))

theorem State.readReg_view (s : State) (who : Writer) (k : Fin 3) (hdom : s.domOn 2 = true) :
    (s.readReg who (A.IRQ_VIEWk k.val)).word.toNat = s.view k.val := by
  obtain ⟨r, h⟩ := exists_irqAt (a := A.IRQ_VIEWk k) (n := .IRQ_VIEWk) (i := k) (by revert k; decide +kernel)
  rw [State.readReg_word_of_irqAt h (by decide) hdom, State.liveWord]
  simp only [h.name, h.idx, BitVec.toNat_ofNat]
  exact Nat.mod_eq_of_lt ((s.view_lt k).trans (by decide))

/-- Bits that rise carry the view in the Host Notify (R313). -/
theorem State.notify_noteView {s t : State} {k : HostId} (hrisen : t.view k &&& (65535 - s.view k) ≠ 0)
    (hen : t.bit (F.HP_TWk_CFG_NOTIFY_EN k) = true) (hdom : t.domOn 2 = true) :
    (s.noteView t k).hosts[k].notify = some (BitVec.ofNat 16 (t.view k)) := by
  rw [State.noteView, if_pos (by simp [hrisen, hen, hdom])]
  simp

/-- Settles O36. -/
theorem crownAndViews : Obligations.CrownAndViews := by
  unfold Obligations.CrownAndViews
  intro s
  refine ⟨fun g hg => ?_, fun g k hg => ?_, s.crown_lt, s.view_lt, s.readReg_crown, s.readReg_view,
    fun t k => State.notify_noteView⟩
  · rw [State.crown, groupBits_testBit _ hg, bne_iff_ne]
  · rw [State.view, groupBits_testBit _ hg, Bool.and_eq_true, bne_iff_ne, bne_iff_ne, and_iff_right_iff_imp]
    intro hboth hnone
    exact hboth (by rw [hnone, Nat.and_zero])

/-! ### Writes of enables and causes (R342, R343) -/

/-- The register at `a` holds one field of 16 bits, under the write rules of causes or enables. -/
structure CauseAt (a : Nat) (n : RegName) (i : Nat) (own : Owner) (acc : Acc) (r : RegAt) : Prop extends IrqAt a n i r where
  own : r.cls.own = own
  field : ∃ f, r.fields = [f] ∧ f.lo = 0 ∧ f.width = 16 ∧ f.acc = acc ∧ f.cond = .free

/-- `CauseAt`, evaluated. -/
def causeAt (a : Nat) (n : RegName) (i : Nat) (own : Owner) (acc : Acc) : Bool :=
  (findReg a).any fun r => r.cls.name == n && r.i == i && r.dom == 2 && r.cls.own == own
    && r.fields.map (fun f => (f.lo, f.width, f.acc, f.cond)) == [(0, 16, acc, .free)]

theorem exists_causeAt {a : Nat} {n : RegName} {i : Nat} {own : Owner} {acc : Acc} (h : causeAt a n i own acc = true) :
    ∃ r, CauseAt a n i own acc r := by
  obtain ⟨r, hr, hq⟩ := (Option.any_eq_true _ _).mp h
  simp only [Bool.and_eq_true, beq_iff_eq, List.map_eq_singleton_iff, Prod.mk.injEq] at hq
  obtain ⟨⟨⟨⟨hname, hidx⟩, hdom⟩, hown⟩, f, hfields, hlo, hwidth, hacc, hcond⟩ := hq
  exact ⟨r, ⟨hr, hname, hidx, hdom⟩, hown, f, hfields, hlo, hwidth, hacc, hcond⟩

theorem exists_causeAt_IRQ_ENk_g (k : HostId) (g : Fin 16) :
    ∃ r, CauseAt (A.IRQ_ENk_g k g) .IRQ_ENk_g k .irqEn .rw r :=
  exists_causeAt (by revert k g; decide +kernel)

theorem exists_causeAt_IRQ_CAUSEg (g : Fin 16) : ∃ r, CauseAt (A.IRQ_CAUSEg g) .IRQ_CAUSEg g .irqCause .w1c r :=
  exists_causeAt (by revert g; decide +kernel)

section
variable {a i : Nat} {n : RegName} {own : Owner} {acc : Acc} {r : RegAt} {s : State} {x : RegWr}

theorem CauseAt.lockBars (h : CauseAt a n i own acc r) : s.lockBars r x = false := by
  obtain ⟨f, hfields, -, -, -, hcond⟩ := h.field
  simp [State.lockBars, hfields, hcond]

theorem CauseAt.plain (h : CauseAt a n i own acc r) (hacc : acc ≠ .rwsh) : r.shadowed = false := by
  obtain ⟨f, hfields, -, -, hfacc, -⟩ := h.field
  simp [RegAt.shadowed, hfields, hfacc, hacc]

/-- What a write meets beside domain and seedling mode: a core nothing, a host the rule of the block (R342, R343). -/
theorem CauseAt.writeCheck (h : CauseAt a n i own acc r) (hown : own = .irqEn ∨ own = .irqCause) (hdom : s.domOn 2 = true)
    (hlim : s.limited = false) :
    s.writeCheck r a x = match x.who with
      | .core _ => 0
      | .host k => if own = .irqEn ∧ i ≠ k.val then 3 else 0 := by
  have hreg := h.own
  cases hx : x.who with
  | core k => obtain rfl | rfl := hown <;> simp [State.writeCheck, h.dom, hdom, hx, coreBarred, hreg, h.lockBars]
  | host k =>
    obtain rfl | rfl := hown
    · by_cases hi : i = k.val <;>
        simp [State.writeCheck, h.dom, hdom, hx, hlim, State.hostCheck, hreg, h.idx, hi, h.lockBars]
    · simp [State.writeCheck, h.dom, hdom, hx, hlim, State.hostCheck, hreg, h.lockBars]

theorem CauseAt.mbxBars (h : CauseAt a n i own acc r) (hn : n ≠ .MBX_CHn_CFG) (who : Writer) : s.mbxBars r who = false := by
  simp [State.mbxBars, h.name, hn]

theorem CauseAt.regWrite_of_refused (h : CauseAt a n i own acc r) (hn : n ≠ .MBX_CHn_CFG) {c : Nat}
    (hcheck : s.writeCheck r a x = c + 1) : s.regWrite a x = ⟨c + 1, s⟩ := by
  simp [State.regWrite, h.found, h.mbxBars hn, hcheck]

theorem CauseAt.regWrite_of_passed (h : CauseAt a n i own acc r) (hn : n = .IRQ_ENk_g ∨ n = .IRQ_CAUSEg)
    (hcheck : s.writeCheck r a x = 0) : s.regWrite a x = ⟨0, s.regEffect (s.storeWord r a x) r a x⟩ := by
  obtain rfl | rfl := hn <;>
    simp [State.regWrite, h.found, h.mbxBars, hcheck, h.name, State.stopsSequenced]

end

theorem RegWr.ones_word (who : Writer) (v : Word) : (RegWr.word who v).ones = v := BitVec.and_allOnes

section
variable {s : State} {x : RegWr}

/-- A write of an enable register stores it and does nothing beside. -/
theorem CauseAt.effect_IRQ_ENk_g {k : HostId} {g : Fin 16} {r : RegAt} (h : CauseAt (A.IRQ_ENk_g k g) .IRQ_ENk_g k .irqEn .rw r)
    (t : State) : s.regEffect t r (A.IRQ_ENk_g k g) x = t := by
  have hblock : A.IRQ_ENk_g k g / 0x10000 = 9 := by
    unfold A.IRQ_ENk_g
    omega
  simp only [State.regEffect, hblock, State.hostEffect, h.name]

theorem CauseAt.effect_IRQ_CAUSEg {g : Fin 16} {r : RegAt} (h : CauseAt (A.IRQ_CAUSEg g) .IRQ_CAUSEg g .irqCause .w1c r)
    (t : State) : s.regEffect t r (A.IRQ_CAUSEg g) x = t.causeWritten g x := by
  have hblock : A.IRQ_CAUSEg g / 0x10000 = 9 := by
    unfold A.IRQ_CAUSEg
    omega
  simp only [State.regEffect, hblock, State.hostEffect, h.name, h.idx]

/-- Storing keeps the word: only its own effect clears causes. -/
theorem CauseAt.reg_storeWord_IRQ_CAUSEg {g : Fin 16} {r : RegAt}
    (h : CauseAt (A.IRQ_CAUSEg g) .IRQ_CAUSEg g .irqCause .w1c r) (b : Nat) :
    (s.storeWord r (A.IRQ_CAUSEg g) x).reg b = s.reg b := by
  obtain ⟨f, hfields, -, -, hacc, -⟩ := h.field
  have hheld : s.heldBits r = BitVec.allOnes 32 := by simp [State.heldBits, h.name]
  by_cases hb : b = A.IRQ_CAUSEg g
  · rw [hb, s.storeWord_of_plain _ x (h.plain (by decide)), State.reg_setReg_same, State.wordAfter_eq_foldl, hfields]
    have hnone : x.ones &&& (bitsMask f.lo f.width &&& ~~~BitVec.allOnes 32) = 0#32 := by
      rw [BitVec.not_allOnes, BitVec.and_zero, BitVec.and_zero]
    rw [List.foldl_cons, List.foldl_nil, RegWr.stored, hacc, hheld]
    dsimp only
    rw [hnone, BitVec.not_zero, BitVec.and_allOnes]
  · exact State.storeWord_reg_ne _ _ _ hb

theorem CauseAt.en_storeWord_IRQ_ENk_g {k : HostId} {g : Fin 16} {r : RegAt} {who : Writer} {v : Word}
    (h : CauseAt (A.IRQ_ENk_g k g) .IRQ_ENk_g k .irqEn .rw r) :
    (s.storeWord r (A.IRQ_ENk_g k g) (RegWr.word who v)).fld (F.IRQ_ENk_g_EN k g) = v.toNat % 65536 := by
  obtain ⟨f, hfields, hlo, hwidth, hacc, -⟩ := h.field
  have hheld : s.heldBits r = 0 := by simp [State.heldBits, h.name]
  rw [State.fld, s.storeWord_of_plain _ _ (h.plain (by decide))]
  show getBits (State.reg (State.setReg _ _ _) (A.IRQ_ENk_g k g)) 0 16 = _
  rw [State.reg_setReg_same, State.wordAfter_eq_foldl, hfields, List.foldl_cons, List.foldl_nil]
  refine Nat.eq_of_testBit_eq fun j => ?_
  rw [getBits_testBit, Nat.zero_add, show 65536 = 2 ^ 16 by norm_num, Nat.testBit_mod_two_pow]
  by_cases hj : j < 16
  · have hcover : (bitsMask f.lo f.width).getLsbD j = true := by
      simp only [hlo, hwidth, bitsMask_getLsbD, Bool.and_eq_true, decide_eq_true_eq]
      omega
    have hmask : (RegWr.word who v).mask.getLsbD j = true := by
      rw [RegWr.word, BitVec.getLsbD_allOnes, decide_eq_true (by omega)]
    rw [RegWr.stored_getLsbD_of_covered _ _ _ _ hacc hcover (by simp [hheld]) hmask, RegWr.ones_word]
    rfl
  · simp [hj]

theorem State.regWrite_cause (s : State) (g : Fin 16) (who : Writer) (v : Word) (hdom : s.domOn 2 = true)
    (hlim : s.limited = false) : ∃ t : State, (∀ b, t.reg b = s.reg b) ∧
      s.regWrite (A.IRQ_CAUSEg g) (RegWr.word who v) = ⟨0, t.causeWritten g (RegWr.word who v)⟩ := by
  obtain ⟨r, h⟩ := exists_causeAt_IRQ_CAUSEg g
  have hcheck : s.writeCheck r (A.IRQ_CAUSEg g) (RegWr.word who v) = 0 := by
    rw [h.writeCheck (.inr rfl) hdom hlim]
    cases who <;> rfl
  refine ⟨_, h.reg_storeWord_IRQ_CAUSEg (x := RegWr.word who v), ?_⟩
  rw [h.regWrite_of_passed (.inr rfl) hcheck, h.effect_IRQ_CAUSEg]

end

/-- Settles O38. -/
theorem clearingCauses : Obligations.ClearingCauses := by
  unfold Obligations.ClearingCauses
  intro s g v hdom hlim
  refine ⟨fun k => ?_, fun h => ?_, fun who a ha => ?_⟩
  · obtain ⟨t, ht, hw⟩ := s.regWrite_cause g (.core k) v hdom hlim
    rw [hw, State.causeWritten, State.reg_setReg_same, ht, RegWr.ones_word]
    exact ⟨rfl, rfl⟩
  · obtain ⟨t, ht, hw⟩ := s.regWrite_cause g (.host h) v hdom hlim
    rw [hw, State.causeWritten, State.reg_setReg_same, ht, RegWr.ones_word, ← ht (A.IRQ_ENk_g h g)]
    exact ⟨rfl, rfl⟩
  · obtain ⟨t, ht, hw⟩ := s.regWrite_cause g who v hdom hlim
    rw [hw, State.causeWritten, State.reg_setReg_ne _ _ ha, ht]

/-- Settles O37: a write that passes is `State.storeWord` alone, and no cause reads what it changes. -/
theorem interruptEnables : Obligations.InterruptEnables := by
  unfold Obligations.InterruptEnables
  intro s k g v hdom hlim
  obtain ⟨r, h⟩ := exists_causeAt_IRQ_ENk_g k g
  refine ⟨fun who hwho => ?_, fun j hj => ?_⟩
  · have hcheck : s.writeCheck r (A.IRQ_ENk_g k g) (RegWr.word who v) = 0 := by
      rw [h.writeCheck (.inl rfl) hdom hlim]
      obtain rfl | ⟨c, rfl⟩ := hwho
      · simp [RegWr.word]
      · rfl
    rw [h.regWrite_of_passed (.inl rfl) hcheck, h.effect_IRQ_ENk_g]
    have hreg : ∀ a, a ≠ A.IRQ_ENk_g k g → (s.storeWord r (A.IRQ_ENk_g k g) (RegWr.word who v)).reg a = s.reg a :=
      fun a => State.storeWord_reg_ne _ _ _
    refine ⟨rfl, h.en_storeWord_IRQ_ENk_g, hreg, fun b hb hbad => ?_⟩
    rw [s.storeWord_of_plain _ _ (h.plain (by decide))] at hreg ⊢
    have hsame : s.SameButEnables ((s.mendReg (A.IRQ_ENk_g k g)).setReg (A.IRQ_ENk_g k g)
        (s.wordAfter r (s.reg (A.IRQ_ENk_g k g)) (RegWr.word who v))) :=
      ⟨fun a ha => hreg a (by unfold A.IRQ_ENk_g; omega), rfl, rfl, rfl, rfl⟩
    refine hsame.causeWord hb (hbad.imp_right fun hgood => ?_)
    refine List.filter_eq_self.2 fun c hc => ?_
    rw [bne_iff_ne]
    rintro rfl
    simp [hc] at hgood
  · have hcheck : s.writeCheck r (A.IRQ_ENk_g k g) (RegWr.word (.host j) v) = 2 + 1 := by
      rw [h.writeCheck (.inl rfl) hdom hlim]
      have hne : k.val ≠ j.val := fun e => hj (Fin.ext e.symm)
      simp [RegWr.word, hne]
    rw [h.regWrite_of_refused (by decide) hcheck]
    exact ⟨rfl, rfl⟩

end Sys2Proof.Machine
end

section
/-!
SRAM and its mirrors (R356, R357): what a read that meets bad parity returns, restores and records.
-/

namespace Sys2Proof.Machine

theorem append_extract_bytes (v : Word) :
    v.extractLsb' 24 8 ++ v.extractLsb' 16 8 ++ v.extractLsb' 8 8 ++ v.extractLsb' 0 8 = v := by
  refine BitVec.eq_of_getLsbD_eq fun i hi => ?_
  simp only [BitVec.getLsbD_append, BitVec.getLsbD_extractLsb']
  split_ifs
  all_goals
    rw [decide_eq_true (by omega), Bool.true_and]
    congr 1
    omega

/-- A word that is written reads so. -/
theorem Mem.word_setBytes_wordBytes (d : Nat → Byte) (m : Mem 8) (a : Nat) (v : Word) :
    Mem.word d (m.setBytes d a (wordBytes v)) a = v := by
  have hbyte : ∀ i < 4, (m.setBytes d a (wordBytes v)).get d (a + i) = (wordBytes v).getD i 0 := fun i hi => by
    rw [Mem.get_setBytes, if_pos ⟨Nat.le_add_right a i, Nat.add_lt_add_left hi a⟩, Nat.add_sub_cancel_left]
  have h0 : (m.setBytes d a (wordBytes v)).get d a = v.extractLsb' 0 8 := hbyte 0 (by decide)
  rw [Mem.word, hbyte 3 (by decide), hbyte 2 (by decide), hbyte 1 (by decide), h0]
  exact append_extract_bytes v

section
variable {s : State} {a m : Nat} {glitch : Bool}

theorem State.sramRead_of_good (h : s.sramBad.contains a = false) : s.sramRead a false = ⟨true, 0, s⟩ := by
  simp only [State.sramRead, h]
  rfl

/-- What a replay records: the cause, its count and the address (R356). -/
def State.replayed (s : State) (a : Nat) : State := ((s.raise 13 0).satInc F.IRQ_CONT_CNT_REPLAYS).contAddr a 1

theorem State.sramRead_of_mirror (hbad : s.sramBad.contains a = true ∨ glitch = true) (hm : s.mirrorOf a = some m) :
    s.sramRead a glitch = if s.sramBad.contains m then ⟨false, 8, (s.replayed a).raise 13 2⟩
      else ⟨true, 8, (s.replayed a).setSramWord a (s.sramWord m)⟩ := by
  have hread : (s.sramBad.contains a || glitch) = true := by simpa using hbad
  simp only [State.sramRead, hread, hm]
  rfl

theorem State.sramRead_of_noMirror (hbad : s.sramBad.contains a = true) (hm : s.mirrorOf a = none) :
    s.sramRead a false = ⟨false, 2, ((s.raise 13 1).satInc F.IRQ_CONT_CNT_DATA_FAULTS).contAddr a 2⟩ := by
  simp only [State.sramRead, hbad, hm]
  rfl

/-- The cause that came before a count and an address stays (R356, R357). -/
theorem State.cause_contAddr_satInc (s : State) {f : Fld} (b n addr kind : Nat) (hb : b < 32) (hf : f.addr = A.IRQ_CONT_CNT) :
    (((s.raise 13 b).satInc f n).contAddr addr kind).fld (causeFld 13 b) = 1 := by
  have hcnt : (causeFld 13 b).addr ≠ f.addr := by rw [hf]; show A.IRQ_CAUSEg 13 ≠ _; decide
  have haddr : (causeFld 13 b).addr ≠ A.IRQ_CONT_ADDR := by show A.IRQ_CAUSEg 13 ≠ _; decide
  rw [State.contAddr, State.fld_setFld_reg _ _ haddr, State.fld_setFld_reg _ _ haddr, State.satInc,
    State.fld_setFld_reg _ _ hcnt, State.fld_raise_same _ hb]

end

/-- Settles O40. -/
theorem sramMirrors : Obligations.SramMirrors := by
  unfold Obligations.SramMirrors
  refine ⟨fun s a => State.sramRead_of_good, fun s a m glitch hbad hm hgood _ => ?_, fun s a m hbad hm hboth => ?_,
    fun s a hbad hm => ?_⟩
  · rw [State.sramRead_of_mirror hbad hm, hgood]
    have hlen : (wordBytes (s.sramWord m)).length = 4 := rfl
    rw [if_neg Bool.false_ne_true]
    refine ⟨rfl, Mem.word_setBytes_wordBytes _ _ _ _, State.sramBad_setSramBytes _ a (by omega), ?_, fun b hb => ?_⟩
    · show (s.replayed a).fld (causeFld 13 0) = 1
      exact s.cause_contAddr_satInc 0 1 a 1 (by decide) rfl
    · show ((s.sram.setBytes sramDefault a (wordBytes (s.sramWord m))).get sramDefault b) = _
      have hout : ¬ (a ≤ b ∧ b < a + (wordBytes (s.sramWord m)).length) := by
        omega
      rw [Mem.get_setBytes, if_neg hout]
  · rw [State.sramRead_of_mirror (.inl hbad) hm, hboth, if_pos rfl]
    exact ⟨rfl, State.fld_raise_same _ (by decide), rfl⟩
  · rw [State.sramRead_of_noMirror hbad hm]
    exact ⟨rfl, s.cause_contAddr_satInc 1 1 a 2 (by decide) rfl, rfl⟩

end Sys2Proof.Machine
end

section
/-!
Containment (R351-R359), handovers and re-trims (R441-R447) and the unlocking of the test block (R449) as they run.
-/

namespace Sys2Proof.Machine

/-- A row of the re-trim that runs, in one of its steps and not lost. -/
theorem State.watch_onRetrim {s : State} {r : Retrim} {steps : List RetrimStep} {f : Retrim → State → State}
    (hr : s.live.retrim = some r) (hstep : steps.contains r.step = true) (hlost : s.retrimLost r = false) :
    s.watch (s.onRetrim steps f) = .next (s.settled (f r s)) := by
  simp only [State.onRetrim, hr]
  rw [State.watch_onlyIf _ (by rw [hstep, hlost]; rfl)]

/-- A re-trim that has changed trims goes back to the old ones (R446, R447). -/
theorem State.retrimBack_of_changed {s : State} {r : Retrim} {result : Nat} (h : r.step = .twin ∨ r.step = .done) :
    s.retrimBack r result = ((s.setFld F.LIVE_RETRIM_RESULT result).setReg (A.LIVE_WTRIMn r.loop.val) r.before).setRetrim
      (some { r with step := .old }) := by
  obtain h | h := h <;> simp only [State.retrimBack, h]

theorem State.retrimBack_of_settling {s : State} {r : Retrim} {result : Nat} (h : r.step = .settling) :
    s.retrimBack r result = (s.setFld F.LIVE_RETRIM_RESULT result).setRetrim none := by
  simp only [State.retrimBack, h]

/-- Settles O39. -/
theorem containmentAndLiveServiceCommandsComplete : Obligations.ContainmentAndLiveServiceCommandsComplete := by
  unfold Obligations.ContainmentAndLiveServiceCommandsComplete
  refine ⟨?_, ?_, ?_, ?_, ?_, ?_, ?_, ?_, ?_, ?_, ?_, ?_, ?_, ?_, ?_, ?_, ?_⟩
  · intro l s hdom hdigital hok
    show s.watch (doCheckMismatch l s) = _
    rw [doCheckMismatch, State.watch_onlyIf _ (by rw [hdom, hdigital, hok]; rfl), State.countMismatch]
  · intro pass s hdom
    show s.watch (doCheckerSelfTest pass s) = _
    rw [doCheckerSelfTest, State.watch_onlyIf _ hdom]
  · intro x s hst htrack hdiffer
    show s.watch (doSenseXcheck x s) = _
    rw [doSenseXcheck, State.watch_onlyIf _ (by rw [hst, htrack, hdiffer]; rfl), State.countMismatch]
  · intro s hup hrun
    show s.watch (doClkFrc s) = _
    rw [doClkFrc, State.watch_onlyIf _ (by rw [hup, hrun]; rfl)]
  · intro s hup hslow
    show s.watch (doClkSlow s) = _
    rw [doClkSlow, State.watch_onlyIf _ (by simp [hup, hslow])]
  · intro word s hbank hend
    show s.watch (doScrubRead word s) = _
    unfold doScrubRead
    dsimp only
    rw [State.watch_onlyIf _ (by simp [hbank, hend])]
  · intro s hdom
    show s.watch (doRegParitySweep s) = _
    rw [doRegParitySweep, State.watch_onlyIf _ hdom]
  · intro k s hruns hst
    show s.watch (doHandoverTimeout k s) = _
    rw [doHandoverTimeout, State.watch_onlyIf _ (by simp [hruns, hst]), State.handoverFails, State.setHo]
  · intro k s hruns hst
    show s.watch (doHandoverCopyDone k s) = _
    rw [doHandoverCopyDone, State.watch_onlyIf _ (by simp [hruns, hst])]
  · intro k s hruns hst
    show s.watch (doNotAlive k s) = _
    rw [doNotAlive, State.watch_onlyIf _ (by simp [hruns, hst]), State.notAlive]
  · intro r s hr hstep hlost
    show s.watch (doRetrimTwinSettled true s) = _
    rw [doRetrimTwinSettled, State.watch_onRetrim hr (by rw [hstep]; rfl) hlost, if_pos rfl]
  · intro r s hr hstep hlost
    show s.watch (doRetrimTwinSettled false s) = _
    rw [doRetrimTwinSettled, State.watch_onRetrim hr (by rw [hstep]; rfl) hlost, if_neg Bool.false_ne_true,
      State.retrimBack_of_settling hstep]
  · intro trims r s hr hstep hlost
    show s.watch (doRetrimTrimsComputed trims true s) = _
    rw [doRetrimTrimsComputed, State.watch_onRetrim hr (by rw [hstep]; rfl) hlost, if_pos rfl]
  · intro r s hr hstep hlost
    show s.watch (doRetrimTimeout s) = _
    rw [doRetrimTimeout, State.watch_onRetrim hr (by obtain h | h := hstep <;> rw [h] <;> rfl) hlost,
      State.retrimBack_of_changed hstep]
  · intro r s hr hstep hlost
    show s.watch (doRetrimAbort s) = _
    simp only [doRetrimAbort, hr]
    rw [State.watch_onlyIf _ (by simp [hstep, hlost])]
  · intro s hlockout
    show s.watch (doTstKeyLockoutEnd s) = _
    rw [doTstKeyLockoutEnd, State.watch_onlyIf _ hlockout]
  · intro s hhalf
    show s.watch (doTstUnlockTimeout s) = _
    rw [doTstUnlockTimeout, State.watch_onlyIf _ hhalf, State.keyBad]

end Sys2Proof.Machine
end

section
/-!
Conversions (R362, R364), thermal demands (R377-R381), the keeper's operations (R388, R394) and the recorder's periodic
work (R397-R405) as they run.
-/

namespace Sys2Proof.Machine

/-- R377: a demand begins a measurement where none runs and full operation gives D11 its source. -/
theorem State.thmDemand_of_idle {s : State} (hbusy : s.bit F.THM_STATUS_BUSY = false) (hfull : s.fullOp = true) :
    s.thmDemand = s.setBit F.THM_STATUS_BUSY true := by
  rw [State.thmDemand, hbusy, hfull]
  rfl

/-- Settles O41. -/
theorem telemetryAndKeeperCommandsComplete : Obligations.TelemetryAndKeeperCommandsComplete := by
  unfold Obligations.TelemetryAndKeeperCommandsComplete
  refine ⟨?_, ?_, ?_, ?_, ?_, ?_, ?_, ?_, ?_, ?_⟩
  · intro mean wild stopped r s hrun hbegun hdom
    show s.watch (doConversionDone mean wild stopped s) = _
    simp only [doConversionDone, hrun]
    rw [State.watch_onlyIf _ (by rw [hbegun, hdom]; rfl)]
  · intro s hdom hok
    show s.watch (doRefSettled s) = _
    rw [doRefSettled, State.watch_onlyIf _ (by rw [hdom, hok]; rfl)]
  · intro s hdom hperiod hshut hseedling hbusy hfull
    show s.watch (doThmDemandTimer s) = _
    rw [doThmDemandTimer, State.watch_onlyIf _ (by simp [hdom, hperiod, hshut, hseedling]),
      State.thmDemand_of_idle hbusy hfull]
  · intro s hshut hbusy hfull
    show s.watch (doShutHoldMeasure s) = _
    rw [doShutHoldMeasure, State.watch_onlyIf _ hshut, State.thmDemand_of_idle hbusy hfull]
  · intro counts s hbusy hdom
    show s.watch (doThDone counts s) = _
    rw [doThDone, State.watch_onlyIf _ (by rw [hbusy, hdom]; rfl)]
  · intro same op a w rest s hrunning hdom
    show s.watch (doKeeperGroupDone same s) = _
    simp only [doKeeperGroupDone, hrunning]
    rw [State.watch_onlyIf _ hdom]
  · intro op s hrunning hdom
    show s.watch (doKeeperOperationDone s) = _
    simp only [doKeeperOperationDone, hrunning]
    rw [State.watch_onlyIf _ hdom]
  · intro s hpowered hawake
    show s.watch (doOpminPersist s) = _
    rw [doOpminPersist, State.watch_onlyIf _ (by rw [hpowered, hawake]; rfl)]
  · intro s hdom hread
    show s.watch (doRecorderPersist s) = _
    rw [doRecorderPersist, State.watch_onlyIf _ (by rw [hdom, hread]; rfl)]
  · intro power vin vsys s hdom hread
    show s.watch (doStatisticsSample power vin vsys s) = _
    rw [doStatisticsSample, State.watch_onlyIf _ (by rw [hdom, hread]; rfl)]

end Sys2Proof.Machine
end

section
/-! The raw code of a conversion (R362). -/

namespace Sys2Proof.Machine

/-- Two roundings can be out of order only where both are off by a half, and then both are of one number. -/
theorem roundRat_le_roundRat {a b : Rat} (h : a ≤ b) : roundRat a ≤ roundRat b := by
  by_contra! hlt
  have ha := (abs_le.mp (abs_roundRat_sub_le a)).2
  have hb := (abs_le.mp (abs_roundRat_sub_le b)).1
  have hstep : (roundRat b : Rat) + 1 ≤ roundRat a := by exact_mod_cast hlt
  have hab : a = b := by linarith
  rw [hab] at hlt
  exact lt_irrefl _ hlt

theorem rawCode_le (mean : Rat) : rawCode mean ≤ 0xFFFFFF := by
  unfold rawCode clamp
  omega

theorem rawCode_le_rawCode {a b : Rat} (h : a ≤ b) : rawCode a ≤ rawCode b := by
  have hround : roundRat (a * 2 ^ 24) ≤ roundRat (b * 2 ^ 24) :=
    roundRat_le_roundRat (mul_le_mul_of_nonneg_right h (by positivity))
  unfold rawCode clamp
  omega

theorem rawCode_of_code {n : Nat} (hn : n ≤ 0xFFFFFF) : rawCode ((n : Rat) / 2 ^ 24) = n := by
  have hmean : (n : Rat) / 2 ^ 24 * 2 ^ 24 = ((n : Int) : Rat) := by
    rw [div_mul_cancel₀ _ (by positivity), Int.cast_natCast]
  rw [rawCode, hmean, roundRat_intCast, clamp]
  omega

/-- Settles O42: every clause follows from the order of the codes and their values at 0 and at the last code. -/
theorem aConversionsCode : Obligations.AConversionsCode := by
  unfold Obligations.AConversionsCode
  refine ⟨rawCode_le, fun n => rawCode_of_code, fun a b => rawCode_le_rawCode, fun mean hmean => ?_, fun mean hmean => ?_⟩
  · have hzero : rawCode mean ≤ rawCode (((0 : Nat) : Rat) / 2 ^ 24) := rawCode_le_rawCode (by simpa using hmean)
    rw [rawCode_of_code (by decide)] at hzero
    omega
  · have htop : rawCode (((0xFFFFFF : Nat) : Rat) / 2 ^ 24) ≤ rawCode mean :=
      rawCode_le_rawCode (le_trans (by norm_num) hmean)
    rw [rawCode_of_code le_rfl] at htop
    exact le_antisymm (rawCode_le mean) htop

end Sys2Proof.Machine
end

section
/-! The two copies of a keeper record: which is used, which is written (R399, R400). -/

namespace Sys2Proof.Machine

theorem newer_iff {x y : Nat} (hx : x < 2 ^ 32) (hy : y < 2 ^ 32) :
    newer x y = true ↔ ∃ d : Nat, 1 ≤ d ∧ d ≤ 2 ^ 31 - 1 ∧ (y + d) % 2 ^ 32 = x := by
  simp only [newer, Bool.and_eq_true, decide_eq_true_eq]
  constructor
  · rintro ⟨hlo, hhi⟩
    exact ⟨(x + 2 ^ 32 - y) % 2 ^ 32, hlo, by omega, by omega⟩
  · rintro ⟨d, hlo, hhi, hsum⟩
    have hd : (x + 2 ^ 32 - y) % 2 ^ 32 = d := by omega
    omega

theorem not_newer_self (x : Nat) : newer x x = false := by
  rw [newer, Nat.add_sub_cancel_left]
  rfl

/-- Of two sequence numbers at most one is newer (R399). -/
theorem newer_asymm {x y : Nat} (h : newer y x = true) : newer x y = false := by
  simp only [newer, Bool.and_eq_true, decide_eq_true_eq, Bool.and_eq_false_iff, decide_eq_false_iff_not] at h ⊢
  omega

/-- Half of the numbers apart, neither is newer (R399). -/
theorem not_newer_of_half {x y : Nat} (h : (x + 2 ^ 31) % 2 ^ 32 = y) :
    newer x y = false ∧ newer y x = false := by
  simp only [newer, Bool.and_eq_false_iff, decide_eq_false_iff_not]
  omega

section
variable {s : State} {k : RecordKind}

theorem State.chooseCopy_of_both (ha : s.copyValid k k.base = true) (hb : s.copyValid k k.copyB = true) :
    s.chooseCopy k = if (s.kprWord (k.base + 4)).toNat = (s.kprWord (k.copyB + 4)).toNat then
        ⟨some k.base, k.copyB, ((s.kprWord (k.base + 4)).toNat + 1) % 2 ^ 32,
          s.kprWords k.base k.len != s.kprWords k.copyB k.len⟩
      else if newer (s.kprWord (k.base + 4)).toNat (s.kprWord (k.copyB + 4)).toNat then
        ⟨some k.base, k.copyB, ((s.kprWord (k.base + 4)).toNat + 1) % 2 ^ 32, false⟩
      else if newer (s.kprWord (k.copyB + 4)).toNat (s.kprWord (k.base + 4)).toNat then
        ⟨some k.copyB, k.base, ((s.kprWord (k.copyB + 4)).toNat + 1) % 2 ^ 32, false⟩
      else ⟨some k.base, k.copyB, ((s.kprWord (k.base + 4)).toNat + 1) % 2 ^ 32, false⟩ := by
  simp only [State.chooseCopy, ha, hb]

theorem State.chooseCopy_of_first (ha : s.copyValid k k.base = true) (hb : s.copyValid k k.copyB = false) :
    s.chooseCopy k = ⟨some k.base, k.copyB, ((s.kprWord (k.base + 4)).toNat + 1) % 2 ^ 32, false⟩ := by
  simp only [State.chooseCopy, ha, hb]

theorem State.chooseCopy_of_second (ha : s.copyValid k k.base = false) (hb : s.copyValid k k.copyB = true) :
    s.chooseCopy k = ⟨some k.copyB, k.base, ((s.kprWord (k.copyB + 4)).toNat + 1) % 2 ^ 32, false⟩ := by
  simp only [State.chooseCopy, ha, hb]

theorem State.chooseCopy_of_none (ha : s.copyValid k k.base = false) (hb : s.copyValid k k.copyB = false) :
    s.chooseCopy k = ⟨none, k.base, 1, false⟩ := by
  simp only [State.chooseCopy, ha, hb]

theorem State.readRecord_raises_tie (h : (s.chooseCopy k).tie = true) :
    (s.readRecord k).fld (causeFld 12 2) = 1 := by
  rw [State.readRecord, if_pos h, State.fld_raise_same _ (by decide)]

end

/-- Settles O43. -/
theorem recordCopies : Obligations.RecordCopies := by
  unfold Obligations.RecordCopies
  refine ⟨fun x y => newer_iff, ?_, fun s k => State.readRecord_raises_tie⟩
  rintro s k x y rfl rfl
  have hdiffer : ∀ {m n : Nat}, newer m n = true → m ≠ n := fun hnewer heq => by
    rw [heq, not_newer_self] at hnewer
    exact Bool.false_ne_true hnewer
  refine ⟨fun ha hb htie => ?_, fun ha hb hnewer => ?_, fun ha hb hnewer => ?_, fun ha hb hhalf => ?_,
    State.chooseCopy_of_first, State.chooseCopy_of_second, State.chooseCopy_of_none⟩
  · rw [State.chooseCopy_of_both ha hb, if_pos htie]
  · rw [State.chooseCopy_of_both ha hb, if_neg (hdiffer hnewer), if_pos hnewer]
  · rw [State.chooseCopy_of_both ha hb, if_neg (hdiffer hnewer).symm, newer_asymm hnewer,
      if_neg Bool.false_ne_true, if_pos hnewer]
  · obtain ⟨hfirst, hsecond⟩ := not_newer_of_half hhalf
    rw [State.chooseCopy_of_both ha hb, if_neg (by omega), hfirst, hsecond]
    rfl

end Sys2Proof.Machine
end

section
/-! A record write goes to the copy that is not in use (R400). -/

namespace Sys2Proof.Machine

/-- The words of a record with its CRC after them (R398). -/
def withCrc (body : List Word) : List Word := body ++ [wordsCrc body]

/-- What a record write stores before the CRC (R400). -/
def State.recordBody (s : State) (k : RecordKind) (payload : List Word) : List Word :=
  k.hdr :: BitVec.ofNat 32 (s.chooseCopy k).seq :: payload

section
variable (s : State) (k : RecordKind)

/-- The copy written next is the one that is not in use (Table 13.6a). -/
theorem State.chooseCopy_used_next :
    (s.chooseCopy k).used = none ∧ (s.chooseCopy k).next = k.base
      ∨ (s.chooseCopy k).used = some k.base ∧ (s.chooseCopy k).next = k.copyB
      ∨ (s.chooseCopy k).used = some k.copyB ∧ (s.chooseCopy k).next = k.base := by
  cases ha : s.copyValid k k.base <;> cases hb : s.copyValid k k.copyB
  · rw [State.chooseCopy_of_none ha hb]
    exact .inl ⟨rfl, rfl⟩
  · rw [State.chooseCopy_of_second ha hb]
    exact .inr (.inr ⟨rfl, rfl⟩)
  · rw [State.chooseCopy_of_first ha hb]
    exact .inr (.inl ⟨rfl, rfl⟩)
  · rw [State.chooseCopy_of_both ha hb]
    split_ifs
    · exact .inr (.inl ⟨rfl, rfl⟩)
    · exact .inr (.inl ⟨rfl, rfl⟩)
    · exact .inr (.inr ⟨rfl, rfl⟩)
    · exact .inr (.inl ⟨rfl, rfl⟩)

variable {s k}

/-- The copy in use and the one written next do not overlap. -/
theorem State.chooseCopy_apart {u : Nat} (h : (s.chooseCopy k).used = some u) :
    (s.chooseCopy k).next + 4 * k.len ≤ u ∨ u + 4 * k.len ≤ (s.chooseCopy k).next := by
  obtain ⟨hused, hnext⟩ | ⟨hused, hnext⟩ | ⟨hused, hnext⟩ := s.chooseCopy_used_next k
  · rw [hused] at h
    exact absurd h (Option.some_ne_none u).symm
  · rw [hused, Option.some_inj] at h
    rw [hnext, ← h, RecordKind.copyB]
    omega
  · rw [hused, Option.some_inj] at h
    rw [hnext, ← h, RecordKind.copyB]
    omega

variable {payload : List Word}

theorem State.recordGroups_eq : s.recordGroups k payload
    = (List.range (withCrc (s.recordBody k payload)).length).map fun j =>
        ((s.chooseCopy k).next + 4 * j, (withCrc (s.recordBody k payload)).getD j 0) := rfl

theorem State.map_snd_recordGroups : (s.recordGroups k payload).map Prod.snd = withCrc (s.recordBody k payload) := by
  rw [State.recordGroups_eq, List.map_map]
  refine List.ext_getElem (by simp) fun j hj hj' => ?_
  simp [hj']

variable (h : payload.length + 3 = k.len)
include h

theorem State.length_recordBody : (s.recordBody k payload).length = k.len - 1 := by
  simp only [State.recordBody, List.length_cons]
  omega

theorem State.map_fst_recordGroups :
    (s.recordGroups k payload).map Prod.fst = (List.range k.len).map fun j => (s.chooseCopy k).next + 4 * j := by
  have hlen : (withCrc (s.recordBody k payload)).length = k.len := by
    rw [withCrc, List.length_append, State.length_recordBody h, List.length_singleton]
    omega
  rw [State.recordGroups_eq, hlen, List.map_map]
  rfl

/-- Each group lies in the copy written next. -/
theorem State.recordGroups_inside {g : Nat × Word} (hg : g ∈ s.recordGroups k payload) :
    (s.chooseCopy k).next ≤ g.1 ∧ g.1 + 4 ≤ (s.chooseCopy k).next + 4 * k.len := by
  have hfst := List.mem_map_of_mem (f := Prod.fst) hg
  rw [State.map_fst_recordGroups h, List.mem_map] at hfst
  obtain ⟨j, hj, hgj⟩ := hfst
  have hlt := List.mem_range.mp hj
  omega

/-- The last group holds the CRC of the words of the others. -/
theorem State.getLast?_recordGroups : (s.recordGroups k payload).getLast?.map Prod.snd
    = some (wordsCrc (((s.recordGroups k payload).map Prod.snd).take (k.len - 1))) := by
  rw [← List.getLast?_map, State.map_snd_recordGroups, withCrc, List.getLast?_concat, ← State.length_recordBody (s := s) h,
    List.take_left]

end

/-- Groups that lie elsewhere leave a byte of the array as it is. -/
theorem get_writeGroups_of_outside {gs : List (Nat × Word)} {b : Nat} (h : ∀ g ∈ gs, b < g.1 ∨ g.1 + 4 ≤ b) (m : Mem 8) :
    (writeGroups m gs).get kprDefault b = m.get kprDefault b := by
  induction gs generalizing m with
  | nil => rfl
  | cons g gs ih =>
    have hlen : (wordBytes g.2).length = 4 := rfl
    have hg := h g (List.mem_cons_self ..)
    calc (writeGroups m (g :: gs)).get kprDefault b
      _ = (m.setWord kprDefault g.1 g.2).get kprDefault b := ih (fun g' hg' => h g' (List.mem_cons_of_mem g hg')) _
      _ = m.get kprDefault b := by
        rw [Mem.setWord, Mem.get_setBytes, if_neg (by omega)]

/-- Settles O44. -/
theorem aRecordWriteSparesTheCopyInUse : Obligations.ARecordWriteSparesTheCopyInUse := by
  unfold Obligations.ARecordWriteSparesTheCopyInUse
  intro s k payload h
  refine ⟨State.map_fst_recordGroups h, State.getLast?_recordGroups h, ?_, fun u hu g hg => ?_, fun u hu n b hlo hhi => ?_⟩
  · obtain ⟨-, hnext⟩ | ⟨-, hnext⟩ | ⟨-, hnext⟩ := s.chooseCopy_used_next k
    · exact .inl hnext
    · exact .inr hnext
    · exact .inl hnext
  · have hapart := State.chooseCopy_apart hu
    have hinside := State.recordGroups_inside h hg
    omega
  · refine get_writeGroups_of_outside (fun g hg => ?_) _
    have hapart := State.chooseCopy_apart hu
    have hinside := State.recordGroups_inside h (List.mem_of_mem_take hg)
    omega

end Sys2Proof.Machine
end

section
/-! The partitions of the keeper's array (R387) and the checks of a WRITE (R391). -/

namespace Sys2Proof.Machine

theorem partition_lt (a : Nat) : partition a < 5 := by
  unfold partition
  split_ifs <;> decide

theorem partition_bounds {a : Nat} (ha : a < 0x40000) : partBase (partition a) ≤ a ∧ a < partEnd (partition a) := by
  unfold partition
  split_ifs <;> simp only [partBase, partEnd] <;> omega

theorem eq_partition_of_bounds {a q : Nat} (hq : q < 5) (h : partBase q ≤ a ∧ a < partEnd q) : q = partition a := by
  unfold partition
  interval_cases q <;> simp only [partBase, partEnd] at h <;> split_ifs <;> omega

theorem partition_le_partition {a b : Nat} (h : a ≤ b) : partition a ≤ partition b := by
  unfold partition
  split_ifs <;> omega

section
variable {s : State} {who : Writer} {key : Nat}

/-- R391: the keys come before the range, and the range before the rights. -/
theorem State.kprCheck_range (hpend : s.cmdPend = false) (hkey : partition s.writeAddr ≠ 1 ∨ key = 0xC5)
    (hrange : 0x3FFFF < s.writeAddr + 4 * s.writeLen - 1
      ∨ partition (s.writeAddr + 4 * s.writeLen - 1) ≠ partition s.writeAddr) : s.kprCheck who 1 key = 4 := by
  have hkey' : ¬ (partition s.writeAddr = 1 ∧ key ≠ 0xC5) := by tauto
  simp only [State.kprCheck, hpend]
  rw [if_neg Bool.false_ne_true, if_neg hkey', if_pos hrange]

theorem State.range_of_kprCheck (h : s.kprCheck who 1 key = 0) :
    s.writeAddr + 4 * s.writeLen - 1 ≤ 0x3FFFF
      ∧ partition (s.writeAddr + 4 * s.writeLen - 1) = partition s.writeAddr := by
  by_contra hout
  have hrange : 0x3FFFF < s.writeAddr + 4 * s.writeLen - 1
      ∨ partition (s.writeAddr + 4 * s.writeLen - 1) ≠ partition s.writeAddr := by
    rcases not_and_or.mp hout with hend | hpart
    · exact .inl (Nat.lt_of_not_le hend)
    · exact .inr hpart
  cases hpend : s.cmdPend with
  | true =>
    simp [State.kprCheck, hpend] at h
  | false =>
    by_cases hkey : partition s.writeAddr = 1 ∧ key ≠ 0xC5
    · simp only [State.kprCheck, hpend] at h
      rw [if_neg Bool.false_ne_true, if_pos hkey] at h
      exact absurd h (by decide)
    · rw [State.kprCheck_range hpend (by tauto) hrange] at h
      exact absurd h (by decide)

/-- A GO that meets RANGE records the result and cause 12.14, and nothing else (R391). -/
theorem State.kprGo_of_range (h : s.kprCheck who 1 key = 4) :
    s.kprGo who 1 key = (s.setFld F.KPR_CMD_RESULT 4).raise 12 14 := by
  simp only [State.kprGo, h]
  rfl

end

/-- Settles O45: with the last offset of a range in the first one's partition, all between lie there, as the partitions
ascend. -/
theorem keeperPartitions : Obligations.KeeperPartitions := by
  unfold Obligations.KeeperPartitions
  refine ⟨fun a ha => ⟨partition_lt a, fun q hq => ⟨eq_partition_of_bounds hq, ?_⟩⟩,
    fun s who key hpend hkey hrange => ?_, fun s who key hcheck b hlo hhi => ?_⟩
  · rintro rfl
    exact partition_bounds ha
  · have hcheck := State.kprCheck_range (who := who) hpend hkey hrange
    exact ⟨hcheck, State.kprGo_of_range hcheck⟩
  · obtain ⟨hend, hpart⟩ := State.range_of_kprCheck hcheck
    have hfirst := partition_le_partition hlo
    have hlast := partition_le_partition (a := b) (b := s.writeAddr + 4 * s.writeLen - 1) (by omega)
    exact ⟨by omega, by omega⟩

end Sys2Proof.Machine
end
